-- ==== Sys2Proof/Word.lean ====
section
/-! DEFINITION. The widths of the slice (spec 00_scope.md R5, R6): a register is 64 bits, a line 128 bytes, a codeword's check byte
8 bits. Byte 0 of a line is bits 7 to 0. -/

namespace Sys2Proof

/-- A register of the window (R9). -/
abbrev Word := BitVec 64

/-- One byte. -/
abbrev Byte := BitVec 8

/-- One line or frame of 128 bytes, byte 0 in bits [7:0] (R6). -/
abbrev Line := BitVec 1024

/-- A message payload: up to 144 bytes, byte 0 in bits [7:0] (R402). Bytes beyond the opcode's length are zero. -/
abbrev Payload := BitVec 1152

/-- A physical address or a buffer offset (R36). -/
abbrev Addr := BitVec 48

/-- A mesh node (R36). -/
abbrev Node := BitVec 11

/-- A partition (R36). -/
abbrev Pid := BitVec 4

/-- A transaction number (R36). -/
abbrev Txn := BitVec 10

/-- A mesh port: 0 to 3 for MP0 to MP3. -/
abbrev Port := Fin 4

end Sys2Proof
end

