-- ==== Sys2Proof/Syntax.lean ====
section
/-! DEFINITION. The commands of the slice: one constructor per row of the table of operations and events (spec
95_what_each_step_holds.md). A mesh message carries the fields of its header (R36) and its payload; a register action the node that
wrote and the 64-bit value; an internal event the unit it concerns; a ring or board packet its payload. What only the surroundings
know (flash bytes, monitor counts, telemetry bytes) is an operand. -/

namespace Sys2Proof

/-- The four message classes (R20, R36). -/
inductive Cls where
  | req | fwd | rsp | dat
  deriving DecidableEq, Repr

/-- How the flash ended a command (R381). -/
inductive FlashEnd where
  | ok | timeout | noSupport
  deriving DecidableEq, Repr

/-- How an ageing-record write ended (R323). -/
inductive RecordEnd where
  | ok | nvmErr | verify
  deriving DecidableEq, Repr

/-- A mesh message that arrives on a port: the header fields of R36 less CLASS and OPCODE, and the payload (R402). -/
structure Arr where
  port : Port
  src : Node
  dst : Node
  pid : Pid
  txn : Txn
  dclass : Bool
  hint : BitVec 4
  ext0 : BitVec 15
  addr : Addr
  ext1 : BitVec 16
  pl : Payload
  deriving DecidableEq, Repr

/-- A crossing: the port and its direction, the egress crossing where `out` holds (R237). -/
structure Crossing where
  port : Port
  out : Bool
  deriving DecidableEq, Repr

/-- The window that an ACT_SUM names (R305), and whether a slice's droop clamp was asserted in it (R299). -/
structure TokenWindow where
  win : BitVec 15
  clamped : Bool
  deriving DecidableEq, Repr

/-- The commands. -/
inductive Instr where
  /-- RD_S (R136). -/
  | rdS (a : Arr)
  /-- RD_X (R136). -/
  | rdX (a : Arr)
  /-- UPG (R140). -/
  | upg (a : Arr)
  /-- RD_NC (R136). -/
  | rdNc (a : Arr)
  /-- WR_NC (R136). -/
  | wrNc (a : Arr)
  /-- WB (R136). -/
  | wb (a : Arr)
  /-- STASH (R141). -/
  | stash (a : Arr)
  /-- CFG_RD (R129). -/
  | cfgRd (a : Arr) (full : Bool)
  /-- CFG_WR (R129). -/
  | cfgWr (a : Arr) (full : Bool)
  /-- ZERO_LINE (R90). -/
  | zeroLine (a : Arr)
  /-- CLEAN_LINE (R91). -/
  | cleanLine (a : Arr)
  /-- FLUSH_LINE (R91). -/
  | flushLine (a : Arr)
  /-- INVAL_LINE (R91). -/
  | invalLine (a : Arr)
  /-- PIN_RD (R101). -/
  | pinRd (a : Arr)
  /-- PIN_WR (R101). -/
  | pinWr (a : Arr)
  /-- PIN_FILL (R103). -/
  | pinFill (a : Arr)
  /-- PIN_COPY (R104). -/
  | pinCopy (a : Arr)
  /-- PIN_DROP (R105). -/
  | pinDrop (a : Arr)
  /-- PIN_STEP (R102). -/
  | pinStep (half : Bool) (bank : Fin 8)
  /-- PIN_FANOUT (R113). -/
  | pinFanout (a : Arr)
  /-- FANOUT_WINDOW_EXPIRY (R113). -/
  | fanoutWindowExpiry (k : Fin 16)
  /-- FO_DATA (R114). -/
  | foData (k : Fin 16)
  /-- FO_CREDIT (R112). -/
  | foCredit (a : Arr)
  /-- ACC_ADD (R160). -/
  | accAdd (a : Arr)
  /-- ACC_ADD_S (R160). -/
  | accAddS (a : Arr)
  /-- ACC_MERGE (R152). -/
  | accMerge (a : Arr)
  /-- ACC_FIN (R167). -/
  | accFin (a : Arr)
  /-- ACC_FIN_FUSE (R168). -/
  | accFinFuse (a : Arr)
  /-- EXPMAX (R166). -/
  | expmax (a : Arr)
  /-- ACC_ANCHOR (R165). -/
  | accAnchor (a : Arr)
  /-- LINE_OP (R181). -/
  | lineOp (a : Arr)
  /-- FETCH_OP (R183). -/
  | fetchOp (a : Arr)
  /-- SWAP (R183). -/
  | swap (a : Arr)
  /-- CAS (R183). -/
  | cas (a : Arr)
  /-- SY_INIT (R203). -/
  | syInit (a : Arr)
  /-- SY_ADD (R204). -/
  | syAdd (a : Arr)
  /-- SY_ACQ (R206). -/
  | syAcq (a : Arr)
  /-- SY_ARRIVE (R207). -/
  | syArrive (a : Arr)
  /-- SY_WAIT (R205). -/
  | syWait (a : Arr)
  /-- SY_READ (R210). -/
  | syRead (a : Arr)
  /-- SYNC_RELEASE_SEND (R212). -/
  | syncReleaseSend
  /-- BARRIER_DRAIN_END (R208). -/
  | barrierDrainEnd (t : Fin 8)
  /-- UNDEFINED_REQ (R39). -/
  | undefinedReq (op : BitVec 6) (a : Arr)
  /-- MEM_DATA (R84). -/
  | memData (a : Arr)
  /-- MEM_ACK (R137). -/
  | memAck (a : Arr)
  /-- COMP_ACK (R137). -/
  | compAck (a : Arr)
  /-- FWD_ACK (R137). -/
  | fwdAck (a : Arr)
  /-- SNP_DATA (R137). -/
  | snpData (a : Arr)
  /-- INV_ACK (R137). -/
  | invAck (a : Arr)
  /-- NACK_GONE (R137). -/
  | nackGone (a : Arr)
  /-- PUSH_ACK (R137). -/
  | pushAck (a : Arr)
  /-- PUSH_DECLINE (R137). -/
  | pushDecline (a : Arr)
  /-- COMP (R292). -/
  | comp (a : Arr)
  /-- UNMATCHED (R133). -/
  | unmatched (c : Cls) (op : BitVec 6) (a : Arr)
  /-- MISROUTED (R25). -/
  | misrouted (c : Cls) (op : BitVec 6) (a : Arr)
  /-- HOLD_QUEUE_REPLAY (R125). -/
  | holdQueueReplay (half : Bool) (bank : Fin 8)
  /-- CONTINUATION_GRANT (R127). -/
  | continuationGrant (half : Bool) (bank : Fin 8)
  /-- RECALL_REINSTATE (R81). -/
  | recallReinstate (e : Fin 32)
  /-- VICTIM_DEPARTURE (R80). -/
  | victimDeparture
  /-- VICTIM_ENTRY_FREE (R80). -/
  | victimEntryFree (e : Fin 32)
  /-- PT_ACTIVATE (R45). -/
  | ptActivate (p : Pid) (n : Node) (v : Word)
  /-- ACTIVATION_DONE (R47). -/
  | activationDone (p : Pid)
  /-- PT_RELEASE (R59). -/
  | ptRelease (p : Pid) (n : Node) (v : Word)
  /-- PT_SEAL (R56). -/
  | ptSeal (p : Pid) (n : Node) (v : Word)
  /-- SWEEP_RECALL (R60). -/
  | sweepRecall (p : Pid)
  /-- SWEEP_ZERO (R60). -/
  | sweepZero (p : Pid)
  /-- SWEEP_DONE (R62). -/
  | sweepDone (p : Pid)
  /-- RM_LO_WRITE (R50). -/
  | rmLoWrite (i : Fin 64) (n : Node) (v : Word)
  /-- RM_HI_WRITE (R50). -/
  | rmHiWrite (i : Fin 64) (n : Node) (v : Word)
  /-- ID_HM_DATA_WRITE (R24). -/
  | idHmDataWrite (n : Node) (v : Word)
  /-- MAINT_CLEAN (R93). -/
  | maintClean (n : Node) (v : Word)
  /-- MAINT_FLUSH (R93). -/
  | maintFlush (n : Node) (v : Word)
  /-- MAINT_INVAL (R93). -/
  | maintInval (n : Node) (v : Word)
  /-- MAINT_WALK_DONE (R93). -/
  | maintWalkDone
  /-- FO_ABORT (R115). -/
  | foAbort (k : Fin 16) (n : Node) (v : Word)
  /-- FO_CREDIT_INIT_WRITE (R112). -/
  | foCreditInitWrite (n : Node) (v : Word)
  /-- FO_CRED_VAL_WRITE (R117). -/
  | foCredValWrite (n : Node) (v : Word)
  /-- AX_CFG_WRITE (R177). -/
  | axCfgWrite (d : Fin 32) (n : Node) (v : Word)
  /-- AX_RANGE_WRITE (R176). -/
  | axRangeWrite (d : Fin 32) (limit : Bool) (n : Node) (v : Word)
  /-- AX_STATUS_SAT_CLEAR (R176). -/
  | axStatusSatClear (d : Fin 32) (n : Node) (v : Word)
  /-- DBG_READ (R216). -/
  | dbgRead (n : Node) (v : Word)
  /-- SET_VALUE (R217). -/
  | setValue (n : Node) (v : Word)
  /-- RELEASE_ALL (R217). -/
  | releaseAll (n : Node) (v : Word)
  /-- SY_SAVE (R219). -/
  | sySave (n : Node) (v : Word)
  /-- SY_RESTORE (R219). -/
  | syRestore (n : Node) (v : Word)
  /-- DG_LAUNCH_ARM (R234). -/
  | dgLaunchArm (n : Node) (v : Word)
  /-- DG_LAUNCH_CANCEL (R234). -/
  | dgLaunchCancel (n : Node) (v : Word)
  /-- LAUNCH (R235). -/
  | launch
  /-- CAPTURE_WALK_DONE (R245). -/
  | captureWalkDone
  /-- DG_LANE_WRITE (R248). -/
  | dgLaneWrite (p : Pid) (j : Fin 4) (n : Node) (v : Word)
  /-- EP_ARM (R253). -/
  | epArm (p : Pid) (n : Node) (v : Word)
  /-- EP_CANCEL (R253). -/
  | epCancel (p : Pid) (n : Node) (v : Word)
  /-- EPOCH_CLOSE (R255). -/
  | epochClose (p : Pid)
  /-- CLOSE_RECALL_DONE (R256). -/
  | closeRecallDone (p : Pid)
  /-- DRAIN_WRITE (R262). -/
  | drainWrite
  /-- EP_HARVEST_RELEASE (R265). -/
  | epHarvestRelease (p : Pid) (n : Node) (v : Word)
  /-- EP_HARVEST_ABORT (R266). -/
  | epHarvestAbort (p : Pid) (n : Node) (v : Word)
  /-- HARVEST_DONE (R265). -/
  | harvestDone (p : Pid)
  /-- SHELF_WAYS_WRITE (R260). -/
  | shelfWaysWrite (n : Node) (v : Word)
  /-- SHELF_PASS_DONE (R260). -/
  | shelfPassDone
  /-- BW_MIN_WRITE (R278). -/
  | bwMinWrite (k : Fin 4) (n : Node) (v : Word)
  /-- REG_WINDOW_START (R279). -/
  | regWindowStart
  /-- TEL_SYNC (R285). -/
  | telSync
  /-- TELEMETRY_FRAME (R287). -/
  | telemetryFrame (bytes : List Byte)
  /-- MISSED_WINDOW (R287). -/
  | missedWindow
  /-- LEVELS (R291). -/
  | levels (levels : Word) (c : Word)
  /-- DAMPER_WRITE_SEND (R292). -/
  | damperWriteSend
  /-- DROOP_TRIP (R295). -/
  | droopTrip
  /-- DROOP_CLAMP_END (R295). -/
  | droopClampEnd
  /-- PG_PHASE_HINT_WRITE (R296). -/
  | pgPhaseHintWrite (n : Node) (v : Word)
  /-- PG_ACT_REPORT_WRITE (R304). -/
  | pgActReportWrite (n : Node) (v : Word)
  /-- GROUP_BOUNDARY (R301). -/
  | groupBoundary (g : Fin 4)
  /-- PROPOSAL_DEADLINE (R303). -/
  | proposalDeadline (g : Fin 4)
  /-- GROUP_APPLY (R301). -/
  | groupApply (g : Fin 4)
  /-- FREQ_CHANGE (R409). -/
  | freqChange (hi : Bool)
  /-- HALF_RETENTION_COMMIT (R312). -/
  | halfRetentionCommit (half : Bool)
  /-- HALF_STATE_REACHED (R312). -/
  | halfStateReached (half : Bool)
  /-- HALF_OFF_START (R313). -/
  | halfOffStart (half : Bool)
  /-- HALF_FLUSH_DONE (R313). -/
  | halfFlushDone (half : Bool)
  /-- HALF_WAKE (R314). -/
  | halfWake (half : Bool)
  /-- HALF_WAKE_DONE (R314). -/
  | halfWakeDone (half : Bool)
  /-- MEAS_SET_START (R317). -/
  | measSetStart
  /-- MEAS_SET_END (R317). -/
  | measSetEnd (counts : BitVec 192)
  /-- ASSIST_PAUSE (R319). -/
  | assistPause (half : Bool)
  /-- POH_SECOND (R323). -/
  | pohSecond
  /-- AG_REC_WRITE (R323). -/
  | agRecWrite (n : Node) (v : Word)
  /-- AGEING_RECORD_DONE (R323). -/
  | ageingRecordDone (r : RecordEnd)
  /-- REPAIR_GRANT (R331). -/
  | repairGrant (half : Bool)
  /-- QUARANTINE_WORK (R332). -/
  | quarantineWork
  /-- PATROL_STEP (R340). -/
  | patrolStep
  /-- PATROL_DEFERRED_STEP (R341). -/
  | patrolDeferredStep (half : Bool)
  /-- BUCKET_LEAK (R338). -/
  | bucketLeak
  /-- EC_FLIP_ARM (R339). -/
  | ecFlipArm (n : Node) (v : Word)
  /-- EC_SPARE_WRITE (R342). -/
  | ecSpareWrite (n : Node) (v : Word)
  /-- SPARE_COPY_DONE (R342). -/
  | spareCopyDone
  /-- EC_RT_WRITE (R335). -/
  | ecRtWrite (i : Fin 64) (n : Node) (v : Word)
  /-- BCAST_WR (R353). -/
  | bcastWr (off : BitVec 16) (v : Word)
  /-- IMG_DATA (R374). -/
  | imgData (arg : BitVec 15) (bytes : List Byte)
  /-- AGE_ENTRY (R351). -/
  | ageEntry (dst : BitVec 7) (e : BitVec 256)
  /-- AGE_COLLECT (R351). -/
  | ageCollect (dst : BitVec 7) (e : BitVec 256)
  /-- COUNT_SET (R355). -/
  | countSet (a : Word) (v : Word)
  /-- ACT_SUM (R305). -/
  | actSum (win : TokenWindow) (l m h : Word)
  /-- ATTR_SUM (R305). -/
  | attrSum (win : BitVec 15) (e : Word)
  /-- KAPPA (R305). -/
  | kappa (win : BitVec 15) (ks : BitVec 256)
  /-- VOFF_MAX (R320). -/
  | voffMax (x : BitVec 4)
  /-- ROSTER (R354). -/
  | roster (mask : Word)
  /-- ROSTER_SET (R354). -/
  | rosterSet (mask : Word)
  /-- MODE (R350). -/
  | mode (awake : Bool)
  /-- PING (R351). -/
  | ping
  /-- RING_PARITY_ERROR (R349). -/
  | ringParityError
  /-- RG_ROSTER_CMD (R354). -/
  | rgRosterCmd (n : Node) (v : Word)
  /-- RG_EMBER (R350). -/
  | rgEmber (n : Node) (v : Word)
  /-- BR_TRAIN (R358). -/
  | brTrain (n : Node) (v : Word)
  /-- TRAINING_TIMEOUT (R358). -/
  | trainingTimeout
  /-- BOARD_COUNT (R360). -/
  | boardCount (origin seq : BitVec 4) (value : Word) (acc : BitVec 32) (phi : BitVec 4)
  /-- BOARD_PROP (R361). -/
  | boardProp (origin seq : BitVec 4) (pid level : BitVec 4) (clamp : BitVec 32) (b : BitVec 56)
  /-- BOARD_PING (R358). -/
  | boardPing (origin seq : BitVec 4) (visited : BitVec 16)
  /-- BOARD_ACK (R359). -/
  | boardAck (seq : BitVec 4)
  /-- BOARD_NAK (R359). -/
  | boardNak (seq : BitVec 4)
  /-- ECHO (R358). -/
  | echo (returned : Bool) (roundTrip : BitVec 16)
  /-- LAT (R358). -/
  | lat (x : BitVec 16)
  /-- RG_CNT_ADJ_GO (R362). -/
  | rgCntAdjGo (n : Node) (v : Word)
  /-- CROSSING_ALIGNMENT (R237). -/
  | crossingAlignment (lat : BitVec 32)
  /-- XING_MARKER_GAP (R237). -/
  | xingMarkerGap (p : Crossing)
  /-- AON_RESET_RELEASE (R364). -/
  | aonResetRelease (strap : BitVec 6)
  /-- NVM_WAIT_EXPIRY (R368). -/
  | nvmWaitExpiry (sfdp quad : Bool) (hdrA hdrB : BitVec 256)
  /-- IMAGE_STREAM_DONE (R374). -/
  | imageStreamDone (bank : List Byte) (age0 age1 : List Byte)
  /-- POWER_PRESENT (R364). -/
  | powerPresent (ce : BitVec 16) (bad : Bool)
  /-- KINDLING_FILL_DONE (R329). -/
  | kindlingFillDone (defects : List (BitVec 3 × BitVec 18 × BitVec 5 × BitVec 72)) (ce : BitVec 16) (bad : Bool)
  /-- COUNT_LOAD (R378). -/
  | countLoad
  /-- FLUE_OPEN (R378). -/
  | flueOpen
  /-- ROSTER_TAKE (R378). -/
  | rosterTake
  /-- SLICE_RESET_ASSERT (R380). -/
  | sliceResetAssert
  /-- SLICE_RESET_RELEASE (R380). -/
  | sliceResetRelease (strap : BitVec 6)
  /-- NV_READ (R381). -/
  | nvRead (n : Node) (v : Word)
  /-- NV_PROGRAM (R381). -/
  | nvProgram (n : Node) (v : Word)
  /-- NV_ERASE_4K (R381). -/
  | nvErase4k (n : Node) (v : Word)
  /-- NV_CMD_DONE (R381). -/
  | nvCmdDone (r : FlashEnd) (data : List Byte)
  /-- HEARTBEAT (R384). -/
  | heartbeat
  /-- STEWARD_HALT (R383). -/
  | stewardHalt
  /-- PC_CFG_WRITE (R390). -/
  | pcCfgWrite (i : Fin 32) (n : Node) (v : Word)
  /-- PC_VAL_WRITE (R387). -/
  | pcValWrite (i : Fin 32) (n : Node) (v : Word)
  /-- TD_ARR_START (R397). -/
  | tdArrStart (n : Node) (v : Word)
  /-- TAP_LOCK (R396). -/
  | tapLock (n : Node) (v : Word)
  /-- IDCODE (R394). -/
  | idcode
  /-- REGACC (R395). -/
  | regacc (write : Bool) (off : BitVec 13) (data : Word)
  /-- STATUS (R394). -/
  | status
  /-- BYPASS (R394). -/
  | bypass (tdi : Bool)
  /-- TAP_RESET (R412). -/
  | tapReset
  /-- ID_MISROUTE_CNT_CLEAR (R41). -/
  | idMisrouteCntClear (n : Node) (v : Word)
  /-- PT_DENY_CNT_CLEAR (R64). -/
  | ptDenyCntClear (p : Pid) (n : Node) (v : Word)
  /-- CZ_DROP_CNT_CLEAR (R94). -/
  | czDropCntClear (n : Node) (v : Word)
  /-- CZ_CONFLICT_CNT_CLEAR (R117). -/
  | czConflictCntClear (n : Node) (v : Word)
  /-- CZ_FO_VIOL_CLEAR (R117). -/
  | czFoViolClear (n : Node) (v : Word)
  /-- CZ_DEAD_CNT_CLEAR (R117). -/
  | czDeadCntClear (p : Pid) (n : Node) (v : Word)
  /-- CO_HQ_PEAK_CLEAR (R146). -/
  | coHqPeakClear (n : Node) (v : Word)
  /-- CO_NACK_CNT_CLEAR (R146). -/
  | coNackCntClear (n : Node) (v : Word)
  /-- CO_PUSH_CNT_CLEAR (R146). -/
  | coPushCntClear (n : Node) (v : Word)
  /-- CO_VIOL_CNT_CLEAR (R146). -/
  | coViolCntClear (n : Node) (v : Word)
  /-- AX_VIOL_CNT_CLEAR (R176). -/
  | axViolCntClear (n : Node) (v : Word)
  /-- SY_LOP_VIOL_CNT_CLEAR (R194). -/
  | syLopViolCntClear (n : Node) (v : Word)
  /-- SY_ODC_CLEAR (R194). -/
  | syOdcClear (p : Pid) (n : Node) (v : Word)
  /-- SY_SVIOL_CNT_CLEAR (R221). -/
  | sySviolCntClear (n : Node) (v : Word)
  /-- SY_PCNT_CLEAR (R221). -/
  | syPcntClear (p : Pid) (n : Node) (v : Word)
  /-- DG_TEVT_CNT_CLEAR (R248). -/
  | dgTevtCntClear (n : Node) (v : Word)
  /-- EP_PCNT_CLEAR (R272). -/
  | epPcntClear (p : Pid) (n : Node) (v : Word)
  /-- BW_SHORT_CLEAR (R284). -/
  | bwShortClear (n : Node) (v : Word)
  /-- BW_EGR_CNT_CLEAR (R284). -/
  | bwEgrCntClear (c : Fin 32) (n : Node) (v : Word)
  /-- BW_FILL_CNT_CLEAR (R284). -/
  | bwFillCntClear (c : Fin 32) (n : Node) (v : Word)
  /-- PG_TEL_CNT_CLEAR (R307). -/
  | pgTelCntClear (n : Node) (v : Word)
  /-- PG_GSTAT_CLEAR (R307). -/
  | pgGstatClear (g : Fin 4) (n : Node) (v : Word)
  /-- PG_ENERGY_CLEAR (R305). -/
  | pgEnergyClear (unattr : Bool) (p : Pid) (n : Node) (v : Word)
  /-- AG_WAKE_CNT_CLEAR (R324). -/
  | agWakeCntClear (n : Node) (v : Word)
  /-- EC_CNT_CLEAR (R343). -/
  | ecCntClear (n : Node) (v : Word)
  /-- EC_REPAIR_CLEAR (R343). -/
  | ecRepairClear (n : Node) (v : Word)
  /-- EC_BANK_CNT_CLEAR (R343). -/
  | ecBankCntClear (i : Fin 18) (n : Node) (v : Word)
  /-- RG_RETRY_CLEAR (R363). -/
  | rgRetryClear (n : Node) (v : Word)
  /-- REGISTER_WRITE (R12). -/
  | registerWrite (n : Node) (off : BitVec 16) (v : Word)
  /-- AON_RESET_ASSERT (R409). -/
  | aonResetAssert
  /-- MESH_EGRESS_CREDIT (R403). -/
  | meshEgressCredit (p : Port) (c : Cls)
  /-- RING_CREDIT (R348). -/
  | ringCredit
  /-- BOARD_FRAME_BAD (R359). -/
  | boardFrameBad (crcBad : Bool) (seq : BitVec 4)
  /-- DAMPER_PERIOD_START (R294). -/
  | damperPeriodStart
  /-- TIME_BASE_WALK_END (R228). -/
  | timeBaseWalkEnd
  /-- DATA (R219). -/
  | data (a : Arr)
  /-- SL_IRQ_MGMT_PULSE (R411). -/
  | slIrqMgmtPulse
  deriving DecidableEq, Repr

end Sys2Proof
end

