-- ==== Sys2Proof/Decode.lean ====
section
/-! DEFINITION. Decoding of table words (spec 95_what_each_step_holds.md). The table of operations and events gives no row any bits: a command
is a message, a write, an event or a packet, and no word spells one. -/

namespace Sys2Proof

/-- The command that a word of the table spells: none. (DEDUCED, log 50) -/
def decodeTableWord (_nbits _w : Nat) : Option Instr := none

end Sys2Proof
end

