-- ==== Sys2Proof/Machine/Bits.lean ====
section
/-! DEFINITION. Bit fields, byte order and the sparse tables that hold every array of the slice (spec 00_scope.md R5, R6). -/

namespace Sys2Proof.Machine

/-- The place of a field: its lowest bit and its length (R5). -/
structure Fld where
  lo : Nat
  len : Nat
  deriving DecidableEq, Repr

/-- The value of a field of any register or structure (R5). -/
def getF {n : Nat} (w : BitVec n) (f : Fld) : Nat := (w.extractLsb' f.lo f.len).toNat

/-- A word with one field replaced; a value too large keeps its low bits (R5). -/
def setF {n : Nat} (w : BitVec n) (f : Fld) (v : Nat) : BitVec n :=
  (w &&& ~~~((BitVec.allOnes f.len).setWidth n <<< f.lo)) ||| ((BitVec.ofNat f.len v).setWidth n <<< f.lo)

/-- One bit as a Bool. -/
def bitF {n : Nat} (w : BitVec n) (i : Nat) : Bool := w.getLsbD i

/-- A Bool as a number. -/
def b2n (b : Bool) : Nat := if b then 1 else 0

/-- Sum no larger than a ceiling. -/
def satAdd (cap a b : Nat) : Nat := min cap (a + b)

/-- Two's complement of a field of `len` bits read as a signed number. -/
def sext (len v : Nat) : Int := if v % 2 ^ len < 2 ^ (len - 1) then (v % 2 ^ len : Nat) else (v % 2 ^ len : Nat) - (2 ^ len : Nat)

/-- An integer wrapped to `len` bits. -/
def wrapN (len : Nat) (x : Int) : Nat := (x % (2 ^ len : Nat)).toNat

/-- Field of a line or payload given in bytes: `size` bytes from byte `at`, little-endian (R6). -/
def bytesAt {n : Nat} (w : BitVec n) (start size : Nat) : Nat := (w.extractLsb' (8 * start) (8 * size)).toNat

/-- The bytes of a number, least significant first (R6). -/
def leBytes : Nat → Nat → List Byte
  | 0, _ => []
  | k + 1, v => BitVec.ofNat 8 v :: leBytes k (v / 256)

/-- A number from its bytes, least significant first (R6). -/
def ofLeBytes : List Byte → Nat
  | [] => 0
  | b :: bs => b.toNat + 256 * ofLeBytes bs

/-- The mask of a line whose byte i is 0xFF where bit i of `m` is set. -/
def byteMask (m : BitVec 128) : Line :=
  (List.range 128).foldl (fun acc i => if m.getLsbD i then acc ||| (BitVec.ofNat 1024 0xFF <<< (8 * i)) else acc) 0

/-- The mask of the sectors (32 bytes each) that `m` selects. -/
def sectorMask (m : BitVec 4) : Line :=
  (List.range 4).foldl (fun acc i => if m.getLsbD i then acc ||| (BitVec.ofNat 1024 (2 ^ 256 - 1) <<< (256 * i)) else acc) 0

/-- `new` where the mask is set, `old` elsewhere. -/
def mergeLine (mask new old : Line) : Line := (new &&& mask) ||| (old &&& ~~~mask)

/-- The sectors a byte mask touches. -/
def sectorsTouched (m : BitVec 128) : BitVec 4 :=
  (List.range 4).foldl (fun acc i => if m.extractLsb' (32 * i) 32 = 0 then acc else acc ||| (1#4 <<< i)) 0

/-- The byte mask of a sector mask. -/
def bytesOfSectors (m : BitVec 4) : BitVec 128 :=
  (List.range 4).foldl (fun acc i => if m.getLsbD i then acc ||| (BitVec.ofNat 128 (2 ^ 32 - 1) <<< (32 * i)) else acc) 0

/-- The sectors a byte mask covers whole. -/
def sectorsWhole (m : BitVec 128) : BitVec 4 :=
  (List.range 4).foldl (fun acc i => if m.extractLsb' (32 * i) 32 = BitVec.allOnes 32 then acc ||| (1#4 <<< i) else acc) 0

/-- The number of set bits. -/
def popcount {n : Nat} (w : BitVec n) : Nat := (List.range n).foldl (fun c i => if w.getLsbD i then c + 1 else c) 0

/-- The first number below `n` that meets a test. -/
def firstBelow (n : Nat) (p : Nat → Bool) : Option Nat := (List.range n).find? p

/-- Replace the elements that meet a test. -/
def mapIf {α : Type} (l : List α) (p : α → Bool) (f : α → α) : List α := l.map (fun x => if p x then f x else x)

/-- A sparse table: pairs of a key and a value, keys strictly rising, no value equal to the table's default. -/
abbrev Tbl (α : Type) := List (Nat × α)

/-- The value at a key; an unlisted key reads as the default. -/
def Tbl.at {α : Type} (d : α) : Tbl α → Nat → α
  | [], _ => d
  | (j, v) :: t, k => if j = k then v else Tbl.at d t k

/-- Remove every key that meets a test. -/
def Tbl.drop {α : Type} (t : Tbl α) (p : Nat → Bool) : Tbl α := t.filter (fun e => !p e.1)

/-- A new entry takes its place among rising keys. -/
def Tbl.ins {α : Type} : Tbl α → Nat → α → Tbl α
  | [], k, v => [(k, v)]
  | (j, w) :: t, k, v => if k < j then (k, v) :: (j, w) :: t else (j, w) :: Tbl.ins t k v

/-- Write a key, keeping the canonical form: writing the default removes the entry. -/
def Tbl.put {α : Type} [DecidableEq α] (d : α) (t : Tbl α) (k : Nat) (v : α) : Tbl α :=
  let u := Tbl.drop t (fun j => decide (j = k))
  if v = d then u else Tbl.ins u k v

/-- The canonical form: keys strictly rising and no value equal to the default. -/
def Tbl.wf {α : Type} [DecidableEq α] (d : α) : Tbl α → Bool
  | [] => true
  | [(_, v)] => v ≠ d
  | (j, v) :: (k, w) :: t => decide (v ≠ d) && decide (j < k) && Tbl.wf d ((k, w) :: t)

end Sys2Proof.Machine
end

