-- ==== Sys2Proof/Machine/Compress.lean ====
section
/-! DEFINITION. The encodings of compressed lines (spec 03_cache.md R85 to R89). A slot is held as a number of up to 64 bytes, byte 0 in
bits [7:0]. -/

namespace Sys2Proof.Machine

/-- An encoded line: the encoding ENC (R66), its size in bytes and the slot's contents. -/
structure Encoded where
  enc : Nat
  size : Nat
  slot : BitVec 512
  deriving DecidableEq, Repr

/-- Zero (ENC 0b00): all 128 bytes are zero. -/
def encZero (l : Line) : Option Encoded := if l = 0 then some ⟨0, 0, 0⟩ else none

/-- A constant-repeat slot decodes by repeating its 32 bytes four times. -/
def repeat32 (v : BitVec 256) : Line :=
  v.setWidth 1024 ||| (v.setWidth 1024 <<< 256) ||| (v.setWidth 1024 <<< 512) ||| (v.setWidth 1024 <<< 768)

/-- Constant-repeat (ENC 0b01). -/
def encConst (l : Line) : Option Encoded :=
  let v : BitVec 256 := l.extractLsb' 0 256
  if repeat32 v = l then some ⟨1, 32, v.setWidth 512⟩ else none

/-- Element i of E bytes. -/
def elemE (l : Line) (e i : Nat) : Nat := bytesAt l (e * i) e

/-- The delta of element i to the base, as D signed bytes, if it fits (R88). -/
def deltaOf (e d x0 x : Nat) : Option Nat :=
  let diff := (x + 2 ^ (8 * e) - x0) % 2 ^ (8 * e)
  if diff < 2 ^ (8 * d - 1) then some diff
  else if 2 ^ (8 * e) - 2 ^ (8 * d - 1) ≤ diff then some (diff + 2 ^ (8 * d) - 2 ^ (8 * e)) else none

/-- The deltas of all elements, packed from the first upwards. -/
def packDeltas (e d x0 : Nat) (l : Line) : Nat → Option Nat
  | 0 => some 0
  | k + 1 =>
    match packDeltas e d x0 l k, deltaOf e d x0 (elemE l e k) with
    | some acc, some dv => some (acc + dv * 2 ^ (8 * d * k))
    | _, _ => none

/-- Base-delta with a code, element size E and delta size D (ENC 0b11, R88). -/
def encBase (l : Line) (code e d : Nat) : Option Encoded :=
  match packDeltas e d (elemE l e 0) l (128 / e) with
  | some p => some ⟨3, 1 + e + 128 / e * d, BitVec.ofNat 512 (code + 256 * elemE l e 0 + 2 ^ (8 * (1 + e)) * p)⟩
  | none => none

/-- Decode base-delta: element i (R88). -/
def baseElem (slot : BitVec 512) (e d i : Nat) : Nat :=
  let x0 := bytesAt slot 1 e
  let dv := bytesAt slot (1 + e + d * i) d
  (x0 + (if dv < 2 ^ (8 * d - 1) then dv else dv + 2 ^ (8 * e) - 2 ^ (8 * d))) % 2 ^ (8 * e)

/-- Elements of E bytes as a line, from the last one downwards. -/
def packElems (e : Nat) (f : Nat → Nat) : Nat → Line
  | 0 => 0
  | k + 1 => packElems e f k ||| (BitVec.ofNat 1024 (f k % 2 ^ (8 * e)) <<< (8 * e * k))

/-- An exponent-folded mode: elements per line, bits of an element, mantissa bits mw, exponent bits, window bits dw (R89). -/
structure FoldMode where
  n : Nat
  w : Nat
  mw : Nat
  ew : Nat
  dw : Nat
  deriving DecidableEq, Repr

/-- The three modes (R89). -/
def foldMode (m : Nat) : FoldMode :=
  if m = 0 then ⟨64, 16, 7, 8, 4⟩ else if m = 1 then ⟨128, 8, 3, 4, 2⟩ else ⟨128, 8, 2, 5, 2⟩

/-- Element i of a mode. -/
def foldElem (f : FoldMode) (l : Line) (i : Nat) : Nat := (l.extractLsb' (f.w * i) f.w).toNat

/-- The exponent field of an element. -/
def foldExp (f : FoldMode) (x : Nat) : Nat := x / 2 ^ f.mw % 2 ^ f.ew

/-- The present elements: those that are not all zero bits. -/
def foldPresent (f : FoldMode) (l : Line) : List Nat := (List.range f.n).filter (fun i => foldElem f l i != 0)

/-- The packed field of an element over base exponent b. -/
def foldField (f : FoldMode) (b x : Nat) : Nat :=
  x / 2 ^ (f.w - 1) * 2 ^ (f.dw + f.mw) + (foldExp f x - b) * 2 ^ f.mw + x % 2 ^ f.mw

/-- Exponent-folded (ENC 0b10, R89). -/
def encFold (l : Line) (m : Nat) : Option Encoded :=
  let f := foldMode m
  let pres := foldPresent f l
  let b := pres.foldl (fun a i => min a (foldExp f (foldElem f l i))) 255
  let fw := 1 + f.dw + f.mw
  let size := 2 + f.n / 8 + (pres.length * fw + 7) / 8
  if pres = [] || 64 < size || pres.any (fun i => 2 ^ f.dw ≤ foldExp f (foldElem f l i) - b) then none
  else
    let bitmap := pres.foldl (fun a i => a + 2 ^ i) 0
    let fields := pres.foldl (fun (a : Nat × Nat) i => (a.1 + foldField f b (foldElem f l i) * 2 ^ a.2, a.2 + fw)) (0, 0)
    some ⟨2, size, BitVec.ofNat 512 (m + 256 * b + 2 ^ 16 * bitmap + 2 ^ (16 + f.n) * fields.1)⟩

/-- Decode an exponent-folded slot. -/
def decFold (slot : BitVec 512) : Line :=
  let m := bytesAt slot 0 1
  let f := foldMode m
  let b := bytesAt slot 1 1
  let fw := 1 + f.dw + f.mw
  let r := (List.range f.n).foldl (fun (a : Line × Nat) i =>
    if slot.getLsbD (16 + i) then
      let v := (slot.extractLsb' (16 + f.n + fw * a.2) fw).toNat
      let x := v / 2 ^ (f.dw + f.mw) * 2 ^ (f.w - 1) + (v / 2 ^ f.mw % 2 ^ f.dw + b) % 2 ^ f.ew * 2 ^ f.mw + v % 2 ^ f.mw
      (a.1 ||| (BitVec.ofNat 1024 x <<< (f.w * i)), a.2 + 1)
    else a) (0, 0)
  r.1

/-- The line that a slot of an encoding holds (R85, R87 to R89). -/
def decSlot (enc : Nat) (slot : BitVec 512) : Line :=
  if enc = 0 then 0
  else if enc = 1 then repeat32 (slot.extractLsb' 0 256)
  else if enc = 2 then decFold slot
  else
    let code := bytesAt slot 0 1
    if code = 1 then packElems 8 (baseElem slot 8 1) 16
    else if code = 2 then packElems 4 (baseElem slot 4 1) 32
    else packElems 8 (baseElem slot 8 2) 16

/-- Which encodings CZ_CTRL enables, bit for bit (R94). -/
structure EncEn where
  zero : Bool
  const : Bool
  bdelta : Bool
  bf16 : Bool
  e4m3 : Bool
  e5m2 : Bool
  deriving DecidableEq, Repr

/-- The encodings in the order that resolves equal sizes (R87). -/
def encCandidates (en : EncEn) (l : Line) : List Encoded :=
  ([if en.zero then encZero l else none, if en.const then encConst l else none,
    if en.bdelta then encBase l 1 8 1 else none, if en.bdelta then encBase l 2 4 1 else none, if en.bdelta then encBase l 3 8 2 else none,
    if en.bf16 then encFold l 0 else none, if en.e4m3 then encFold l 1 else none, if en.e5m2 then encFold l 2 else none]).filterMap id

/-- The smallest encoding that applies; the first of equals (R87). -/
def chooseEnc (en : EncEn) (l : Line) : Option Encoded :=
  (encCandidates en l).foldl (fun r e => match r with
    | none => some e
    | some x => if e.size < x.size then some e else some x) none

end Sys2Proof.Machine
end

