-- ==== Sys2Proof/Config.lean ====
section
/-! DEFINITION. The free values of the model: values the spec does not state. None has a body, so nothing can evaluate them
and a statement about them holds for every value. Each is named in a row of the assumption log. -/

namespace Sys2Proof

/-- The ratio r_i of a measurement set whose reference monitor counted no edge, or that does not fit the 16 bits that hold it
(R317 divides by count_7). (DESIGN CHOICE, log 5) -/
opaque Config.ratioOpen (monitor : Nat) (count : Nat) : BitVec 16

/-- AG_MEAS_STATUS.ACT of a set whose activity does not fit its 8 bits, or whose window held no fc (R317). (DESIGN CHOICE, log 5) -/
opaque Config.activityOpen (counter : Nat) : BitVec 8

/-- A learned draw that falls outside its 16-bit field, or that R297 takes from a rail that does not exist
(R297, R299 state no value). (DESIGN CHOICE, log 5) -/
opaque Config.drawOpen (kind : Nat) (counter : Nat) : BitVec 16

/-- A link latency computed from a round trip shorter than the 64 UI of the echo (R358). (DESIGN CHOICE, log 5) -/
opaque Config.latencyOpen (roundTrip : Nat) : BitVec 16

/-- The ring cycles of the circuit of a PING (R351): the spec does not say when the lead sends one. (DESIGN CHOICE, log 5) -/
opaque Config.ringCircuit (counter : Nat) : BitVec 16

/-- The error-log type of a refused write of the bandwidth minima: R278 has it recorded, and R336 gives it no type. (DESIGN CHOICE, log 5) -/
opaque Config.minimumsLogType (counter : Nat) : BitVec 5

/-- DATA of a test-port read of a register that is not reachable (R395 gives RES 3 and no data). (DESIGN CHOICE, log 5) -/
opaque Config.tapOpen (counter : Nat) : BitVec 64

/-- Whether half a UI counts as one in the ACC of a COUNT frame sent again an odd number of ticks after its edge: R357 counts whole UI.
(DESIGN CHOICE, log 5) -/
opaque Config.accHalf (ticks : Nat) : Bool

end Sys2Proof
end

