-- ==== Sys2Proof/Machine/RegMap.lean ====
section
/-! DEFINITION. The register window (spec 00_scope.md R7 to R12 and the register tables of every chapter): the offset of each
register, the place of each field, and the table of access codes. An entry register takes its index; a field is ⟨lowest bit,
length⟩. Written from the register tables of the spec. -/

namespace Sys2Proof.Machine

/-- ID_REV (R41). -/
abbrev ID_REV : Nat := 0x0
abbrev ID_REV_VENDOR : Fld := ⟨48, 16⟩
abbrev ID_REV_DEVICE : Fld := ⟨32, 16⟩
abbrev ID_REV_REV_MAJOR : Fld := ⟨8, 8⟩
abbrev ID_REV_REV_MINOR : Fld := ⟨0, 8⟩
/-- ID_SLICE (R41). -/
abbrev ID_SLICE : Nat := 0x8
abbrev ID_SLICE_GROUP_SIZE : Fld := ⟨16, 7⟩
abbrev ID_SLICE_LEAD : Fld := ⟨8, 1⟩
abbrev ID_SLICE_SLICE_ID : Fld := ⟨0, 6⟩
/-- ID_GEOM (R41). -/
abbrev ID_GEOM : Nat := 0x10
abbrev ID_GEOM_VICTIM_FRAMES : Fld := ⟨32, 8⟩
abbrev ID_GEOM_SETS_LOG2 : Fld := ⟨24, 8⟩
abbrev ID_GEOM_WAYS : Fld := ⟨16, 8⟩
abbrev ID_GEOM_SPARES_PER_HALF : Fld := ⟨8, 4⟩
abbrev ID_GEOM_BANKS_PER_HALF : Fld := ⟨4, 4⟩
abbrev ID_GEOM_HALVES : Fld := ⟨0, 4⟩
/-- ID_NODE (R41). -/
abbrev ID_NODE : Nat := 0x18
abbrev ID_NODE_NODE_MP3 : Fld := ⟨33, 11⟩
abbrev ID_NODE_NODE_MP2 : Fld := ⟨22, 11⟩
abbrev ID_NODE_NODE_MP1 : Fld := ⟨11, 11⟩
abbrev ID_NODE_NODE_MP0 : Fld := ⟨0, 11⟩
/-- ID_CTRL (R41). -/
abbrev ID_CTRL : Nat := 0x20
abbrev ID_CTRL_MISROUTE_IRQ_EN : Fld := ⟨1, 1⟩
abbrev ID_CTRL_QUIESCE : Fld := ⟨0, 1⟩
/-- ID_STATUS (R41). -/
abbrev ID_STATUS : Nat := 0x28
abbrev ID_STATUS_H1_AWAKE : Fld := ⟨7, 1⟩
abbrev ID_STATUS_H0_AWAKE : Fld := ⟨6, 1⟩
abbrev ID_STATUS_MAP_BAD : Fld := ⟨3, 1⟩
abbrev ID_STATUS_MISROUTE : Fld := ⟨2, 1⟩
abbrev ID_STATUS_QUIESCED : Fld := ⟨1, 1⟩
abbrev ID_STATUS_READY : Fld := ⟨0, 1⟩
/-- ID_HM_INDEX (R41). -/
abbrev ID_HM_INDEX : Nat := 0x30
abbrev ID_HM_INDEX_AUTOINC : Fld := ⟨8, 1⟩
abbrev ID_HM_INDEX_GROUP : Fld := ⟨0, 7⟩
/-- ID_HM_DATA (R41). -/
abbrev ID_HM_DATA : Nat := 0x38
abbrev ID_HM_DATA_ENTRY7 : Fld := ⟨56, 6⟩
abbrev ID_HM_DATA_ENTRY6 : Fld := ⟨48, 6⟩
abbrev ID_HM_DATA_ENTRY5 : Fld := ⟨40, 6⟩
abbrev ID_HM_DATA_ENTRY4 : Fld := ⟨32, 6⟩
abbrev ID_HM_DATA_ENTRY3 : Fld := ⟨24, 6⟩
abbrev ID_HM_DATA_ENTRY2 : Fld := ⟨16, 6⟩
abbrev ID_HM_DATA_ENTRY1 : Fld := ⟨8, 6⟩
abbrev ID_HM_DATA_ENTRY0 : Fld := ⟨0, 6⟩
/-- ID_HM_CRC (R41). -/
abbrev ID_HM_CRC : Nat := 0x40
abbrev ID_HM_CRC_CRC : Fld := ⟨0, 32⟩
/-- ID_MISROUTE_ADDR (R41). -/
abbrev ID_MISROUTE_ADDR : Nat := 0x48
abbrev ID_MISROUTE_ADDR_SRC : Fld := ⟨48, 11⟩
abbrev ID_MISROUTE_ADDR_ADDR : Fld := ⟨0, 48⟩
/-- ID_MISROUTE_CNT (R41). -/
abbrev ID_MISROUTE_CNT : Nat := 0x50
abbrev ID_MISROUTE_CNT_CLEAR : Fld := ⟨63, 1⟩
abbrev ID_MISROUTE_CNT_COUNT : Fld := ⟨0, 32⟩
/-- ID_CFG_BASE (R41). -/
abbrev ID_CFG_BASE : Nat := 0x58
abbrev ID_CFG_BASE_BASE : Fld := ⟨22, 26⟩
/-- PT_CTRL (R64). -/
abbrev PT_CTRL (i : Nat) : Nat := 0x400 + i * 64
abbrev PT_CTRL_ACTIVE : Fld := ⟨8, 1⟩
abbrev PT_CTRL_DENY_IRQ_EN : Fld := ⟨7, 1⟩
abbrev PT_CTRL_SWEEP_IRQ_EN : Fld := ⟨6, 1⟩
abbrev PT_CTRL_PC_USER : Fld := ⟨5, 1⟩
abbrev PT_CTRL_DET_MODE : Fld := ⟨4, 1⟩
abbrev PT_CTRL_SEAL : Fld := ⟨3, 1⟩
abbrev PT_CTRL_FLUSH : Fld := ⟨2, 1⟩
abbrev PT_CTRL_RELEASE : Fld := ⟨1, 1⟩
abbrev PT_CTRL_ACTIVATE : Fld := ⟨0, 1⟩
/-- PT_WAYS (R64). -/
abbrev PT_WAYS (i : Nat) : Nat := 0x408 + i * 64
abbrev PT_WAYS_PIN_MASK : Fld := ⟨16, 16⟩
abbrev PT_WAYS_CACHE_MASK : Fld := ⟨0, 16⟩
/-- PT_STATUS (R64). -/
abbrev PT_STATUS (i : Nat) : Nat := 0x410 + i * 64
abbrev PT_STATUS_CMD_RESULT : Fld := ⟨16, 4⟩
abbrev PT_STATUS_PHASE : Fld := ⟨8, 2⟩
abbrev PT_STATUS_STATE : Fld := ⟨0, 2⟩
/-- PT_SWEEP_START (R64). -/
abbrev PT_SWEEP_START (i : Nat) : Nat := 0x418 + i * 64
abbrev PT_SWEEP_START_TICK : Fld := ⟨0, 64⟩
/-- PT_SWEEP_REC (R64). -/
abbrev PT_SWEEP_REC (i : Nat) : Nat := 0x420 + i * 64
abbrev PT_SWEEP_REC_DONE : Fld := ⟨63, 1⟩
abbrev PT_SWEEP_REC_DRAIN_ABORTED : Fld := ⟨62, 1⟩
abbrev PT_SWEEP_REC_FLUSHED : Fld := ⟨61, 1⟩
abbrev PT_SWEEP_REC_DURATION : Fld := ⟨40, 21⟩
abbrev PT_SWEEP_REC_RECALLED : Fld := ⟨17, 19⟩
abbrev PT_SWEEP_REC_FRAMES : Fld := ⟨0, 17⟩
/-- PT_DENY (R64). -/
abbrev PT_DENY (i : Nat) : Nat := 0x428 + i * 64
abbrev PT_DENY_VALID : Fld := ⟨63, 1⟩
abbrev PT_DENY_SRC : Fld := ⟨48, 11⟩
abbrev PT_DENY_ADDR : Fld := ⟨0, 48⟩
/-- PT_DENY_CNT (R64). -/
abbrev PT_DENY_CNT (i : Nat) : Nat := 0x430 + i * 64
abbrev PT_DENY_CNT_CLEAR : Fld := ⟨63, 1⟩
abbrev PT_DENY_CNT_COUNT : Fld := ⟨0, 32⟩
/-- RM_LO (R65). -/
abbrev RM_LO (i : Nat) : Nat := 0x800 + i * 16
abbrev RM_LO_BASE : Fld := ⟨21, 27⟩
/-- RM_HI (R65). -/
abbrev RM_HI (i : Nat) : Nat := 0x808 + i * 16
abbrev RM_HI_VALID : Fld := ⟨63, 1⟩
abbrev RM_HI_RDONLY : Fld := ⟨62, 1⟩
abbrev RM_HI_PID : Fld := ⟨56, 4⟩
abbrev RM_HI_LIMIT : Fld := ⟨21, 27⟩
/-- RM_STATUS (R65). -/
abbrev RM_STATUS : Nat := 0xC00
abbrev RM_STATUS_OVERLAP : Fld := ⟨7, 1⟩
abbrev RM_STATUS_BAD_RANGE : Fld := ⟨6, 1⟩
abbrev RM_STATUS_INDEX : Fld := ⟨0, 6⟩
/-- AX_CFG (R177). -/
abbrev AX_CFG (i : Nat) : Nat := 0x1000 + i * 32
abbrev AX_CFG_PID : Fld := ⟨48, 4⟩
abbrev AX_CFG_ANCHOR : Fld := ⟨32, 10⟩
abbrev AX_CFG_FORMAT : Fld := ⟨2, 1⟩
abbrev AX_CFG_KIND : Fld := ⟨1, 1⟩
abbrev AX_CFG_VALID : Fld := ⟨0, 1⟩
/-- AX_BASE (R177). -/
abbrev AX_BASE (i : Nat) : Nat := 0x1008 + i * 32
abbrev AX_BASE_BASE : Fld := ⟨9, 39⟩
/-- AX_LIMIT (R177). -/
abbrev AX_LIMIT (i : Nat) : Nat := 0x1010 + i * 32
abbrev AX_LIMIT_LIMIT : Fld := ⟨9, 39⟩
/-- AX_STATUS (R177). -/
abbrev AX_STATUS (i : Nat) : Nat := 0x1018 + i * 32
abbrev AX_STATUS_SAT : Fld := ⟨63, 1⟩
abbrev AX_STATUS_CNT : Fld := ⟨62, 1⟩
abbrev AX_STATUS_NF : Fld := ⟨61, 1⟩
abbrev AX_STATUS_SAT_CNT : Fld := ⟨0, 32⟩
/-- AX_VIOL (R177). -/
abbrev AX_VIOL : Nat := 0x1400
abbrev AX_VIOL_VALID : Fld := ⟨63, 1⟩
abbrev AX_VIOL_CAUSE : Fld := ⟨59, 4⟩
abbrev AX_VIOL_PID : Fld := ⟨52, 4⟩
abbrev AX_VIOL_ADDR : Fld := ⟨0, 48⟩
/-- AX_VIOL_CNT (R177). -/
abbrev AX_VIOL_CNT : Nat := 0x1408
abbrev AX_VIOL_CNT_CLEAR : Fld := ⟨63, 1⟩
abbrev AX_VIOL_CNT_COUNT : Fld := ⟨0, 32⟩
/-- SY_CTRL (R221). -/
abbrev SY_CTRL : Nat := 0x1800
abbrev SY_CTRL_WTFULL_IRQ_EN : Fld := ⟨18, 1⟩
abbrev SY_CTRL_LATE_IRQ_EN : Fld := ⟨17, 1⟩
abbrev SY_CTRL_MISUSE_IRQ_EN : Fld := ⟨16, 1⟩
abbrev SY_CTRL_REL_LEAD : Fld := ⟨0, 16⟩
/-- SY_STATUS (R221). -/
abbrev SY_STATUS : Nat := 0x1808
abbrev SY_STATUS_WTFULL : Fld := ⟨18, 1⟩
abbrev SY_STATUS_LATE : Fld := ⟨17, 1⟩
abbrev SY_STATUS_MISUSE : Fld := ⟨16, 1⟩
abbrev SY_STATUS_DRAIN_OCC : Fld := ⟨12, 4⟩
abbrev SY_STATUS_WT_OCC : Fld := ⟨0, 7⟩
/-- SY_DBG_ADDR (R221). -/
abbrev SY_DBG_ADDR : Nat := 0x1810
abbrev SY_DBG_ADDR_PIN : Fld := ⟨56, 1⟩
abbrev SY_DBG_ADDR_PID : Fld := ⟨52, 4⟩
abbrev SY_DBG_ADDR_OBJ : Fld := ⟨4, 44⟩
/-- SY_DBG_OBJ0 (R221). -/
abbrev SY_DBG_OBJ0 : Nat := 0x1818
abbrev SY_DBG_OBJ0_BYTES : Fld := ⟨0, 64⟩
/-- SY_DBG_OBJ1 (R221). -/
abbrev SY_DBG_OBJ1 : Nat := 0x1820
abbrev SY_DBG_OBJ1_BYTES : Fld := ⟨0, 64⟩
/-- SY_DBG_CMD (R221). -/
abbrev SY_DBG_CMD : Nat := 0x1828
abbrev SY_DBG_CMD_START : Fld := ⟨63, 1⟩
abbrev SY_DBG_CMD_BUSY : Fld := ⟨62, 1⟩
abbrev SY_DBG_CMD_RESULT : Fld := ⟨59, 3⟩
abbrev SY_DBG_CMD_ACTION : Fld := ⟨56, 2⟩
abbrev SY_DBG_CMD_VALUE : Fld := ⟨0, 32⟩
/-- SY_WT_SEL (R221). -/
abbrev SY_WT_SEL : Nat := 0x1830
abbrev SY_WT_SEL_ENTRY : Fld := ⟨0, 6⟩
/-- SY_WT_VIEW0 (R221). -/
abbrev SY_WT_VIEW0 : Nat := 0x1838
abbrev SY_WT_VIEW0_OBJ : Fld := ⟨16, 44⟩
abbrev SY_WT_VIEW0_DCLASS : Fld := ⟨13, 1⟩
abbrev SY_WT_VIEW0_PID : Fld := ⟨9, 4⟩
abbrev SY_WT_VIEW0_PIN : Fld := ⟨8, 1⟩
abbrev SY_WT_VIEW0_CMP : Fld := ⟨6, 2⟩
abbrev SY_WT_VIEW0_KIND : Fld := ⟨3, 3⟩
abbrev SY_WT_VIEW0_STATE : Fld := ⟨1, 2⟩
abbrev SY_WT_VIEW0_VALID : Fld := ⟨0, 1⟩
/-- SY_WT_VIEW1 (R221). -/
abbrev SY_WT_VIEW1 : Nat := 0x1840
abbrev SY_WT_VIEW1_WAITBIT : Fld := ⟨54, 1⟩
abbrev SY_WT_VIEW1_PORT : Fld := ⟨53, 1⟩
abbrev SY_WT_VIEW1_TXN : Fld := ⟨43, 10⟩
abbrev SY_WT_VIEW1_SRC : Fld := ⟨32, 11⟩
abbrev SY_WT_VIEW1_ARG : Fld := ⟨0, 32⟩
/-- SY_SAVE_CTRL (R221). -/
abbrev SY_SAVE_CTRL : Nat := 0x1848
abbrev SY_SAVE_CTRL_START : Fld := ⟨63, 1⟩
abbrev SY_SAVE_CTRL_BUSY : Fld := ⟨62, 1⟩
abbrev SY_SAVE_CTRL_DONE : Fld := ⟨61, 1⟩
abbrev SY_SAVE_CTRL_RESULT : Fld := ⟨58, 3⟩
abbrev SY_SAVE_CTRL_OP : Fld := ⟨48, 2⟩
abbrev SY_SAVE_CTRL_PID : Fld := ⟨44, 4⟩
abbrev SY_SAVE_CTRL_COUNT : Fld := ⟨0, 7⟩
/-- SY_SAVE_ADDR (R221). -/
abbrev SY_SAVE_ADDR : Nat := 0x1850
abbrev SY_SAVE_ADDR_ADDR : Fld := ⟨10, 38⟩
/-- SY_SVIOL (R221). -/
abbrev SY_SVIOL : Nat := 0x1858
abbrev SY_SVIOL_VALID : Fld := ⟨63, 1⟩
abbrev SY_SVIOL_CAUSE : Fld := ⟨60, 3⟩
abbrev SY_SVIOL_PID : Fld := ⟨56, 4⟩
abbrev SY_SVIOL_OPCODE : Fld := ⟨50, 6⟩
abbrev SY_SVIOL_ADDR : Fld := ⟨0, 48⟩
/-- SY_SVIOL_CNT (R221). -/
abbrev SY_SVIOL_CNT : Nat := 0x1860
abbrev SY_SVIOL_CNT_CLEAR : Fld := ⟨63, 1⟩
abbrev SY_SVIOL_CNT_COUNT : Fld := ⟨0, 32⟩
/-- SY_PCNT (R221). -/
abbrev SY_PCNT (i : Nat) : Nat := 0x1880 + i * 8
abbrev SY_PCNT_CLEAR : Fld := ⟨63, 1⟩
abbrev SY_PCNT_LATE : Fld := ⟨48, 15⟩
abbrev SY_PCNT_WTFULL : Fld := ⟨32, 16⟩
abbrev SY_PCNT_MISUSE : Fld := ⟨16, 16⟩
abbrev SY_PCNT_EARLY : Fld := ⟨0, 16⟩
/-- SY_LOP_VIOL (R194). -/
abbrev SY_LOP_VIOL : Nat := 0x1F00
abbrev SY_LOP_VIOL_VALID : Fld := ⟨63, 1⟩
abbrev SY_LOP_VIOL_CAUSE : Fld := ⟨60, 3⟩
abbrev SY_LOP_VIOL_PID : Fld := ⟨56, 4⟩
abbrev SY_LOP_VIOL_OPCODE : Fld := ⟨50, 6⟩
abbrev SY_LOP_VIOL_ADDR : Fld := ⟨0, 48⟩
/-- SY_LOP_VIOL_CNT (R194). -/
abbrev SY_LOP_VIOL_CNT : Nat := 0x1F08
abbrev SY_LOP_VIOL_CNT_CLEAR : Fld := ⟨63, 1⟩
abbrev SY_LOP_VIOL_CNT_COUNT : Fld := ⟨0, 32⟩
/-- SY_ODC_REF (R194). -/
abbrev SY_ODC_REF : Nat := 0x1F10
abbrev SY_ODC_REF_VALID : Fld := ⟨63, 1⟩
abbrev SY_ODC_REF_PID : Fld := ⟨59, 4⟩
abbrev SY_ODC_REF_PIN : Fld := ⟨58, 1⟩
abbrev SY_ODC_REF_LINE : Fld := ⟨0, 41⟩
/-- SY_ODC_NODES (R194). -/
abbrev SY_ODC_NODES : Nat := 0x1F18
abbrev SY_ODC_NODES_LATER_OP : Fld := ⟨48, 6⟩
abbrev SY_ODC_NODES_LATER_SRC : Fld := ⟨32, 11⟩
abbrev SY_ODC_NODES_EARLIER_OP : Fld := ⟨16, 6⟩
abbrev SY_ODC_NODES_EARLIER_SRC : Fld := ⟨0, 11⟩
/-- SY_ODC (R194). -/
abbrev SY_ODC (i : Nat) : Nat := 0x1F80 + i * 8
abbrev SY_ODC_CLEAR : Fld := ⟨63, 1⟩
abbrev SY_ODC_COUNT : Fld := ⟨0, 48⟩
/-- CO_CTRL (R146). -/
abbrev CO_CTRL : Nat := 0x2000
abbrev CO_CTRL_ROW_COLS : Fld := ⟨8, 6⟩
abbrev CO_CTRL_NEAREST_EN : Fld := ⟨0, 1⟩
/-- CO_NODEMAP (R146). -/
abbrev CO_NODEMAP : Nat := 0x2008
abbrev CO_NODEMAP_CORE_COUNT : Fld := ⟨16, 11⟩
abbrev CO_NODEMAP_CORE_BASE : Fld := ⟨0, 11⟩
/-- CO_HQ_PEAK (R146). -/
abbrev CO_HQ_PEAK : Nat := 0x2010
abbrev CO_HQ_PEAK_CLEAR : Fld := ⟨63, 1⟩
abbrev CO_HQ_PEAK_PEAK : Fld := ⟨8, 6⟩
abbrev CO_HQ_PEAK_BANK : Fld := ⟨0, 4⟩
/-- CO_NACK_CNT (R146). -/
abbrev CO_NACK_CNT : Nat := 0x2018
abbrev CO_NACK_CNT_CLEAR : Fld := ⟨63, 1⟩
abbrev CO_NACK_CNT_COUNT : Fld := ⟨0, 32⟩
/-- CO_PUSH_CNT (R146). -/
abbrev CO_PUSH_CNT : Nat := 0x2020
abbrev CO_PUSH_CNT_CLEAR : Fld := ⟨63, 1⟩
abbrev CO_PUSH_CNT_DECLINED : Fld := ⟨32, 31⟩
abbrev CO_PUSH_CNT_ACCEPTED : Fld := ⟨0, 31⟩
/-- CO_VIOL (R146). -/
abbrev CO_VIOL : Nat := 0x2028
abbrev CO_VIOL_VALID : Fld := ⟨63, 1⟩
abbrev CO_VIOL_CODE : Fld := ⟨60, 3⟩
abbrev CO_VIOL_SRC : Fld := ⟨48, 11⟩
abbrev CO_VIOL_ADDR : Fld := ⟨0, 48⟩
/-- CO_VIOL_CNT (R146). -/
abbrev CO_VIOL_CNT : Nat := 0x2030
abbrev CO_VIOL_CNT_CLEAR : Fld := ⟨63, 1⟩
abbrev CO_VIOL_CNT_COUNT : Fld := ⟨0, 32⟩
/-- CO_HTE_SEL (R146). -/
abbrev CO_HTE_SEL : Nat := 0x2038
abbrev CO_HTE_SEL_HALF : Fld := ⟨8, 1⟩
abbrev CO_HTE_SEL_BANK : Fld := ⟨4, 3⟩
abbrev CO_HTE_SEL_ENTRY : Fld := ⟨0, 4⟩
/-- CO_HTE_VIEW0 (R146). -/
abbrev CO_HTE_VIEW0 : Nat := 0x2040
abbrev CO_HTE_VIEW0_STATE : Fld := ⟨61, 3⟩
abbrev CO_HTE_VIEW0_GRANT : Fld := ⟨58, 3⟩
abbrev CO_HTE_VIEW0_NEED_ACK : Fld := ⟨57, 1⟩
abbrev CO_HTE_VIEW0_GOT_ACK : Fld := ⟨56, 1⟩
abbrev CO_HTE_VIEW0_GOT_ANS : Fld := ⟨55, 1⟩
abbrev CO_HTE_VIEW0_DCLASS : Fld := ⟨54, 1⟩
abbrev CO_HTE_VIEW0_PID : Fld := ⟨50, 4⟩
abbrev CO_HTE_VIEW0_OP : Fld := ⟨44, 6⟩
abbrev CO_HTE_VIEW0_LINE : Fld := ⟨0, 41⟩
/-- CO_HTE_VIEW1 (R146). -/
abbrev CO_HTE_VIEW1 : Nat := 0x2048
abbrev CO_HTE_VIEW1_PEND : Fld := ⟨32, 10⟩
abbrev CO_HTE_VIEW1_RNODE : Fld := ⟨20, 11⟩
abbrev CO_HTE_VIEW1_COVER : Fld := ⟨10, 4⟩
abbrev CO_HTE_VIEW1_RTXN : Fld := ⟨0, 10⟩
/-- CZ_CTRL (R94). -/
abbrev CZ_CTRL : Nat := 0x2400
abbrev CZ_CTRL_VB_HIGH : Fld := ⟨40, 6⟩
abbrev CZ_CTRL_PID_EN : Fld := ⟨16, 16⟩
abbrev CZ_CTRL_EN_FOLD_E5M2 : Fld := ⟨5, 1⟩
abbrev CZ_CTRL_EN_FOLD_E4M3 : Fld := ⟨4, 1⟩
abbrev CZ_CTRL_EN_FOLD_BF16 : Fld := ⟨3, 1⟩
abbrev CZ_CTRL_EN_BDELTA : Fld := ⟨2, 1⟩
abbrev CZ_CTRL_EN_CONST : Fld := ⟨1, 1⟩
abbrev CZ_CTRL_EN_ZERO : Fld := ⟨0, 1⟩
/-- CZ_OCC (R94). -/
abbrev CZ_OCC : Nat := 0x2408
abbrev CZ_OCC_VB : Fld := ⟨51, 6⟩
abbrev CZ_OCC_QUAD : Fld := ⟨34, 17⟩
abbrev CZ_OCC_PAIR : Fld := ⟨17, 17⟩
abbrev CZ_OCC_RAW : Fld := ⟨0, 17⟩
/-- CZ_MAINT_CTRL (R94). -/
abbrev CZ_MAINT_CTRL : Nat := 0x2410
abbrev CZ_MAINT_CTRL_PID : Fld := ⟨8, 4⟩
abbrev CZ_MAINT_CTRL_IRQ_EN : Fld := ⟨6, 1⟩
abbrev CZ_MAINT_CTRL_SCOPE : Fld := ⟨4, 2⟩
abbrev CZ_MAINT_CTRL_OP : Fld := ⟨1, 2⟩
abbrev CZ_MAINT_CTRL_START : Fld := ⟨0, 1⟩
/-- CZ_MAINT_RANGE (R94). -/
abbrev CZ_MAINT_RANGE : Nat := 0x2418
abbrev CZ_MAINT_RANGE_HI : Fld := ⟨27, 27⟩
abbrev CZ_MAINT_RANGE_LO : Fld := ⟨0, 27⟩
/-- CZ_MAINT_STATUS (R94). -/
abbrev CZ_MAINT_STATUS : Nat := 0x2420
abbrev CZ_MAINT_STATUS_DONE : Fld := ⟨63, 1⟩
abbrev CZ_MAINT_STATUS_BUSY : Fld := ⟨62, 1⟩
abbrev CZ_MAINT_STATUS_INVALIDATED : Fld := ⟨32, 19⟩
abbrev CZ_MAINT_STATUS_WRITTEN_BACK : Fld := ⟨0, 19⟩
/-- CZ_DROP_REF (R94). -/
abbrev CZ_DROP_REF : Nat := 0x2428
abbrev CZ_DROP_REF_VALID : Fld := ⟨63, 1⟩
abbrev CZ_DROP_REF_PID : Fld := ⟨48, 4⟩
abbrev CZ_DROP_REF_ADDR : Fld := ⟨0, 48⟩
/-- CZ_DROP_CNT (R94). -/
abbrev CZ_DROP_CNT : Nat := 0x2430
abbrev CZ_DROP_CNT_CLEAR : Fld := ⟨63, 1⟩
abbrev CZ_DROP_CNT_COUNT : Fld := ⟨0, 32⟩
/-- CZ_PIN_CTRL (R117). -/
abbrev CZ_PIN_CTRL : Nat := 0x2600
abbrev CZ_PIN_CTRL_FO_CREDIT_INIT : Fld := ⟨0, 3⟩
/-- CZ_CONFLICT (R117). -/
abbrev CZ_CONFLICT : Nat := 0x2608
abbrev CZ_CONFLICT_VALID : Fld := ⟨63, 1⟩
abbrev CZ_CONFLICT_CAUSE : Fld := ⟨56, 2⟩
abbrev CZ_CONFLICT_PID : Fld := ⟨52, 4⟩
abbrev CZ_CONFLICT_HALF : Fld := ⟨51, 1⟩
abbrev CZ_CONFLICT_BANK : Fld := ⟨48, 3⟩
abbrev CZ_CONFLICT_OFFSET : Fld := ⟨0, 23⟩
/-- CZ_CONFLICT_CNT (R117). -/
abbrev CZ_CONFLICT_CNT : Nat := 0x2610
abbrev CZ_CONFLICT_CNT_CLEAR : Fld := ⟨63, 1⟩
abbrev CZ_CONFLICT_CNT_COUNT : Fld := ⟨0, 32⟩
/-- CZ_DEADREAD (R117). -/
abbrev CZ_DEADREAD : Nat := 0x2618
abbrev CZ_DEADREAD_FLAG : Fld := ⟨0, 16⟩
/-- CZ_FO_CRED_SEL (R117). -/
abbrev CZ_FO_CRED_SEL : Nat := 0x2620
abbrev CZ_FO_CRED_SEL_CORE : Fld := ⟨0, 10⟩
/-- CZ_FO_CRED_VAL (R117). -/
abbrev CZ_FO_CRED_VAL : Nat := 0x2628
abbrev CZ_FO_CRED_VAL_COUNT : Fld := ⟨0, 3⟩
/-- CZ_FO_VIOL (R117). -/
abbrev CZ_FO_VIOL : Nat := 0x2630
abbrev CZ_FO_VIOL_CLEAR : Fld := ⟨63, 1⟩
abbrev CZ_FO_VIOL_COUNT : Fld := ⟨0, 32⟩
/-- CZ_FO_ACTIVE (R117). -/
abbrev CZ_FO_ACTIVE : Nat := 0x2638
abbrev CZ_FO_ACTIVE_BUSY : Fld := ⟨0, 16⟩
/-- CZ_DEAD_CNT (R117). -/
abbrev CZ_DEAD_CNT (i : Nat) : Nat := 0x2680 + i * 8
abbrev CZ_DEAD_CNT_CLEAR : Fld := ⟨63, 1⟩
abbrev CZ_DEAD_CNT_COUNT : Fld := ⟨0, 32⟩
/-- CZ_FO_CFG (R117). -/
abbrev CZ_FO_CFG (i : Nat) : Nat := 0x2700 + i * 16
abbrev CZ_FO_CFG_ABORT : Fld := ⟨63, 1⟩
abbrev CZ_FO_CFG_BUSY : Fld := ⟨62, 1⟩
abbrev CZ_FO_CFG_PENDING : Fld := ⟨32, 10⟩
abbrev CZ_FO_CFG_DROPPED : Fld := ⟨6, 10⟩
abbrev CZ_FO_CFG_VALID : Fld := ⟨5, 1⟩
abbrev CZ_FO_CFG_PID : Fld := ⟨0, 4⟩
/-- CZ_FO_TGT (R117). -/
abbrev CZ_FO_TGT (i : Nat) : Nat := 0x2708 + i * 16
abbrev CZ_FO_TGT_COL_MASK : Fld := ⟨32, 32⟩
abbrev CZ_FO_TGT_ROW_MASK : Fld := ⟨0, 32⟩
/-- BW_CTRL (R284). -/
abbrev BW_CTRL : Nat := 0x2800
abbrev BW_CTRL_OVERSUB_IRQ_EN : Fld := ⟨1, 1⟩
abbrev BW_CTRL_REG_EN : Fld := ⟨0, 1⟩
/-- BW_STATUS (R284). -/
abbrev BW_STATUS : Nat := 0x2808
abbrev BW_STATUS_MIN_SUM : Fld := ⟨32, 9⟩
abbrev BW_STATUS_REFUSED : Fld := ⟨2, 1⟩
abbrev BW_STATUS_OVERSUB_H1 : Fld := ⟨1, 1⟩
abbrev BW_STATUS_OVERSUB_H0 : Fld := ⟨0, 1⟩
/-- BW_MEM (R284). -/
abbrev BW_MEM : Nat := 0x2810
abbrev BW_MEM_LINES : Fld := ⟨0, 9⟩
/-- BW_SHORT (R284). -/
abbrev BW_SHORT : Nat := 0x2818
abbrev BW_SHORT_CLEAR : Fld := ⟨63, 1⟩
abbrev BW_SHORT_WINDOWS : Fld := ⟨48, 15⟩
abbrev BW_SHORT_SHORTFALL : Fld := ⟨0, 48⟩
/-- BW_SCALE (R284). -/
abbrev BW_SCALE : Nat := 0x2820
abbrev BW_SCALE_H1_D : Fld := ⟨27, 9⟩
abbrev BW_SCALE_H1_G : Fld := ⟨18, 9⟩
abbrev BW_SCALE_H0_D : Fld := ⟨9, 9⟩
abbrev BW_SCALE_H0_G : Fld := ⟨0, 9⟩
/-- BW_CLASSMAP (R284). -/
abbrev BW_CLASSMAP (i : Nat) : Nat := 0x2840 + i * 8
abbrev BW_CLASSMAP_VALID : Fld := ⟨63, 1⟩
abbrev BW_CLASSMAP_CLASS : Fld := ⟨56, 3⟩
abbrev BW_CLASSMAP_NODE_HI : Fld := ⟨11, 11⟩
abbrev BW_CLASSMAP_NODE_LO : Fld := ⟨0, 11⟩
/-- BW_MIN (R284). -/
abbrev BW_MIN (i : Nat) : Nat := 0x2880 + i * 8
abbrev BW_MIN_MIN7 : Fld := ⟨56, 8⟩
abbrev BW_MIN_MIN6 : Fld := ⟨48, 8⟩
abbrev BW_MIN_MIN5 : Fld := ⟨40, 8⟩
abbrev BW_MIN_MIN4 : Fld := ⟨32, 8⟩
abbrev BW_MIN_MIN3 : Fld := ⟨24, 8⟩
abbrev BW_MIN_MIN2 : Fld := ⟨16, 8⟩
abbrev BW_MIN_MIN1 : Fld := ⟨8, 8⟩
abbrev BW_MIN_MIN0 : Fld := ⟨0, 8⟩
/-- BW_WT (R284). -/
abbrev BW_WT (i : Nat) : Nat := 0x28A0 + i * 8
abbrev BW_WT_WT15 : Fld := ⟨60, 4⟩
abbrev BW_WT_WT14 : Fld := ⟨56, 4⟩
abbrev BW_WT_WT13 : Fld := ⟨52, 4⟩
abbrev BW_WT_WT12 : Fld := ⟨48, 4⟩
abbrev BW_WT_WT11 : Fld := ⟨44, 4⟩
abbrev BW_WT_WT10 : Fld := ⟨40, 4⟩
abbrev BW_WT_WT9 : Fld := ⟨36, 4⟩
abbrev BW_WT_WT8 : Fld := ⟨32, 4⟩
abbrev BW_WT_WT7 : Fld := ⟨28, 4⟩
abbrev BW_WT_WT6 : Fld := ⟨24, 4⟩
abbrev BW_WT_WT5 : Fld := ⟨20, 4⟩
abbrev BW_WT_WT4 : Fld := ⟨16, 4⟩
abbrev BW_WT_WT3 : Fld := ⟨12, 4⟩
abbrev BW_WT_WT2 : Fld := ⟨8, 4⟩
abbrev BW_WT_WT1 : Fld := ⟨4, 4⟩
abbrev BW_WT_WT0 : Fld := ⟨0, 4⟩
/-- BW_PLIM (R284). -/
abbrev BW_PLIM (i : Nat) : Nat := 0x2900 + i * 8
abbrev BW_PLIM_FB_MAX : Fld := ⟨8, 6⟩
abbrev BW_PLIM_HQ_MAX : Fld := ⟨0, 6⟩
/-- BW_EGR_CNT (R284). -/
abbrev BW_EGR_CNT (i : Nat) : Nat := 0x2C00 + i * 8
abbrev BW_EGR_CNT_CLEAR : Fld := ⟨63, 1⟩
abbrev BW_EGR_CNT_COUNT : Fld := ⟨0, 48⟩
/-- BW_FILL_CNT (R284). -/
abbrev BW_FILL_CNT (i : Nat) : Nat := 0x2D00 + i * 8
abbrev BW_FILL_CNT_CLEAR : Fld := ⟨63, 1⟩
abbrev BW_FILL_CNT_COUNT : Fld := ⟨0, 48⟩
/-- PG_CTRL (R307). -/
abbrev PG_CTRL : Nat := 0x3000
abbrev PG_CTRL_T_LIMIT : Fld := ⟨56, 8⟩
abbrev PG_CTRL_T_HYST : Fld := ⟨52, 4⟩
abbrev PG_CTRL_REL_PCT : Fld := ⟨44, 8⟩
abbrev PG_CTRL_REL_HOLD : Fld := ⟨40, 4⟩
abbrev PG_CTRL_FF_PCT : Fld := ⟨32, 8⟩
abbrev PG_CTRL_BOOST_PCT : Fld := ⟨24, 8⟩
abbrev PG_CTRL_BOOST_HOLD : Fld := ⟨20, 4⟩
abbrev PG_CTRL_FAILSAFE_LEVEL : Fld := ⟨16, 4⟩
abbrev PG_CTRL_TEL_MISS_MAX : Fld := ⟨12, 4⟩
abbrev PG_CTRL_APPLY_OFF : Fld := ⟨4, 8⟩
abbrev PG_CTRL_LOG_IRQ_EN : Fld := ⟨3, 1⟩
abbrev PG_CTRL_BOOST_EN : Fld := ⟨2, 1⟩
abbrev PG_CTRL_FIXED_FREQ : Fld := ⟨1, 1⟩
abbrev PG_CTRL_GOV_EN : Fld := ⟨0, 1⟩
/-- PG_STATUS (R307). -/
abbrev PG_STATUS : Nat := 0x3008
abbrev PG_STATUS_TEMP : Fld := ⟨16, 8⟩
abbrev PG_STATUS_L_FF : Fld := ⟨12, 4⟩
abbrev PG_STATUS_L_TH : Fld := ⟨8, 4⟩
abbrev PG_STATUS_L_FB : Fld := ⟨4, 4⟩
abbrev PG_STATUS_BOOST : Fld := ⟨1, 1⟩
abbrev PG_STATUS_TEL_FAIL : Fld := ⟨0, 1⟩
/-- PG_TEL_CNT (R307). -/
abbrev PG_TEL_CNT : Nat := 0x3010
abbrev PG_TEL_CNT_CLEAR : Fld := ⟨63, 1⟩
abbrev PG_TEL_CNT_BAD : Fld := ⟨32, 31⟩
abbrev PG_TEL_CNT_GOOD : Fld := ⟨0, 32⟩
/-- PG_DROOP (R307). -/
abbrev PG_DROOP : Nat := 0x3018
abbrev PG_DROOP_COUNT : Fld := ⟨32, 32⟩
abbrev PG_DROOP_HOLD : Fld := ⟨16, 16⟩
abbrev PG_DROOP_LEVEL : Fld := ⟨8, 4⟩
abbrev PG_DROOP_THRESH : Fld := ⟨0, 4⟩
/-- PG_LEVEL (R307). -/
abbrev PG_LEVEL : Nat := 0x3020
abbrev PG_LEVEL_LEVELS : Fld := ⟨0, 64⟩
/-- PG_PHASE_HINT (R307). -/
abbrev PG_PHASE_HINT : Nat := 0x3028
abbrev PG_PHASE_HINT_PID : Fld := ⟨16, 4⟩
abbrev PG_PHASE_HINT_PHASE : Fld := ⟨0, 16⟩
/-- PG_ACT_WT (R307). -/
abbrev PG_ACT_WT : Nat := 0x3030
abbrev PG_ACT_WT_W_MEM : Fld := ⟨32, 8⟩
abbrev PG_ACT_WT_W_EGR : Fld := ⟨24, 8⟩
abbrev PG_ACT_WT_W_GRANT_S : Fld := ⟨16, 8⟩
abbrev PG_ACT_WT_W_GRANT_L : Fld := ⟨8, 8⟩
abbrev PG_ACT_WT_W_MACT : Fld := ⟨0, 8⟩
/-- PG_CORES (R307). -/
abbrev PG_CORES : Nat := 0x3038
abbrev PG_CORES_CORE_HI : Fld := ⟨16, 10⟩
abbrev PG_CORES_CORE_LO : Fld := ⟨0, 10⟩
/-- PG_CORE_REG (R307). -/
abbrev PG_CORE_REG : Nat := 0x3040
abbrev PG_CORE_REG_ADDR : Fld := ⟨3, 45⟩
/-- PG_ACT_REPORT (R307). -/
abbrev PG_ACT_REPORT : Nat := 0x3048
abbrev PG_ACT_REPORT_PID : Fld := ⟨16, 4⟩
abbrev PG_ACT_REPORT_MACT : Fld := ⟨0, 16⟩
/-- PG_RAIL_CFG (R307). -/
abbrev PG_RAIL_CFG (i : Nat) : Nat := 0x3080 + i * 8
abbrev PG_RAIL_CFG_VALID : Fld := ⟨63, 1⟩
abbrev PG_RAIL_CFG_KIND : Fld := ⟨61, 2⟩
abbrev PG_RAIL_CFG_I_IDLE : Fld := ⟨32, 16⟩
abbrev PG_RAIL_CFG_I_PEAK : Fld := ⟨16, 16⟩
abbrev PG_RAIL_CFG_I_LIMIT : Fld := ⟨0, 16⟩
/-- PG_RAIL_MEAS (R307). -/
abbrev PG_RAIL_MEAS (i : Nat) : Nat := 0x30C0 + i * 8
abbrev PG_RAIL_MEAS_SEQ : Fld := ⟨52, 12⟩
abbrev PG_RAIL_MEAS_IPEAK : Fld := ⟨36, 16⟩
abbrev PG_RAIL_MEAS_VOLT : Fld := ⟨24, 12⟩
abbrev PG_RAIL_MEAS_CURRENT : Fld := ⟨8, 16⟩
/-- PG_GROUP (R307). -/
abbrev PG_GROUP (i : Nat) : Nat := 0x3100 + i * 16
abbrev PG_GROUP_VALID : Fld := ⟨63, 1⟩
abbrev PG_GROUP_PID : Fld := ⟨56, 4⟩
abbrev PG_GROUP_GLEAD : Fld := ⟨48, 8⟩
abbrev PG_GROUP_GPERIOD : Fld := ⟨32, 16⟩
abbrev PG_GROUP_HOSTS : Fld := ⟨0, 16⟩
/-- PG_GSTAT (R307). -/
abbrev PG_GSTAT (i : Nat) : Nat := 0x3108 + i * 16
abbrev PG_GSTAT_CLEAR : Fld := ⟨63, 1⟩
abbrev PG_GSTAT_LOST : Fld := ⟨62, 1⟩
abbrev PG_GSTAT_L_GRP : Fld := ⟨58, 4⟩
abbrev PG_GSTAT_MISS : Fld := ⟨48, 10⟩
abbrev PG_GSTAT_STRAGGLE : Fld := ⟨24, 24⟩
abbrev PG_GSTAT_CLAMP : Fld := ⟨0, 24⟩
/-- PG_PH_SEL (R307). -/
abbrev PG_PH_SEL : Nat := 0x3140
abbrev PG_PH_SEL_ENTRY : Fld := ⟨0, 6⟩
/-- PG_PH_VIEW0 (R307). -/
abbrev PG_PH_VIEW0 : Nat := 0x3148
abbrev PG_PH_VIEW0_VALID : Fld := ⟨63, 1⟩
abbrev PG_PH_VIEW0_ANY : Fld := ⟨62, 1⟩
abbrev PG_PH_VIEW0_PID : Fld := ⟨32, 4⟩
abbrev PG_PH_VIEW0_PHASE : Fld := ⟨16, 16⟩
abbrev PG_PH_VIEW0_SAMPLES : Fld := ⟨0, 16⟩
/-- PG_PH_VIEW1 (R307). -/
abbrev PG_PH_VIEW1 : Nat := 0x3150
abbrev PG_PH_VIEW1_LAST_USE : Fld := ⟨48, 16⟩
abbrev PG_PH_VIEW1_D_MEM : Fld := ⟨32, 16⟩
abbrev PG_PH_VIEW1_D_SRAM : Fld := ⟨16, 16⟩
abbrev PG_PH_VIEW1_D_LOGIC : Fld := ⟨0, 16⟩
/-- PG_ENERGY (R307). -/
abbrev PG_ENERGY (i : Nat) : Nat := 0x3200 + i * 8
abbrev PG_ENERGY_CLEAR : Fld := ⟨63, 1⟩
abbrev PG_ENERGY_UJ : Fld := ⟨0, 48⟩
/-- PG_ENERGY_UNATTR (R307). -/
abbrev PG_ENERGY_UNATTR : Nat := 0x3280
abbrev PG_ENERGY_UNATTR_CLEAR : Fld := ⟨63, 1⟩
abbrev PG_ENERGY_UNATTR_UJ : Fld := ⟨0, 48⟩
/-- PG_LOG_SEL (R307). -/
abbrev PG_LOG_SEL : Nat := 0x3300
abbrev PG_LOG_SEL_ENTRY : Fld := ⟨0, 5⟩
/-- PG_LOG0 (R307). -/
abbrev PG_LOG0 : Nat := 0x3308
abbrev PG_LOG0_WORD : Fld := ⟨0, 64⟩
/-- PG_LOG1 (R307). -/
abbrev PG_LOG1 : Nat := 0x3310
abbrev PG_LOG1_WORD : Fld := ⟨0, 64⟩
/-- PG_LOG_STATUS (R307). -/
abbrev PG_LOG_STATUS : Nat := 0x3318
abbrev PG_LOG_STATUS_OVF : Fld := ⟨63, 1⟩
abbrev PG_LOG_STATUS_COUNT : Fld := ⟨8, 6⟩
abbrev PG_LOG_STATUS_HEAD : Fld := ⟨0, 5⟩
/-- AG_CTRL (R324). -/
abbrev AG_CTRL : Nat := 0x3800
abbrev AG_CTRL_IDLE_RET : Fld := ⟨48, 16⟩
abbrev AG_CTRL_IDLE_OFF : Fld := ⟨24, 24⟩
abbrev AG_CTRL_PERIOD : Fld := ⟨8, 16⟩
abbrev AG_CTRL_PLAN_IRQ_EN : Fld := ⟨3, 1⟩
abbrev AG_CTRL_MEAS_EN : Fld := ⟨2, 1⟩
abbrev AG_CTRL_OFF_EN : Fld := ⟨1, 1⟩
abbrev AG_CTRL_GATE_EN : Fld := ⟨0, 1⟩
/-- AG_PSTATE (R324). -/
abbrev AG_PSTATE : Nat := 0x3808
abbrev AG_PSTATE_OFF_HELD_H1 : Fld := ⟨13, 1⟩
abbrev AG_PSTATE_OFF_HELD_H0 : Fld := ⟨12, 1⟩
abbrev AG_PSTATE_FLUSH_H1 : Fld := ⟨11, 1⟩
abbrev AG_PSTATE_FLUSH_H0 : Fld := ⟨10, 1⟩
abbrev AG_PSTATE_HELD : Fld := ⟨9, 1⟩
abbrev AG_PSTATE_H1_STATE : Fld := ⟨2, 2⟩
abbrev AG_PSTATE_H0_STATE : Fld := ⟨0, 2⟩
/-- AG_WAKE_CNT (R324). -/
abbrev AG_WAKE_CNT : Nat := 0x3810
abbrev AG_WAKE_CNT_CLEAR : Fld := ⟨63, 1⟩
abbrev AG_WAKE_CNT_H1 : Fld := ⟨32, 31⟩
abbrev AG_WAKE_CNT_H0 : Fld := ⟨0, 31⟩
/-- AG_MON_SEL (R324). -/
abbrev AG_MON_SEL : Nat := 0x3818
abbrev AG_MON_SEL_MON : Fld := ⟨0, 3⟩
/-- AG_MON_VIEW (R324). -/
abbrev AG_MON_VIEW : Nat := 0x3820
abbrev AG_MON_VIEW_SLOW : Fld := ⟨56, 8⟩
abbrev AG_MON_VIEW_RATIO : Fld := ⟨40, 16⟩
abbrev AG_MON_VIEW_BASE : Fld := ⟨24, 16⟩
abbrev AG_MON_VIEW_COUNT : Fld := ⟨0, 24⟩
/-- AG_MEAS_STATUS (R324). -/
abbrev AG_MEAS_STATUS : Nat := 0x3828
abbrev AG_MEAS_STATUS_VALID : Fld := ⟨63, 1⟩
abbrev AG_MEAS_STATUS_PROV : Fld := ⟨62, 1⟩
abbrev AG_MEAS_STATUS_FULL_EXISTS : Fld := ⟨61, 1⟩
abbrev AG_MEAS_STATUS_ACT : Fld := ⟨48, 8⟩
abbrev AG_MEAS_STATUS_SKIPPED : Fld := ⟨16, 16⟩
abbrev AG_MEAS_STATUS_SETS : Fld := ⟨0, 16⟩
/-- AG_MEAS_TICK (R324). -/
abbrev AG_MEAS_TICK : Nat := 0x3830
abbrev AG_MEAS_TICK_TICK : Fld := ⟨0, 64⟩
/-- AG_ASSIST_THR (R324). -/
abbrev AG_ASSIST_THR : Nat := 0x3838
abbrev AG_ASSIST_THR_T7 : Fld := ⟨48, 8⟩
abbrev AG_ASSIST_THR_T6 : Fld := ⟨40, 8⟩
abbrev AG_ASSIST_THR_T5 : Fld := ⟨32, 8⟩
abbrev AG_ASSIST_THR_T4 : Fld := ⟨24, 8⟩
abbrev AG_ASSIST_THR_T3 : Fld := ⟨16, 8⟩
abbrev AG_ASSIST_THR_T2 : Fld := ⟨8, 8⟩
abbrev AG_ASSIST_THR_T1 : Fld := ⟨0, 8⟩
/-- AG_VSTEP (R324). -/
abbrev AG_VSTEP : Nat := 0x3840
abbrev AG_VSTEP_VMAX : Fld := ⟨8, 4⟩
abbrev AG_VSTEP_PER_STEP : Fld := ⟨0, 8⟩
/-- AG_PLAN (R324). -/
abbrev AG_PLAN : Nat := 0x3848
abbrev AG_PLAN_GROUP_VOFF : Fld := ⟨48, 4⟩
abbrev AG_PLAN_GUARD : Fld := ⟨40, 1⟩
abbrev AG_PLAN_VOFF : Fld := ⟨36, 4⟩
abbrev AG_PLAN_VOFF_BASE : Fld := ⟨32, 4⟩
abbrev AG_PLAN_APPLIED_H1 : Fld := ⟨12, 3⟩
abbrev AG_PLAN_APPLIED_H0 : Fld := ⟨8, 3⟩
abbrev AG_PLAN_ASSIST : Fld := ⟨4, 3⟩
abbrev AG_PLAN_ASSIST_BASE : Fld := ⟨0, 3⟩
/-- AG_REC_CTRL (R324). -/
abbrev AG_REC_CTRL : Nat := 0x3850
abbrev AG_REC_CTRL_WRITE : Fld := ⟨63, 1⟩
abbrev AG_REC_CTRL_BUSY : Fld := ⟨62, 1⟩
abbrev AG_REC_CTRL_DONE : Fld := ⟨61, 1⟩
abbrev AG_REC_CTRL_RESULT : Fld := ⟨58, 3⟩
abbrev AG_REC_CTRL_BANK : Fld := ⟨56, 1⟩
abbrev AG_REC_CTRL_SOURCE : Fld := ⟨54, 2⟩
abbrev AG_REC_CTRL_SEQ : Fld := ⟨0, 32⟩
/-- AG_POH (R324). -/
abbrev AG_POH : Nat := 0x3858
abbrev AG_POH_LAST_WRITE : Fld := ⟨32, 32⟩
abbrev AG_POH_NOW : Fld := ⟨0, 32⟩
/-- EC_CTRL (R343). -/
abbrev EC_CTRL : Nat := 0x4000
abbrev EC_CTRL_LOG_VIOL : Fld := ⟨5, 1⟩
abbrev EC_CTRL_VIOL_IRQ_EN : Fld := ⟨4, 1⟩
abbrev EC_CTRL_RT_IRQ_EN : Fld := ⟨3, 1⟩
abbrev EC_CTRL_CE_IRQ_EN : Fld := ⟨2, 1⟩
abbrev EC_CTRL_UE_IRQ_EN : Fld := ⟨1, 1⟩
abbrev EC_CTRL_REPAIR_EN : Fld := ⟨0, 1⟩
/-- EC_STATUS (R343). -/
abbrev EC_STATUS : Nat := 0x4008
abbrev EC_STATUS_VB_LOST : Fld := ⟨8, 8⟩
abbrev EC_STATUS_MEM_ERR : Fld := ⟨6, 1⟩
abbrev EC_STATUS_KINDLE_ERR : Fld := ⟨5, 1⟩
abbrev EC_STATUS_VIOL : Fld := ⟨4, 1⟩
abbrev EC_STATUS_RT_FULL : Fld := ⟨3, 1⟩
abbrev EC_STATUS_TAG_LOST : Fld := ⟨2, 1⟩
abbrev EC_STATUS_CE_STORM : Fld := ⟨1, 1⟩
abbrev EC_STATUS_UE : Fld := ⟨0, 1⟩
/-- EC_BUCKET (R343). -/
abbrev EC_BUCKET : Nat := 0x4010
abbrev EC_BUCKET_LEAK_SHIFT : Fld := ⟨32, 6⟩
abbrev EC_BUCKET_CAP : Fld := ⟨16, 16⟩
abbrev EC_BUCKET_LEVEL : Fld := ⟨0, 16⟩
/-- EC_CNT (R343). -/
abbrev EC_CNT : Nat := 0x4018
abbrev EC_CNT_CLEAR : Fld := ⟨63, 1⟩
abbrev EC_CNT_UE : Fld := ⟨32, 31⟩
abbrev EC_CNT_CE : Fld := ⟨0, 32⟩
/-- EC_LOG_SEL (R343). -/
abbrev EC_LOG_SEL : Nat := 0x4020
abbrev EC_LOG_SEL_ENTRY : Fld := ⟨0, 4⟩
/-- EC_LOG0 (R343). -/
abbrev EC_LOG0 : Nat := 0x4028
abbrev EC_LOG0_WORD : Fld := ⟨0, 64⟩
/-- EC_LOG1 (R343). -/
abbrev EC_LOG1 : Nat := 0x4030
abbrev EC_LOG1_WORD : Fld := ⟨0, 64⟩
/-- EC_LOG2 (R343). -/
abbrev EC_LOG2 : Nat := 0x4038
abbrev EC_LOG2_WORD : Fld := ⟨0, 64⟩
/-- EC_LOG_STATUS (R343). -/
abbrev EC_LOG_STATUS : Nat := 0x4040
abbrev EC_LOG_STATUS_OVF : Fld := ⟨63, 1⟩
abbrev EC_LOG_STATUS_COUNT : Fld := ⟨8, 5⟩
abbrev EC_LOG_STATUS_HEAD : Fld := ⟨0, 4⟩
/-- EC_FLIP_CTRL (R343). -/
abbrev EC_FLIP_CTRL : Nat := 0x4048
abbrev EC_FLIP_CTRL_ARM : Fld := ⟨63, 1⟩
abbrev EC_FLIP_CTRL_ARMED : Fld := ⟨62, 1⟩
abbrev EC_FLIP_CTRL_HIT : Fld := ⟨61, 1⟩
abbrev EC_FLIP_CTRL_CHECK : Fld := ⟨40, 8⟩
abbrev EC_FLIP_CTRL_ARRAY : Fld := ⟨16, 3⟩
abbrev EC_FLIP_CTRL_HALF : Fld := ⟨12, 1⟩
abbrev EC_FLIP_CTRL_BANK : Fld := ⟨8, 4⟩
abbrev EC_FLIP_CTRL_WORD : Fld := ⟨0, 4⟩
/-- EC_FLIP_DATA (R343). -/
abbrev EC_FLIP_DATA : Nat := 0x4050
abbrev EC_FLIP_DATA_MASK : Fld := ⟨0, 64⟩
/-- EC_PATROL (R343). -/
abbrev EC_PATROL : Nat := 0x4058
abbrev EC_PATROL_EN : Fld := ⟨63, 1⟩
abbrev EC_PATROL_BATCH : Fld := ⟨16, 13⟩
abbrev EC_PATROL_INTERVAL : Fld := ⟨0, 16⟩
/-- EC_PATROL_STATUS (R343). -/
abbrev EC_PATROL_STATUS : Nat := 0x4060
abbrev EC_PATROL_STATUS_SUSPENDED : Fld := ⟨63, 1⟩
abbrev EC_PATROL_STATUS_PASSES : Fld := ⟨48, 15⟩
abbrev EC_PATROL_STATUS_DEFER_H1 : Fld := ⟨32, 13⟩
abbrev EC_PATROL_STATUS_DEFER_H0 : Fld := ⟨16, 13⟩
abbrev EC_PATROL_STATUS_STEP : Fld := ⟨0, 12⟩
/-- EC_REPAIR (R343). -/
abbrev EC_REPAIR : Nat := 0x4068
abbrev EC_REPAIR_CLEAR : Fld := ⟨63, 1⟩
abbrev EC_REPAIR_DROPPED : Fld := ⟨32, 31⟩
abbrev EC_REPAIR_OCC_H1 : Fld := ⟨4, 4⟩
abbrev EC_REPAIR_OCC_H0 : Fld := ⟨0, 4⟩
/-- EC_SPARE (R343). -/
abbrev EC_SPARE : Nat := 0x4070
abbrev EC_SPARE_REFUSED : Fld := ⟨19, 1⟩
abbrev EC_SPARE_DONE : Fld := ⟨18, 1⟩
abbrev EC_SPARE_BUSY : Fld := ⟨17, 1⟩
abbrev EC_SPARE_H1_VALID : Fld := ⟨11, 1⟩
abbrev EC_SPARE_H1_BANK : Fld := ⟨8, 3⟩
abbrev EC_SPARE_H0_VALID : Fld := ⟨3, 1⟩
abbrev EC_SPARE_H0_BANK : Fld := ⟨0, 3⟩
/-- EC_BANK_CNT (R343). -/
abbrev EC_BANK_CNT (i : Nat) : Nat := 0x4100 + i * 8
abbrev EC_BANK_CNT_CLEAR : Fld := ⟨63, 1⟩
abbrev EC_BANK_CNT_UE : Fld := ⟨32, 16⟩
abbrev EC_BANK_CNT_CE : Fld := ⟨0, 32⟩
/-- EC_RT (R343). -/
abbrev EC_RT (i : Nat) : Nat := 0x4200 + i * 8
abbrev EC_RT_VALID : Fld := ⟨63, 1⟩
abbrev EC_RT_STATE : Fld := ⟨62, 1⟩
abbrev EC_RT_LOST : Fld := ⟨61, 1⟩
abbrev EC_RT_BUSY : Fld := ⟨60, 1⟩
abbrev EC_RT_HALF : Fld := ⟨16, 1⟩
abbrev EC_RT_BANK : Fld := ⟨12, 4⟩
abbrev EC_RT_ROW : Fld := ⟨4, 8⟩
abbrev EC_RT_WAY : Fld := ⟨0, 4⟩
/-- PC_CTRL (R398). -/
abbrev PC_CTRL : Nat := 0x4800
abbrev PC_CTRL_EN : Fld := ⟨0, 1⟩
/-- PC_OVF (R398). -/
abbrev PC_OVF : Nat := 0x4808
abbrev PC_OVF_OVF : Fld := ⟨0, 32⟩
/-- PC_CFG (R398). -/
abbrev PC_CFG (i : Nat) : Nat := 0x4900 + i * 8
abbrev PC_CFG_IRQ_EN : Fld := ⟨28, 1⟩
abbrev PC_CFG_OWNER : Fld := ⟨24, 4⟩
abbrev PC_CFG_HALF : Fld := ⟨20, 2⟩
abbrev PC_CFG_PID_EN : Fld := ⟨16, 1⟩
abbrev PC_CFG_PID : Fld := ⟨12, 4⟩
abbrev PC_CFG_ENABLE : Fld := ⟨8, 1⟩
abbrev PC_CFG_EVENT : Fld := ⟨0, 8⟩
/-- PC_VAL (R398). -/
abbrev PC_VAL (i : Nat) : Nat := 0x4A00 + i * 8
abbrev PC_VAL_STAMP : Fld := ⟨48, 16⟩
abbrev PC_VAL_VALUE : Fld := ⟨0, 48⟩
/-- PC_RELOAD (R398). -/
abbrev PC_RELOAD (i : Nat) : Nat := 0x4B00 + i * 8
abbrev PC_RELOAD_RELOAD : Fld := ⟨0, 48⟩
/-- PC_SMP0 (R398). -/
abbrev PC_SMP0 (i : Nat) : Nat := 0x4B80 + i * 32
abbrev PC_SMP0_PIN : Fld := ⟨48, 1⟩
abbrev PC_SMP0_ADDR : Fld := ⟨0, 48⟩
/-- PC_SMP1 (R398). -/
abbrev PC_SMP1 (i : Nat) : Nat := 0x4B88 + i * 32
abbrev PC_SMP1_VALID : Fld := ⟨63, 1⟩
abbrev PC_SMP1_LOST : Fld := ⟨62, 1⟩
abbrev PC_SMP1_EVENT : Fld := ⟨48, 8⟩
abbrev PC_SMP1_CLASS : Fld := ⟨13, 2⟩
abbrev PC_SMP1_OPCODE : Fld := ⟨7, 6⟩
abbrev PC_SMP1_PORT : Fld := ⟨4, 3⟩
abbrev PC_SMP1_PID : Fld := ⟨0, 4⟩
/-- PC_SMP2 (R398). -/
abbrev PC_SMP2 (i : Nat) : Nat := 0x4B90 + i * 32
abbrev PC_SMP2_TICK : Fld := ⟨0, 64⟩
/-- EP_CTRL (R272). -/
abbrev EP_CTRL : Nat := 0x5000
abbrev EP_CTRL_SHELF_WAYS : Fld := ⟨0, 2⟩
/-- EP_SHELF (R272). -/
abbrev EP_SHELF : Nat := 0x5008
abbrev EP_SHELF_BUSY : Fld := ⟨63, 1⟩
abbrev EP_SHELF_REFUSED : Fld := ⟨62, 1⟩
abbrev EP_SHELF_OCC : Fld := ⟨0, 14⟩
/-- EP_PCTRL (R272). -/
abbrev EP_PCTRL (i : Nat) : Nat := 0x5400 + i * 64
abbrev EP_PCTRL_LEDGER_IRQ_EN : Fld := ⟨11, 1⟩
abbrev EP_PCTRL_FAULT_IRQ_EN : Fld := ⟨10, 1⟩
abbrev EP_PCTRL_DONE_IRQ_EN : Fld := ⟨9, 1⟩
abbrev EP_PCTRL_EN : Fld := ⟨8, 1⟩
abbrev EP_PCTRL_ABORT : Fld := ⟨3, 1⟩
abbrev EP_PCTRL_RELEASE : Fld := ⟨2, 1⟩
abbrev EP_PCTRL_CANCEL : Fld := ⟨1, 1⟩
abbrev EP_PCTRL_ARM : Fld := ⟨0, 1⟩
/-- EP_PCLOSE (R272). -/
abbrev EP_PCLOSE (i : Nat) : Nat := 0x5408 + i * 64
abbrev EP_PCLOSE_TICK : Fld := ⟨0, 64⟩
/-- EP_PDRAIN (R272). -/
abbrev EP_PDRAIN (i : Nat) : Nat := 0x5410 + i * 64
abbrev EP_PDRAIN_BASE : Fld := ⟨21, 27⟩
abbrev EP_PDRAIN_SIZE : Fld := ⟨0, 8⟩
/-- EP_PSTATUS (R272). -/
abbrev EP_PSTATUS (i : Nat) : Nat := 0x5418 + i * 64
abbrev EP_PSTATUS_DONE : Fld := ⟨63, 1⟩
abbrev EP_PSTATUS_SKIP : Fld := ⟨62, 1⟩
abbrev EP_PSTATUS_SKIP_CAUSE : Fld := ⟨60, 2⟩
abbrev EP_PSTATUS_LATE : Fld := ⟨59, 1⟩
abbrev EP_PSTATUS_AREA_FULL : Fld := ⟨58, 1⟩
abbrev EP_PSTATUS_DRAIN_ERR : Fld := ⟨57, 1⟩
abbrev EP_PSTATUS_ARMED : Fld := ⟨15, 1⟩
abbrev EP_PSTATUS_HARVEST : Fld := ⟨14, 1⟩
abbrev EP_PSTATUS_QUIET : Fld := ⟨13, 1⟩
abbrev EP_PSTATUS_LEDGER_DONE : Fld := ⟨12, 1⟩
abbrev EP_PSTATUS_FROZEN_DONE : Fld := ⟨11, 1⟩
abbrev EP_PSTATUS_OPEN_BANK : Fld := ⟨10, 1⟩
abbrev EP_PSTATUS_PAR : Fld := ⟨9, 1⟩
abbrev EP_PSTATUS_PHASE : Fld := ⟨0, 3⟩
/-- EP_PREC0 (R272). -/
abbrev EP_PREC0 (i : Nat) : Nat := 0x5420 + i * 64
abbrev EP_PREC0_CLOSE_TICK : Fld := ⟨0, 64⟩
/-- EP_PREC1 (R272). -/
abbrev EP_PREC1 (i : Nat) : Nat := 0x5428 + i * 64
abbrev EP_PREC1_EPOCH : Fld := ⟨48, 16⟩
abbrev EP_PREC1_RECORDS : Fld := ⟨0, 32⟩
/-- EP_PCNT (R272). -/
abbrev EP_PCNT (i : Nat) : Nat := 0x5430 + i * 64
abbrev EP_PCNT_CLEAR : Fld := ⟨63, 1⟩
abbrev EP_PCNT_STALLS : Fld := ⟨32, 31⟩
abbrev EP_PCNT_CAPTURES : Fld := ⟨0, 32⟩
/-- DG_DET_CTRL (R248). -/
abbrev DG_DET_CTRL : Nat := 0x5800
abbrev DG_DET_CTRL_TEVT_IRQ_EN : Fld := ⟨2, 1⟩
abbrev DG_DET_CTRL_PATROL_IN_DET : Fld := ⟨1, 1⟩
abbrev DG_DET_CTRL_SEAM_ASYNC : Fld := ⟨0, 1⟩
/-- DG_DET_STATUS (R248). -/
abbrev DG_DET_STATUS : Nat := 0x5808
abbrev DG_DET_STATUS_XING_ASYNC : Fld := ⟨8, 4⟩
abbrev DG_DET_STATUS_XING_ALIGNED : Fld := ⟨4, 4⟩
abbrev DG_DET_STATUS_FIXED_FREQ : Fld := ⟨3, 1⟩
abbrev DG_DET_STATUS_LAUNCH_LATE : Fld := ⟨2, 1⟩
abbrev DG_DET_STATUS_ALIGN_DONE : Fld := ⟨1, 1⟩
abbrev DG_DET_STATUS_DET_TIMING : Fld := ⟨0, 1⟩
/-- DG_TEVT (R248). -/
abbrev DG_TEVT : Nat := 0x5810
abbrev DG_TEVT_XING : Fld := ⟨8, 1⟩
abbrev DG_TEVT_LATE : Fld := ⟨7, 1⟩
abbrev DG_TEVT_RING : Fld := ⟨6, 1⟩
abbrev DG_TEVT_MAINT : Fld := ⟨5, 1⟩
abbrev DG_TEVT_SHELF : Fld := ⟨4, 1⟩
abbrev DG_TEVT_DROOP : Fld := ⟨3, 1⟩
abbrev DG_TEVT_DAMP : Fld := ⟨2, 1⟩
abbrev DG_TEVT_WAKE : Fld := ⟨1, 1⟩
abbrev DG_TEVT_FREQ : Fld := ⟨0, 1⟩
/-- DG_TEVT_CNT (R248). -/
abbrev DG_TEVT_CNT : Nat := 0x5818
abbrev DG_TEVT_CNT_CLEAR : Fld := ⟨63, 1⟩
abbrev DG_TEVT_CNT_COUNT : Fld := ⟨0, 32⟩
/-- DG_XING (R248). -/
abbrev DG_XING : Nat := 0x5820
abbrev DG_XING_TARGET : Fld := ⟨32, 4⟩
abbrev DG_XING_LAT_MP3 : Fld := ⟨12, 4⟩
abbrev DG_XING_LAT_MP2 : Fld := ⟨8, 4⟩
abbrev DG_XING_LAT_MP1 : Fld := ⟨4, 4⟩
abbrev DG_XING_LAT_MP0 : Fld := ⟨0, 4⟩
/-- DG_LAUNCH (R248). -/
abbrev DG_LAUNCH : Nat := 0x5828
abbrev DG_LAUNCH_ARM : Fld := ⟨63, 1⟩
abbrev DG_LAUNCH_CANCEL : Fld := ⟨62, 1⟩
abbrev DG_LAUNCH_ARMED : Fld := ⟨61, 1⟩
abbrev DG_LAUNCH_PID : Fld := ⟨48, 4⟩
abbrev DG_LAUNCH_CAPTURE : Fld := ⟨2, 1⟩
abbrev DG_LAUNCH_TIME_BASE : Fld := ⟨1, 1⟩
abbrev DG_LAUNCH_TEVT_CLEAR : Fld := ⟨0, 1⟩
/-- DG_LAUNCH_TICK (R248). -/
abbrev DG_LAUNCH_TICK : Nat := 0x5830
abbrev DG_LAUNCH_TICK_TICK : Fld := ⟨0, 64⟩
/-- DG_CAP_STATUS (R248). -/
abbrev DG_CAP_STATUS : Nat := 0x5838
abbrev DG_CAP_STATUS_DONE : Fld := ⟨63, 1⟩
abbrev DG_CAP_STATUS_BUSY : Fld := ⟨62, 1⟩
abbrev DG_CAP_STATUS_ERR : Fld := ⟨61, 1⟩
abbrev DG_CAP_STATUS_MISSED : Fld := ⟨60, 1⟩
abbrev DG_CAP_STATUS_LINES : Fld := ⟨0, 42⟩
/-- DG_REG_LO (R248). -/
abbrev DG_REG_LO (i : Nat) : Nat := 0x5A00 + i * 16
abbrev DG_REG_LO_VALID : Fld := ⟨63, 1⟩
abbrev DG_REG_LO_KIND : Fld := ⟨62, 1⟩
abbrev DG_REG_LO_FEED_FIN : Fld := ⟨61, 1⟩
abbrev DG_REG_LO_PID : Fld := ⟨56, 4⟩
abbrev DG_REG_LO_BASE : Fld := ⟨7, 41⟩
/-- DG_REG_HI (R248). -/
abbrev DG_REG_HI (i : Nat) : Nat := 0x5A08 + i * 16
abbrev DG_REG_HI_TAG : Fld := ⟨48, 16⟩
abbrev DG_REG_HI_LIMIT : Fld := ⟨7, 41⟩
/-- DG_LANE (R248). -/
abbrev DG_LANE (p j : Nat) : Nat := 0x5C00 + p * 64 + j * 8
abbrev DG_LANE_VALUE : Fld := ⟨0, 61⟩
/-- DG_KEY (R248). -/
abbrev DG_KEY (p j : Nat) : Nat := 0x5C20 + p * 64 + j * 8
abbrev DG_KEY_KEY : Fld := ⟨0, 61⟩
/-- RG_CTRL (R363). -/
abbrev RG_CTRL : Nat := 0x6000
abbrev RG_CTRL_BR_IRQ_EN : Fld := ⟨5, 1⟩
abbrev RG_CTRL_BR_EN : Fld := ⟨4, 1⟩
abbrev RG_CTRL_BR_TRAIN : Fld := ⟨3, 1⟩
abbrev RG_CTRL_ROSTER : Fld := ⟨2, 1⟩
abbrev RG_CTRL_EMBER : Fld := ⟨1, 1⟩
/-- RG_STATUS (R363). -/
abbrev RG_STATUS : Nat := 0x6008
abbrev RG_STATUS_PRESENT : Fld := ⟨16, 7⟩
abbrev RG_STATUS_STOP : Fld := ⟨8, 2⟩
abbrev RG_STATUS_MODE : Fld := ⟨7, 1⟩
abbrev RG_STATUS_CSKIP : Fld := ⟨6, 1⟩
abbrev RG_STATUS_ADJ_REFUSED : Fld := ⟨5, 1⟩
abbrev RG_STATUS_BR_DOWN : Fld := ⟨4, 1⟩
abbrev RG_STATUS_BR_UP : Fld := ⟨3, 1⟩
abbrev RG_STATUS_LATE : Fld := ⟨2, 1⟩
abbrev RG_STATUS_RING_DOWN : Fld := ⟨1, 1⟩
/-- RG_COUNT (R363). -/
abbrev RG_COUNT : Nat := 0x6010
abbrev RG_COUNT_COUNT : Fld := ⟨0, 64⟩
/-- RG_ROSTER (R363). -/
abbrev RG_ROSTER : Nat := 0x6018
abbrev RG_ROSTER_MASK : Fld := ⟨0, 64⟩
/-- RG_RETRY (R363). -/
abbrev RG_RETRY : Nat := 0x6020
abbrev RG_RETRY_CLEAR : Fld := ⟨63, 1⟩
abbrev RG_RETRY_BOARD : Fld := ⟨32, 31⟩
abbrev RG_RETRY_RING : Fld := ⟨0, 32⟩
/-- RG_RING_LAT (R363). -/
abbrev RG_RING_LAT : Nat := 0x6028
abbrev RG_RING_LAT_CIRCUIT : Fld := ⟨0, 16⟩
/-- RG_BR_CFG (R363). -/
abbrev RG_BR_CFG : Nat := 0x6030
abbrev RG_BR_CFG_NHOSTS : Fld := ⟨16, 5⟩
abbrev RG_BR_CFG_HOST_ID : Fld := ⟨0, 4⟩
/-- RG_BR_LAT (R363). -/
abbrev RG_BR_LAT : Nat := 0x6038
abbrev RG_BR_LAT_LAT_OUT : Fld := ⟨16, 16⟩
abbrev RG_BR_LAT_LAT_IN : Fld := ⟨0, 16⟩
/-- RG_BR_OFFSET (R363). -/
abbrev RG_BR_OFFSET : Nat := 0x6040
abbrev RG_BR_OFFSET_DELTA : Fld := ⟨0, 64⟩
/-- RG_CNT_ADJ (R363). -/
abbrev RG_CNT_ADJ : Nat := 0x6048
abbrev RG_CNT_ADJ_GO : Fld := ⟨63, 1⟩
abbrev RG_CNT_ADJ_ARMED : Fld := ⟨62, 1⟩
abbrev RG_CNT_ADJ_DELTA : Fld := ⟨0, 32⟩
/-- RG_CNT_ADJ_TICK (R363). -/
abbrev RG_CNT_ADJ_TICK : Nat := 0x6050
abbrev RG_CNT_ADJ_TICK_TICK : Fld := ⟨0, 64⟩
/-- NV_STATUS (R385). -/
abbrev NV_STATUS : Nat := 0x6800
abbrev NV_STATUS_REENTRIES : Fld := ⟨24, 8⟩
abbrev NV_STATUS_LATE_OPEN : Fld := ⟨17, 1⟩
abbrev NV_STATUS_ROUTER_DONE : Fld := ⟨16, 1⟩
abbrev NV_STATUS_NO_IMAGE : Fld := ⟨15, 1⟩
abbrev NV_STATUS_STAGE_ERR : Fld := ⟨14, 1⟩
abbrev NV_STATUS_STORE_FULL : Fld := ⟨13, 1⟩
abbrev NV_STATUS_REC_BAD : Fld := ⟨12, 1⟩
abbrev NV_STATUS_CRC_FAIL_B : Fld := ⟨11, 1⟩
abbrev NV_STATUS_CRC_FAIL_A : Fld := ⟨10, 1⟩
abbrev NV_STATUS_READ_QUAD : Fld := ⟨9, 1⟩
abbrev NV_STATUS_BANK : Fld := ⟨8, 1⟩
abbrev NV_STATUS_STEP : Fld := ⟨0, 4⟩
/-- NV_IMAGE (R385). -/
abbrev NV_IMAGE : Nat := 0x6808
abbrev NV_IMAGE_LENGTH : Fld := ⟨32, 21⟩
abbrev NV_IMAGE_SEQ : Fld := ⟨0, 32⟩
/-- NV_READY_TICK (R385). -/
abbrev NV_READY_TICK : Nat := 0x6810
abbrev NV_READY_TICK_TICK : Fld := ⟨0, 64⟩
/-- NV_STEWARD (R385). -/
abbrev NV_STEWARD : Nat := 0x6818
abbrev NV_STEWARD_HALT : Fld := ⟨63, 1⟩
abbrev NV_STEWARD_PATCHED : Fld := ⟨62, 1⟩
abbrev NV_STEWARD_CE : Fld := ⟨32, 16⟩
abbrev NV_STEWARD_HEARTBEAT : Fld := ⟨0, 32⟩
/-- NV_CMD (R385). -/
abbrev NV_CMD : Nat := 0x6820
abbrev NV_CMD_START : Fld := ⟨63, 1⟩
abbrev NV_CMD_BUSY : Fld := ⟨62, 1⟩
abbrev NV_CMD_DONE : Fld := ⟨61, 1⟩
abbrev NV_CMD_RESULT : Fld := ⟨58, 3⟩
abbrev NV_CMD_OP : Fld := ⟨12, 3⟩
abbrev NV_CMD_LEN : Fld := ⟨0, 9⟩
/-- NV_ADDR (R385). -/
abbrev NV_ADDR : Nat := 0x6828
abbrev NV_ADDR_ADDR : Fld := ⟨0, 24⟩
/-- NV_BUF (R385). -/
abbrev NV_BUF (i : Nat) : Nat := 0x6900 + i * 8
abbrev NV_BUF_DATA : Fld := ⟨0, 64⟩
/-- TD_CTRL (R399). -/
abbrev TD_CTRL : Nat := 0x7000
abbrev TD_CTRL_TAP_LOCK : Fld := ⟨0, 1⟩
/-- TD_ARR_SEL (R399). -/
abbrev TD_ARR_SEL : Nat := 0x7008
abbrev TD_ARR_SEL_WORD : Fld := ⟨21, 4⟩
abbrev TD_ARR_SEL_INDEX : Fld := ⟨8, 13⟩
abbrev TD_ARR_SEL_BANK : Fld := ⟨4, 4⟩
abbrev TD_ARR_SEL_HALF : Fld := ⟨3, 1⟩
abbrev TD_ARR_SEL_ARRAY : Fld := ⟨0, 3⟩
/-- TD_ARR_CMD (R399). -/
abbrev TD_ARR_CMD : Nat := 0x7010
abbrev TD_ARR_CMD_START : Fld := ⟨63, 1⟩
abbrev TD_ARR_CMD_BUSY : Fld := ⟨62, 1⟩
abbrev TD_ARR_CMD_DONE : Fld := ⟨61, 1⟩
abbrev TD_ARR_CMD_RESULT : Fld := ⟨58, 3⟩
/-- TD_ARR_DATA (R399). -/
abbrev TD_ARR_DATA : Nat := 0x7018
abbrev TD_ARR_DATA_DATA : Fld := ⟨0, 64⟩
/-- TD_ARR_CHECK (R399). -/
abbrev TD_ARR_CHECK : Nat := 0x7020
abbrev TD_ARR_CHECK_SYNDROME : Fld := ⟨8, 8⟩
abbrev TD_ARR_CHECK_CHECK : Fld := ⟨0, 8⟩

/-- Access codes of R12. A reserved bit belongs to no field. -/
inductive Acc where
  | ro | rw | rw1c | rw1s | rwl | wo
  deriving DecidableEq, Repr

/-- One field of a register with its access code. -/
structure FldDef where
  fld : Fld
  acc : Acc
  deriving DecidableEq, Repr

/-- One register of the window, or one array of equal registers: `count` copies `stride` bytes apart. -/
structure RegDef where
  base : Nat
  stride : Nat
  count : Nat
  flds : List FldDef
  deriving DecidableEq, Repr

/-- The registers of the ID_ block. -/
def regsID : List RegDef := [
  ⟨0x0, 8, 1, [⟨ID_REV_VENDOR, .ro⟩, ⟨ID_REV_DEVICE, .ro⟩, ⟨ID_REV_REV_MAJOR, .ro⟩, ⟨ID_REV_REV_MINOR, .ro⟩]⟩,
  ⟨0x8, 8, 1, [⟨ID_SLICE_GROUP_SIZE, .ro⟩, ⟨ID_SLICE_LEAD, .ro⟩, ⟨ID_SLICE_SLICE_ID, .ro⟩]⟩,
  ⟨0x10, 8, 1, [⟨ID_GEOM_VICTIM_FRAMES, .ro⟩, ⟨ID_GEOM_SETS_LOG2, .ro⟩, ⟨ID_GEOM_WAYS, .ro⟩, ⟨ID_GEOM_SPARES_PER_HALF, .ro⟩, ⟨ID_GEOM_BANKS_PER_HALF, .ro⟩, ⟨ID_GEOM_HALVES, .ro⟩]⟩,
  ⟨0x18, 8, 1, [⟨ID_NODE_NODE_MP3, .rwl⟩, ⟨ID_NODE_NODE_MP2, .rwl⟩, ⟨ID_NODE_NODE_MP1, .rwl⟩, ⟨ID_NODE_NODE_MP0, .rwl⟩]⟩,
  ⟨0x20, 8, 1, [⟨ID_CTRL_MISROUTE_IRQ_EN, .rw⟩, ⟨ID_CTRL_QUIESCE, .rw⟩]⟩,
  ⟨0x28, 8, 1, [⟨ID_STATUS_H1_AWAKE, .ro⟩, ⟨ID_STATUS_H0_AWAKE, .ro⟩, ⟨ID_STATUS_MAP_BAD, .ro⟩, ⟨ID_STATUS_MISROUTE, .rw1c⟩, ⟨ID_STATUS_QUIESCED, .ro⟩, ⟨ID_STATUS_READY, .ro⟩]⟩,
  ⟨0x30, 8, 1, [⟨ID_HM_INDEX_AUTOINC, .rw⟩, ⟨ID_HM_INDEX_GROUP, .rw⟩]⟩,
  ⟨0x38, 8, 1, [⟨ID_HM_DATA_ENTRY7, .rwl⟩, ⟨ID_HM_DATA_ENTRY6, .rwl⟩, ⟨ID_HM_DATA_ENTRY5, .rwl⟩, ⟨ID_HM_DATA_ENTRY4, .rwl⟩, ⟨ID_HM_DATA_ENTRY3, .rwl⟩, ⟨ID_HM_DATA_ENTRY2, .rwl⟩, ⟨ID_HM_DATA_ENTRY1, .rwl⟩, ⟨ID_HM_DATA_ENTRY0, .rwl⟩]⟩,
  ⟨0x40, 8, 1, [⟨ID_HM_CRC_CRC, .ro⟩]⟩,
  ⟨0x48, 8, 1, [⟨ID_MISROUTE_ADDR_SRC, .ro⟩, ⟨ID_MISROUTE_ADDR_ADDR, .ro⟩]⟩,
  ⟨0x50, 8, 1, [⟨ID_MISROUTE_CNT_CLEAR, .wo⟩, ⟨ID_MISROUTE_CNT_COUNT, .ro⟩]⟩,
  ⟨0x58, 8, 1, [⟨ID_CFG_BASE_BASE, .rwl⟩]⟩]

/-- The registers of the PT_ block. -/
def regsPT : List RegDef := [
  ⟨0x400, 64, 16, [⟨PT_CTRL_ACTIVE, .ro⟩, ⟨PT_CTRL_DENY_IRQ_EN, .rw⟩, ⟨PT_CTRL_SWEEP_IRQ_EN, .rw⟩, ⟨PT_CTRL_PC_USER, .rwl⟩, ⟨PT_CTRL_DET_MODE, .rwl⟩, ⟨PT_CTRL_SEAL, .rw1s⟩, ⟨PT_CTRL_FLUSH, .wo⟩, ⟨PT_CTRL_RELEASE, .wo⟩, ⟨PT_CTRL_ACTIVATE, .wo⟩]⟩,
  ⟨0x408, 64, 16, [⟨PT_WAYS_PIN_MASK, .rwl⟩, ⟨PT_WAYS_CACHE_MASK, .rwl⟩]⟩,
  ⟨0x410, 64, 16, [⟨PT_STATUS_CMD_RESULT, .ro⟩, ⟨PT_STATUS_PHASE, .ro⟩, ⟨PT_STATUS_STATE, .ro⟩]⟩,
  ⟨0x418, 64, 16, [⟨PT_SWEEP_START_TICK, .ro⟩]⟩,
  ⟨0x420, 64, 16, [⟨PT_SWEEP_REC_DONE, .rw1c⟩, ⟨PT_SWEEP_REC_DRAIN_ABORTED, .ro⟩, ⟨PT_SWEEP_REC_FLUSHED, .ro⟩, ⟨PT_SWEEP_REC_DURATION, .ro⟩, ⟨PT_SWEEP_REC_RECALLED, .ro⟩, ⟨PT_SWEEP_REC_FRAMES, .ro⟩]⟩,
  ⟨0x428, 64, 16, [⟨PT_DENY_VALID, .rw1c⟩, ⟨PT_DENY_SRC, .ro⟩, ⟨PT_DENY_ADDR, .ro⟩]⟩,
  ⟨0x430, 64, 16, [⟨PT_DENY_CNT_CLEAR, .wo⟩, ⟨PT_DENY_CNT_COUNT, .ro⟩]⟩]

/-- The registers of the RM_ block. -/
def regsRM : List RegDef := [
  ⟨0x800, 16, 64, [⟨RM_LO_BASE, .rwl⟩]⟩,
  ⟨0x808, 16, 64, [⟨RM_HI_VALID, .rwl⟩, ⟨RM_HI_RDONLY, .rwl⟩, ⟨RM_HI_PID, .rwl⟩, ⟨RM_HI_LIMIT, .rwl⟩]⟩,
  ⟨0xC00, 8, 1, [⟨RM_STATUS_OVERLAP, .rw1c⟩, ⟨RM_STATUS_BAD_RANGE, .rw1c⟩, ⟨RM_STATUS_INDEX, .ro⟩]⟩]

/-- The registers of the AX_ block. -/
def regsAX : List RegDef := [
  ⟨0x1000, 32, 32, [⟨AX_CFG_PID, .rwl⟩, ⟨AX_CFG_ANCHOR, .rw⟩, ⟨AX_CFG_FORMAT, .rwl⟩, ⟨AX_CFG_KIND, .rwl⟩, ⟨AX_CFG_VALID, .rwl⟩]⟩,
  ⟨0x1008, 32, 32, [⟨AX_BASE_BASE, .rwl⟩]⟩,
  ⟨0x1010, 32, 32, [⟨AX_LIMIT_LIMIT, .rwl⟩]⟩,
  ⟨0x1018, 32, 32, [⟨AX_STATUS_SAT, .rw1c⟩, ⟨AX_STATUS_CNT, .rw1c⟩, ⟨AX_STATUS_NF, .rw1c⟩, ⟨AX_STATUS_SAT_CNT, .ro⟩]⟩,
  ⟨0x1400, 8, 1, [⟨AX_VIOL_VALID, .rw1c⟩, ⟨AX_VIOL_CAUSE, .ro⟩, ⟨AX_VIOL_PID, .ro⟩, ⟨AX_VIOL_ADDR, .ro⟩]⟩,
  ⟨0x1408, 8, 1, [⟨AX_VIOL_CNT_CLEAR, .wo⟩, ⟨AX_VIOL_CNT_COUNT, .ro⟩]⟩]

/-- The registers of the SY_ block. -/
def regsSY : List RegDef := [
  ⟨0x1800, 8, 1, [⟨SY_CTRL_WTFULL_IRQ_EN, .rw⟩, ⟨SY_CTRL_LATE_IRQ_EN, .rw⟩, ⟨SY_CTRL_MISUSE_IRQ_EN, .rw⟩, ⟨SY_CTRL_REL_LEAD, .rwl⟩]⟩,
  ⟨0x1808, 8, 1, [⟨SY_STATUS_WTFULL, .rw1c⟩, ⟨SY_STATUS_LATE, .rw1c⟩, ⟨SY_STATUS_MISUSE, .rw1c⟩, ⟨SY_STATUS_DRAIN_OCC, .ro⟩, ⟨SY_STATUS_WT_OCC, .ro⟩]⟩,
  ⟨0x1810, 8, 1, [⟨SY_DBG_ADDR_PIN, .rw⟩, ⟨SY_DBG_ADDR_PID, .rw⟩, ⟨SY_DBG_ADDR_OBJ, .rw⟩]⟩,
  ⟨0x1818, 8, 1, [⟨SY_DBG_OBJ0_BYTES, .ro⟩]⟩,
  ⟨0x1820, 8, 1, [⟨SY_DBG_OBJ1_BYTES, .ro⟩]⟩,
  ⟨0x1828, 8, 1, [⟨SY_DBG_CMD_START, .wo⟩, ⟨SY_DBG_CMD_BUSY, .ro⟩, ⟨SY_DBG_CMD_RESULT, .ro⟩, ⟨SY_DBG_CMD_ACTION, .rw⟩, ⟨SY_DBG_CMD_VALUE, .rw⟩]⟩,
  ⟨0x1830, 8, 1, [⟨SY_WT_SEL_ENTRY, .rw⟩]⟩,
  ⟨0x1838, 8, 1, [⟨SY_WT_VIEW0_OBJ, .ro⟩, ⟨SY_WT_VIEW0_DCLASS, .ro⟩, ⟨SY_WT_VIEW0_PID, .ro⟩, ⟨SY_WT_VIEW0_PIN, .ro⟩, ⟨SY_WT_VIEW0_CMP, .ro⟩, ⟨SY_WT_VIEW0_KIND, .ro⟩, ⟨SY_WT_VIEW0_STATE, .ro⟩, ⟨SY_WT_VIEW0_VALID, .ro⟩]⟩,
  ⟨0x1840, 8, 1, [⟨SY_WT_VIEW1_WAITBIT, .ro⟩, ⟨SY_WT_VIEW1_PORT, .ro⟩, ⟨SY_WT_VIEW1_TXN, .ro⟩, ⟨SY_WT_VIEW1_SRC, .ro⟩, ⟨SY_WT_VIEW1_ARG, .ro⟩]⟩,
  ⟨0x1848, 8, 1, [⟨SY_SAVE_CTRL_START, .wo⟩, ⟨SY_SAVE_CTRL_BUSY, .ro⟩, ⟨SY_SAVE_CTRL_DONE, .rw1c⟩, ⟨SY_SAVE_CTRL_RESULT, .ro⟩, ⟨SY_SAVE_CTRL_OP, .rw⟩, ⟨SY_SAVE_CTRL_PID, .rw⟩, ⟨SY_SAVE_CTRL_COUNT, .rw⟩]⟩,
  ⟨0x1850, 8, 1, [⟨SY_SAVE_ADDR_ADDR, .rw⟩]⟩,
  ⟨0x1858, 8, 1, [⟨SY_SVIOL_VALID, .rw1c⟩, ⟨SY_SVIOL_CAUSE, .ro⟩, ⟨SY_SVIOL_PID, .ro⟩, ⟨SY_SVIOL_OPCODE, .ro⟩, ⟨SY_SVIOL_ADDR, .ro⟩]⟩,
  ⟨0x1860, 8, 1, [⟨SY_SVIOL_CNT_CLEAR, .wo⟩, ⟨SY_SVIOL_CNT_COUNT, .ro⟩]⟩,
  ⟨0x1880, 8, 16, [⟨SY_PCNT_CLEAR, .wo⟩, ⟨SY_PCNT_LATE, .ro⟩, ⟨SY_PCNT_WTFULL, .ro⟩, ⟨SY_PCNT_MISUSE, .ro⟩, ⟨SY_PCNT_EARLY, .ro⟩]⟩,
  ⟨0x1F00, 8, 1, [⟨SY_LOP_VIOL_VALID, .rw1c⟩, ⟨SY_LOP_VIOL_CAUSE, .ro⟩, ⟨SY_LOP_VIOL_PID, .ro⟩, ⟨SY_LOP_VIOL_OPCODE, .ro⟩, ⟨SY_LOP_VIOL_ADDR, .ro⟩]⟩,
  ⟨0x1F08, 8, 1, [⟨SY_LOP_VIOL_CNT_CLEAR, .wo⟩, ⟨SY_LOP_VIOL_CNT_COUNT, .ro⟩]⟩,
  ⟨0x1F10, 8, 1, [⟨SY_ODC_REF_VALID, .rw1c⟩, ⟨SY_ODC_REF_PID, .ro⟩, ⟨SY_ODC_REF_PIN, .ro⟩, ⟨SY_ODC_REF_LINE, .ro⟩]⟩,
  ⟨0x1F18, 8, 1, [⟨SY_ODC_NODES_LATER_OP, .ro⟩, ⟨SY_ODC_NODES_LATER_SRC, .ro⟩, ⟨SY_ODC_NODES_EARLIER_OP, .ro⟩, ⟨SY_ODC_NODES_EARLIER_SRC, .ro⟩]⟩,
  ⟨0x1F80, 8, 16, [⟨SY_ODC_CLEAR, .wo⟩, ⟨SY_ODC_COUNT, .ro⟩]⟩]

/-- The registers of the CO_ block. -/
def regsCO : List RegDef := [
  ⟨0x2000, 8, 1, [⟨CO_CTRL_ROW_COLS, .rwl⟩, ⟨CO_CTRL_NEAREST_EN, .rwl⟩]⟩,
  ⟨0x2008, 8, 1, [⟨CO_NODEMAP_CORE_COUNT, .rwl⟩, ⟨CO_NODEMAP_CORE_BASE, .rwl⟩]⟩,
  ⟨0x2010, 8, 1, [⟨CO_HQ_PEAK_CLEAR, .wo⟩, ⟨CO_HQ_PEAK_PEAK, .ro⟩, ⟨CO_HQ_PEAK_BANK, .ro⟩]⟩,
  ⟨0x2018, 8, 1, [⟨CO_NACK_CNT_CLEAR, .wo⟩, ⟨CO_NACK_CNT_COUNT, .ro⟩]⟩,
  ⟨0x2020, 8, 1, [⟨CO_PUSH_CNT_CLEAR, .wo⟩, ⟨CO_PUSH_CNT_DECLINED, .ro⟩, ⟨CO_PUSH_CNT_ACCEPTED, .ro⟩]⟩,
  ⟨0x2028, 8, 1, [⟨CO_VIOL_VALID, .rw1c⟩, ⟨CO_VIOL_CODE, .ro⟩, ⟨CO_VIOL_SRC, .ro⟩, ⟨CO_VIOL_ADDR, .ro⟩]⟩,
  ⟨0x2030, 8, 1, [⟨CO_VIOL_CNT_CLEAR, .wo⟩, ⟨CO_VIOL_CNT_COUNT, .ro⟩]⟩,
  ⟨0x2038, 8, 1, [⟨CO_HTE_SEL_HALF, .rw⟩, ⟨CO_HTE_SEL_BANK, .rw⟩, ⟨CO_HTE_SEL_ENTRY, .rw⟩]⟩,
  ⟨0x2040, 8, 1, [⟨CO_HTE_VIEW0_STATE, .ro⟩, ⟨CO_HTE_VIEW0_GRANT, .ro⟩, ⟨CO_HTE_VIEW0_NEED_ACK, .ro⟩, ⟨CO_HTE_VIEW0_GOT_ACK, .ro⟩, ⟨CO_HTE_VIEW0_GOT_ANS, .ro⟩, ⟨CO_HTE_VIEW0_DCLASS, .ro⟩, ⟨CO_HTE_VIEW0_PID, .ro⟩, ⟨CO_HTE_VIEW0_OP, .ro⟩, ⟨CO_HTE_VIEW0_LINE, .ro⟩]⟩,
  ⟨0x2048, 8, 1, [⟨CO_HTE_VIEW1_PEND, .ro⟩, ⟨CO_HTE_VIEW1_RNODE, .ro⟩, ⟨CO_HTE_VIEW1_COVER, .ro⟩, ⟨CO_HTE_VIEW1_RTXN, .ro⟩]⟩]

/-- The registers of the CZ_ block. -/
def regsCZ : List RegDef := [
  ⟨0x2400, 8, 1, [⟨CZ_CTRL_VB_HIGH, .rw⟩, ⟨CZ_CTRL_PID_EN, .rwl⟩, ⟨CZ_CTRL_EN_FOLD_E5M2, .rwl⟩, ⟨CZ_CTRL_EN_FOLD_E4M3, .rwl⟩, ⟨CZ_CTRL_EN_FOLD_BF16, .rwl⟩, ⟨CZ_CTRL_EN_BDELTA, .rwl⟩, ⟨CZ_CTRL_EN_CONST, .rwl⟩, ⟨CZ_CTRL_EN_ZERO, .rwl⟩]⟩,
  ⟨0x2408, 8, 1, [⟨CZ_OCC_VB, .ro⟩, ⟨CZ_OCC_QUAD, .ro⟩, ⟨CZ_OCC_PAIR, .ro⟩, ⟨CZ_OCC_RAW, .ro⟩]⟩,
  ⟨0x2410, 8, 1, [⟨CZ_MAINT_CTRL_PID, .rw⟩, ⟨CZ_MAINT_CTRL_IRQ_EN, .rw⟩, ⟨CZ_MAINT_CTRL_SCOPE, .rw⟩, ⟨CZ_MAINT_CTRL_OP, .rw⟩, ⟨CZ_MAINT_CTRL_START, .wo⟩]⟩,
  ⟨0x2418, 8, 1, [⟨CZ_MAINT_RANGE_HI, .rw⟩, ⟨CZ_MAINT_RANGE_LO, .rw⟩]⟩,
  ⟨0x2420, 8, 1, [⟨CZ_MAINT_STATUS_DONE, .rw1c⟩, ⟨CZ_MAINT_STATUS_BUSY, .ro⟩, ⟨CZ_MAINT_STATUS_INVALIDATED, .ro⟩, ⟨CZ_MAINT_STATUS_WRITTEN_BACK, .ro⟩]⟩,
  ⟨0x2428, 8, 1, [⟨CZ_DROP_REF_VALID, .rw1c⟩, ⟨CZ_DROP_REF_PID, .ro⟩, ⟨CZ_DROP_REF_ADDR, .ro⟩]⟩,
  ⟨0x2430, 8, 1, [⟨CZ_DROP_CNT_CLEAR, .wo⟩, ⟨CZ_DROP_CNT_COUNT, .ro⟩]⟩,
  ⟨0x2600, 8, 1, [⟨CZ_PIN_CTRL_FO_CREDIT_INIT, .rwl⟩]⟩,
  ⟨0x2608, 8, 1, [⟨CZ_CONFLICT_VALID, .rw1c⟩, ⟨CZ_CONFLICT_CAUSE, .ro⟩, ⟨CZ_CONFLICT_PID, .ro⟩, ⟨CZ_CONFLICT_HALF, .ro⟩, ⟨CZ_CONFLICT_BANK, .ro⟩, ⟨CZ_CONFLICT_OFFSET, .ro⟩]⟩,
  ⟨0x2610, 8, 1, [⟨CZ_CONFLICT_CNT_CLEAR, .wo⟩, ⟨CZ_CONFLICT_CNT_COUNT, .ro⟩]⟩,
  ⟨0x2618, 8, 1, [⟨CZ_DEADREAD_FLAG, .rw1c⟩]⟩,
  ⟨0x2620, 8, 1, [⟨CZ_FO_CRED_SEL_CORE, .rw⟩]⟩,
  ⟨0x2628, 8, 1, [⟨CZ_FO_CRED_VAL_COUNT, .rw⟩]⟩,
  ⟨0x2630, 8, 1, [⟨CZ_FO_VIOL_CLEAR, .wo⟩, ⟨CZ_FO_VIOL_COUNT, .ro⟩]⟩,
  ⟨0x2638, 8, 1, [⟨CZ_FO_ACTIVE_BUSY, .ro⟩]⟩,
  ⟨0x2680, 8, 16, [⟨CZ_DEAD_CNT_CLEAR, .wo⟩, ⟨CZ_DEAD_CNT_COUNT, .ro⟩]⟩,
  ⟨0x2700, 16, 16, [⟨CZ_FO_CFG_ABORT, .wo⟩, ⟨CZ_FO_CFG_BUSY, .ro⟩, ⟨CZ_FO_CFG_PENDING, .ro⟩, ⟨CZ_FO_CFG_DROPPED, .ro⟩, ⟨CZ_FO_CFG_VALID, .rwl⟩, ⟨CZ_FO_CFG_PID, .rwl⟩]⟩,
  ⟨0x2708, 16, 16, [⟨CZ_FO_TGT_COL_MASK, .rwl⟩, ⟨CZ_FO_TGT_ROW_MASK, .rwl⟩]⟩]

/-- The registers of the BW_ block. -/
def regsBW : List RegDef := [
  ⟨0x2800, 8, 1, [⟨BW_CTRL_OVERSUB_IRQ_EN, .rw⟩, ⟨BW_CTRL_REG_EN, .rwl⟩]⟩,
  ⟨0x2808, 8, 1, [⟨BW_STATUS_MIN_SUM, .ro⟩, ⟨BW_STATUS_REFUSED, .rw1c⟩, ⟨BW_STATUS_OVERSUB_H1, .rw1c⟩, ⟨BW_STATUS_OVERSUB_H0, .rw1c⟩]⟩,
  ⟨0x2810, 8, 1, [⟨BW_MEM_LINES, .rwl⟩]⟩,
  ⟨0x2818, 8, 1, [⟨BW_SHORT_CLEAR, .wo⟩, ⟨BW_SHORT_WINDOWS, .ro⟩, ⟨BW_SHORT_SHORTFALL, .ro⟩]⟩,
  ⟨0x2820, 8, 1, [⟨BW_SCALE_H1_D, .ro⟩, ⟨BW_SCALE_H1_G, .ro⟩, ⟨BW_SCALE_H0_D, .ro⟩, ⟨BW_SCALE_H0_G, .ro⟩]⟩,
  ⟨0x2840, 8, 8, [⟨BW_CLASSMAP_VALID, .rwl⟩, ⟨BW_CLASSMAP_CLASS, .rwl⟩, ⟨BW_CLASSMAP_NODE_HI, .rwl⟩, ⟨BW_CLASSMAP_NODE_LO, .rwl⟩]⟩,
  ⟨0x2880, 8, 4, [⟨BW_MIN_MIN7, .rwl⟩, ⟨BW_MIN_MIN6, .rwl⟩, ⟨BW_MIN_MIN5, .rwl⟩, ⟨BW_MIN_MIN4, .rwl⟩, ⟨BW_MIN_MIN3, .rwl⟩, ⟨BW_MIN_MIN2, .rwl⟩, ⟨BW_MIN_MIN1, .rwl⟩, ⟨BW_MIN_MIN0, .rwl⟩]⟩,
  ⟨0x28A0, 8, 2, [⟨BW_WT_WT15, .rwl⟩, ⟨BW_WT_WT14, .rwl⟩, ⟨BW_WT_WT13, .rwl⟩, ⟨BW_WT_WT12, .rwl⟩, ⟨BW_WT_WT11, .rwl⟩, ⟨BW_WT_WT10, .rwl⟩, ⟨BW_WT_WT9, .rwl⟩, ⟨BW_WT_WT8, .rwl⟩, ⟨BW_WT_WT7, .rwl⟩, ⟨BW_WT_WT6, .rwl⟩, ⟨BW_WT_WT5, .rwl⟩, ⟨BW_WT_WT4, .rwl⟩, ⟨BW_WT_WT3, .rwl⟩, ⟨BW_WT_WT2, .rwl⟩, ⟨BW_WT_WT1, .rwl⟩, ⟨BW_WT_WT0, .rwl⟩]⟩,
  ⟨0x2900, 8, 16, [⟨BW_PLIM_FB_MAX, .rwl⟩, ⟨BW_PLIM_HQ_MAX, .rwl⟩]⟩,
  ⟨0x2C00, 8, 32, [⟨BW_EGR_CNT_CLEAR, .wo⟩, ⟨BW_EGR_CNT_COUNT, .ro⟩]⟩,
  ⟨0x2D00, 8, 32, [⟨BW_FILL_CNT_CLEAR, .wo⟩, ⟨BW_FILL_CNT_COUNT, .ro⟩]⟩]

/-- The registers of the PG_ block. -/
def regsPG : List RegDef := [
  ⟨0x3000, 8, 1, [⟨PG_CTRL_T_LIMIT, .rwl⟩, ⟨PG_CTRL_T_HYST, .rwl⟩, ⟨PG_CTRL_REL_PCT, .rwl⟩, ⟨PG_CTRL_REL_HOLD, .rwl⟩, ⟨PG_CTRL_FF_PCT, .rwl⟩, ⟨PG_CTRL_BOOST_PCT, .rwl⟩, ⟨PG_CTRL_BOOST_HOLD, .rwl⟩, ⟨PG_CTRL_FAILSAFE_LEVEL, .rwl⟩, ⟨PG_CTRL_TEL_MISS_MAX, .rwl⟩, ⟨PG_CTRL_APPLY_OFF, .rwl⟩, ⟨PG_CTRL_LOG_IRQ_EN, .rw⟩, ⟨PG_CTRL_BOOST_EN, .rwl⟩, ⟨PG_CTRL_FIXED_FREQ, .rwl⟩, ⟨PG_CTRL_GOV_EN, .rwl⟩]⟩,
  ⟨0x3008, 8, 1, [⟨PG_STATUS_TEMP, .ro⟩, ⟨PG_STATUS_L_FF, .ro⟩, ⟨PG_STATUS_L_TH, .ro⟩, ⟨PG_STATUS_L_FB, .ro⟩, ⟨PG_STATUS_BOOST, .ro⟩, ⟨PG_STATUS_TEL_FAIL, .rw1c⟩]⟩,
  ⟨0x3010, 8, 1, [⟨PG_TEL_CNT_CLEAR, .wo⟩, ⟨PG_TEL_CNT_BAD, .ro⟩, ⟨PG_TEL_CNT_GOOD, .ro⟩]⟩,
  ⟨0x3018, 8, 1, [⟨PG_DROOP_COUNT, .ro⟩, ⟨PG_DROOP_HOLD, .rwl⟩, ⟨PG_DROOP_LEVEL, .rwl⟩, ⟨PG_DROOP_THRESH, .rwl⟩]⟩,
  ⟨0x3020, 8, 1, [⟨PG_LEVEL_LEVELS, .ro⟩]⟩,
  ⟨0x3028, 8, 1, [⟨PG_PHASE_HINT_PID, .rw⟩, ⟨PG_PHASE_HINT_PHASE, .rw⟩]⟩,
  ⟨0x3030, 8, 1, [⟨PG_ACT_WT_W_MEM, .rwl⟩, ⟨PG_ACT_WT_W_EGR, .rwl⟩, ⟨PG_ACT_WT_W_GRANT_S, .rwl⟩, ⟨PG_ACT_WT_W_GRANT_L, .rwl⟩, ⟨PG_ACT_WT_W_MACT, .rwl⟩]⟩,
  ⟨0x3038, 8, 1, [⟨PG_CORES_CORE_HI, .rwl⟩, ⟨PG_CORES_CORE_LO, .rwl⟩]⟩,
  ⟨0x3040, 8, 1, [⟨PG_CORE_REG_ADDR, .rwl⟩]⟩,
  ⟨0x3048, 8, 1, [⟨PG_ACT_REPORT_PID, .wo⟩, ⟨PG_ACT_REPORT_MACT, .wo⟩]⟩,
  ⟨0x3080, 8, 8, [⟨PG_RAIL_CFG_VALID, .rwl⟩, ⟨PG_RAIL_CFG_KIND, .rwl⟩, ⟨PG_RAIL_CFG_I_IDLE, .rwl⟩, ⟨PG_RAIL_CFG_I_PEAK, .rwl⟩, ⟨PG_RAIL_CFG_I_LIMIT, .rwl⟩]⟩,
  ⟨0x30C0, 8, 8, [⟨PG_RAIL_MEAS_SEQ, .ro⟩, ⟨PG_RAIL_MEAS_IPEAK, .ro⟩, ⟨PG_RAIL_MEAS_VOLT, .ro⟩, ⟨PG_RAIL_MEAS_CURRENT, .ro⟩]⟩,
  ⟨0x3100, 16, 4, [⟨PG_GROUP_VALID, .rwl⟩, ⟨PG_GROUP_PID, .rwl⟩, ⟨PG_GROUP_GLEAD, .rwl⟩, ⟨PG_GROUP_GPERIOD, .rwl⟩, ⟨PG_GROUP_HOSTS, .rwl⟩]⟩,
  ⟨0x3108, 16, 4, [⟨PG_GSTAT_CLEAR, .wo⟩, ⟨PG_GSTAT_LOST, .rw1c⟩, ⟨PG_GSTAT_L_GRP, .ro⟩, ⟨PG_GSTAT_MISS, .ro⟩, ⟨PG_GSTAT_STRAGGLE, .ro⟩, ⟨PG_GSTAT_CLAMP, .ro⟩]⟩,
  ⟨0x3140, 8, 1, [⟨PG_PH_SEL_ENTRY, .rw⟩]⟩,
  ⟨0x3148, 8, 1, [⟨PG_PH_VIEW0_VALID, .ro⟩, ⟨PG_PH_VIEW0_ANY, .ro⟩, ⟨PG_PH_VIEW0_PID, .ro⟩, ⟨PG_PH_VIEW0_PHASE, .ro⟩, ⟨PG_PH_VIEW0_SAMPLES, .ro⟩]⟩,
  ⟨0x3150, 8, 1, [⟨PG_PH_VIEW1_LAST_USE, .ro⟩, ⟨PG_PH_VIEW1_D_MEM, .ro⟩, ⟨PG_PH_VIEW1_D_SRAM, .ro⟩, ⟨PG_PH_VIEW1_D_LOGIC, .ro⟩]⟩,
  ⟨0x3200, 8, 16, [⟨PG_ENERGY_CLEAR, .wo⟩, ⟨PG_ENERGY_UJ, .ro⟩]⟩,
  ⟨0x3280, 8, 1, [⟨PG_ENERGY_UNATTR_CLEAR, .wo⟩, ⟨PG_ENERGY_UNATTR_UJ, .ro⟩]⟩,
  ⟨0x3300, 8, 1, [⟨PG_LOG_SEL_ENTRY, .rw⟩]⟩,
  ⟨0x3308, 8, 1, [⟨PG_LOG0_WORD, .ro⟩]⟩,
  ⟨0x3310, 8, 1, [⟨PG_LOG1_WORD, .ro⟩]⟩,
  ⟨0x3318, 8, 1, [⟨PG_LOG_STATUS_OVF, .rw1c⟩, ⟨PG_LOG_STATUS_COUNT, .ro⟩, ⟨PG_LOG_STATUS_HEAD, .ro⟩]⟩]

/-- The registers of the AG_ block. -/
def regsAG : List RegDef := [
  ⟨0x3800, 8, 1, [⟨AG_CTRL_IDLE_RET, .rwl⟩, ⟨AG_CTRL_IDLE_OFF, .rwl⟩, ⟨AG_CTRL_PERIOD, .rwl⟩, ⟨AG_CTRL_PLAN_IRQ_EN, .rw⟩, ⟨AG_CTRL_MEAS_EN, .rwl⟩, ⟨AG_CTRL_OFF_EN, .rwl⟩, ⟨AG_CTRL_GATE_EN, .rwl⟩]⟩,
  ⟨0x3808, 8, 1, [⟨AG_PSTATE_OFF_HELD_H1, .ro⟩, ⟨AG_PSTATE_OFF_HELD_H0, .ro⟩, ⟨AG_PSTATE_FLUSH_H1, .ro⟩, ⟨AG_PSTATE_FLUSH_H0, .ro⟩, ⟨AG_PSTATE_HELD, .ro⟩, ⟨AG_PSTATE_H1_STATE, .ro⟩, ⟨AG_PSTATE_H0_STATE, .ro⟩]⟩,
  ⟨0x3810, 8, 1, [⟨AG_WAKE_CNT_CLEAR, .wo⟩, ⟨AG_WAKE_CNT_H1, .ro⟩, ⟨AG_WAKE_CNT_H0, .ro⟩]⟩,
  ⟨0x3818, 8, 1, [⟨AG_MON_SEL_MON, .rw⟩]⟩,
  ⟨0x3820, 8, 1, [⟨AG_MON_VIEW_SLOW, .ro⟩, ⟨AG_MON_VIEW_RATIO, .ro⟩, ⟨AG_MON_VIEW_BASE, .ro⟩, ⟨AG_MON_VIEW_COUNT, .ro⟩]⟩,
  ⟨0x3828, 8, 1, [⟨AG_MEAS_STATUS_VALID, .ro⟩, ⟨AG_MEAS_STATUS_PROV, .ro⟩, ⟨AG_MEAS_STATUS_FULL_EXISTS, .ro⟩, ⟨AG_MEAS_STATUS_ACT, .ro⟩, ⟨AG_MEAS_STATUS_SKIPPED, .ro⟩, ⟨AG_MEAS_STATUS_SETS, .ro⟩]⟩,
  ⟨0x3830, 8, 1, [⟨AG_MEAS_TICK_TICK, .ro⟩]⟩,
  ⟨0x3838, 8, 1, [⟨AG_ASSIST_THR_T7, .rwl⟩, ⟨AG_ASSIST_THR_T6, .rwl⟩, ⟨AG_ASSIST_THR_T5, .rwl⟩, ⟨AG_ASSIST_THR_T4, .rwl⟩, ⟨AG_ASSIST_THR_T3, .rwl⟩, ⟨AG_ASSIST_THR_T2, .rwl⟩, ⟨AG_ASSIST_THR_T1, .rwl⟩]⟩,
  ⟨0x3840, 8, 1, [⟨AG_VSTEP_VMAX, .rwl⟩, ⟨AG_VSTEP_PER_STEP, .rwl⟩]⟩,
  ⟨0x3848, 8, 1, [⟨AG_PLAN_GROUP_VOFF, .ro⟩, ⟨AG_PLAN_GUARD, .ro⟩, ⟨AG_PLAN_VOFF, .ro⟩, ⟨AG_PLAN_VOFF_BASE, .ro⟩, ⟨AG_PLAN_APPLIED_H1, .ro⟩, ⟨AG_PLAN_APPLIED_H0, .ro⟩, ⟨AG_PLAN_ASSIST, .ro⟩, ⟨AG_PLAN_ASSIST_BASE, .ro⟩]⟩,
  ⟨0x3850, 8, 1, [⟨AG_REC_CTRL_WRITE, .wo⟩, ⟨AG_REC_CTRL_BUSY, .ro⟩, ⟨AG_REC_CTRL_DONE, .rw1c⟩, ⟨AG_REC_CTRL_RESULT, .ro⟩, ⟨AG_REC_CTRL_BANK, .ro⟩, ⟨AG_REC_CTRL_SOURCE, .ro⟩, ⟨AG_REC_CTRL_SEQ, .ro⟩]⟩,
  ⟨0x3858, 8, 1, [⟨AG_POH_LAST_WRITE, .ro⟩, ⟨AG_POH_NOW, .ro⟩]⟩]

/-- The registers of the EC_ block. -/
def regsEC : List RegDef := [
  ⟨0x4000, 8, 1, [⟨EC_CTRL_LOG_VIOL, .rw⟩, ⟨EC_CTRL_VIOL_IRQ_EN, .rw⟩, ⟨EC_CTRL_RT_IRQ_EN, .rw⟩, ⟨EC_CTRL_CE_IRQ_EN, .rw⟩, ⟨EC_CTRL_UE_IRQ_EN, .rw⟩, ⟨EC_CTRL_REPAIR_EN, .rw⟩]⟩,
  ⟨0x4008, 8, 1, [⟨EC_STATUS_VB_LOST, .ro⟩, ⟨EC_STATUS_MEM_ERR, .rw1c⟩, ⟨EC_STATUS_KINDLE_ERR, .rw1c⟩, ⟨EC_STATUS_VIOL, .rw1c⟩, ⟨EC_STATUS_RT_FULL, .rw1c⟩, ⟨EC_STATUS_TAG_LOST, .rw1c⟩, ⟨EC_STATUS_CE_STORM, .rw1c⟩, ⟨EC_STATUS_UE, .rw1c⟩]⟩,
  ⟨0x4010, 8, 1, [⟨EC_BUCKET_LEAK_SHIFT, .rw⟩, ⟨EC_BUCKET_CAP, .rw⟩, ⟨EC_BUCKET_LEVEL, .ro⟩]⟩,
  ⟨0x4018, 8, 1, [⟨EC_CNT_CLEAR, .wo⟩, ⟨EC_CNT_UE, .ro⟩, ⟨EC_CNT_CE, .ro⟩]⟩,
  ⟨0x4020, 8, 1, [⟨EC_LOG_SEL_ENTRY, .rw⟩]⟩,
  ⟨0x4028, 8, 1, [⟨EC_LOG0_WORD, .ro⟩]⟩,
  ⟨0x4030, 8, 1, [⟨EC_LOG1_WORD, .ro⟩]⟩,
  ⟨0x4038, 8, 1, [⟨EC_LOG2_WORD, .ro⟩]⟩,
  ⟨0x4040, 8, 1, [⟨EC_LOG_STATUS_OVF, .rw1c⟩, ⟨EC_LOG_STATUS_COUNT, .ro⟩, ⟨EC_LOG_STATUS_HEAD, .ro⟩]⟩,
  ⟨0x4048, 8, 1, [⟨EC_FLIP_CTRL_ARM, .wo⟩, ⟨EC_FLIP_CTRL_ARMED, .ro⟩, ⟨EC_FLIP_CTRL_HIT, .rw1c⟩, ⟨EC_FLIP_CTRL_CHECK, .rw⟩, ⟨EC_FLIP_CTRL_ARRAY, .rw⟩, ⟨EC_FLIP_CTRL_HALF, .rw⟩, ⟨EC_FLIP_CTRL_BANK, .rw⟩, ⟨EC_FLIP_CTRL_WORD, .rw⟩]⟩,
  ⟨0x4050, 8, 1, [⟨EC_FLIP_DATA_MASK, .rw⟩]⟩,
  ⟨0x4058, 8, 1, [⟨EC_PATROL_EN, .rw⟩, ⟨EC_PATROL_BATCH, .rw⟩, ⟨EC_PATROL_INTERVAL, .rw⟩]⟩,
  ⟨0x4060, 8, 1, [⟨EC_PATROL_STATUS_SUSPENDED, .ro⟩, ⟨EC_PATROL_STATUS_PASSES, .ro⟩, ⟨EC_PATROL_STATUS_DEFER_H1, .ro⟩, ⟨EC_PATROL_STATUS_DEFER_H0, .ro⟩, ⟨EC_PATROL_STATUS_STEP, .ro⟩]⟩,
  ⟨0x4068, 8, 1, [⟨EC_REPAIR_CLEAR, .wo⟩, ⟨EC_REPAIR_DROPPED, .ro⟩, ⟨EC_REPAIR_OCC_H1, .ro⟩, ⟨EC_REPAIR_OCC_H0, .ro⟩]⟩,
  ⟨0x4070, 8, 1, [⟨EC_SPARE_REFUSED, .rw1c⟩, ⟨EC_SPARE_DONE, .rw1c⟩, ⟨EC_SPARE_BUSY, .ro⟩, ⟨EC_SPARE_H1_VALID, .rwl⟩, ⟨EC_SPARE_H1_BANK, .rwl⟩, ⟨EC_SPARE_H0_VALID, .rwl⟩, ⟨EC_SPARE_H0_BANK, .rwl⟩]⟩,
  ⟨0x4100, 8, 18, [⟨EC_BANK_CNT_CLEAR, .wo⟩, ⟨EC_BANK_CNT_UE, .ro⟩, ⟨EC_BANK_CNT_CE, .ro⟩]⟩,
  ⟨0x4200, 8, 64, [⟨EC_RT_VALID, .rw⟩, ⟨EC_RT_STATE, .rw⟩, ⟨EC_RT_LOST, .ro⟩, ⟨EC_RT_BUSY, .ro⟩, ⟨EC_RT_HALF, .rw⟩, ⟨EC_RT_BANK, .rw⟩, ⟨EC_RT_ROW, .rw⟩, ⟨EC_RT_WAY, .rw⟩]⟩]

/-- The registers of the PC_ block. -/
def regsPC : List RegDef := [
  ⟨0x4800, 8, 1, [⟨PC_CTRL_EN, .rw⟩]⟩,
  ⟨0x4808, 8, 1, [⟨PC_OVF_OVF, .rw1c⟩]⟩,
  ⟨0x4900, 8, 32, [⟨PC_CFG_IRQ_EN, .rw⟩, ⟨PC_CFG_OWNER, .rwl⟩, ⟨PC_CFG_HALF, .rwl⟩, ⟨PC_CFG_PID_EN, .rwl⟩, ⟨PC_CFG_PID, .rwl⟩, ⟨PC_CFG_ENABLE, .rw⟩, ⟨PC_CFG_EVENT, .rwl⟩]⟩,
  ⟨0x4A00, 8, 32, [⟨PC_VAL_STAMP, .ro⟩, ⟨PC_VAL_VALUE, .rw⟩]⟩,
  ⟨0x4B00, 8, 4, [⟨PC_RELOAD_RELOAD, .rw⟩]⟩,
  ⟨0x4B80, 32, 4, [⟨PC_SMP0_PIN, .ro⟩, ⟨PC_SMP0_ADDR, .ro⟩]⟩,
  ⟨0x4B88, 32, 4, [⟨PC_SMP1_VALID, .rw1c⟩, ⟨PC_SMP1_LOST, .rw1c⟩, ⟨PC_SMP1_EVENT, .ro⟩, ⟨PC_SMP1_CLASS, .ro⟩, ⟨PC_SMP1_OPCODE, .ro⟩, ⟨PC_SMP1_PORT, .ro⟩, ⟨PC_SMP1_PID, .ro⟩]⟩,
  ⟨0x4B90, 32, 4, [⟨PC_SMP2_TICK, .ro⟩]⟩]

/-- The registers of the EP_ block. -/
def regsEP : List RegDef := [
  ⟨0x5000, 8, 1, [⟨EP_CTRL_SHELF_WAYS, .rwl⟩]⟩,
  ⟨0x5008, 8, 1, [⟨EP_SHELF_BUSY, .ro⟩, ⟨EP_SHELF_REFUSED, .rw1c⟩, ⟨EP_SHELF_OCC, .ro⟩]⟩,
  ⟨0x5440, 64, 15, [⟨EP_PCTRL_LEDGER_IRQ_EN, .rw⟩, ⟨EP_PCTRL_FAULT_IRQ_EN, .rw⟩, ⟨EP_PCTRL_DONE_IRQ_EN, .rw⟩, ⟨EP_PCTRL_EN, .rwl⟩, ⟨EP_PCTRL_ABORT, .wo⟩, ⟨EP_PCTRL_RELEASE, .wo⟩, ⟨EP_PCTRL_CANCEL, .wo⟩, ⟨EP_PCTRL_ARM, .wo⟩]⟩,
  ⟨0x5448, 64, 15, [⟨EP_PCLOSE_TICK, .rw⟩]⟩,
  ⟨0x5450, 64, 15, [⟨EP_PDRAIN_BASE, .rwl⟩, ⟨EP_PDRAIN_SIZE, .rwl⟩]⟩,
  ⟨0x5458, 64, 15, [⟨EP_PSTATUS_DONE, .rw1c⟩, ⟨EP_PSTATUS_SKIP, .rw1c⟩, ⟨EP_PSTATUS_SKIP_CAUSE, .ro⟩, ⟨EP_PSTATUS_LATE, .rw1c⟩, ⟨EP_PSTATUS_AREA_FULL, .rw1c⟩, ⟨EP_PSTATUS_DRAIN_ERR, .rw1c⟩, ⟨EP_PSTATUS_ARMED, .ro⟩, ⟨EP_PSTATUS_HARVEST, .ro⟩, ⟨EP_PSTATUS_QUIET, .ro⟩, ⟨EP_PSTATUS_LEDGER_DONE, .ro⟩, ⟨EP_PSTATUS_FROZEN_DONE, .ro⟩, ⟨EP_PSTATUS_OPEN_BANK, .ro⟩, ⟨EP_PSTATUS_PAR, .ro⟩, ⟨EP_PSTATUS_PHASE, .ro⟩]⟩,
  ⟨0x5460, 64, 15, [⟨EP_PREC0_CLOSE_TICK, .ro⟩]⟩,
  ⟨0x5468, 64, 15, [⟨EP_PREC1_EPOCH, .ro⟩, ⟨EP_PREC1_RECORDS, .ro⟩]⟩,
  ⟨0x5470, 64, 15, [⟨EP_PCNT_CLEAR, .wo⟩, ⟨EP_PCNT_STALLS, .ro⟩, ⟨EP_PCNT_CAPTURES, .ro⟩]⟩]

/-- The registers of the DG_ block. -/
def regsDG : List RegDef := [
  ⟨0x5800, 8, 1, [⟨DG_DET_CTRL_TEVT_IRQ_EN, .rw⟩, ⟨DG_DET_CTRL_PATROL_IN_DET, .rw⟩, ⟨DG_DET_CTRL_SEAM_ASYNC, .rwl⟩]⟩,
  ⟨0x5808, 8, 1, [⟨DG_DET_STATUS_XING_ASYNC, .ro⟩, ⟨DG_DET_STATUS_XING_ALIGNED, .ro⟩, ⟨DG_DET_STATUS_FIXED_FREQ, .ro⟩, ⟨DG_DET_STATUS_LAUNCH_LATE, .rw1c⟩, ⟨DG_DET_STATUS_ALIGN_DONE, .ro⟩, ⟨DG_DET_STATUS_DET_TIMING, .ro⟩]⟩,
  ⟨0x5810, 8, 1, [⟨DG_TEVT_XING, .rw1c⟩, ⟨DG_TEVT_LATE, .rw1c⟩, ⟨DG_TEVT_RING, .rw1c⟩, ⟨DG_TEVT_MAINT, .rw1c⟩, ⟨DG_TEVT_SHELF, .rw1c⟩, ⟨DG_TEVT_DROOP, .rw1c⟩, ⟨DG_TEVT_DAMP, .rw1c⟩, ⟨DG_TEVT_WAKE, .rw1c⟩, ⟨DG_TEVT_FREQ, .rw1c⟩]⟩,
  ⟨0x5818, 8, 1, [⟨DG_TEVT_CNT_CLEAR, .wo⟩, ⟨DG_TEVT_CNT_COUNT, .ro⟩]⟩,
  ⟨0x5820, 8, 1, [⟨DG_XING_TARGET, .rwl⟩, ⟨DG_XING_LAT_MP3, .ro⟩, ⟨DG_XING_LAT_MP2, .ro⟩, ⟨DG_XING_LAT_MP1, .ro⟩, ⟨DG_XING_LAT_MP0, .ro⟩]⟩,
  ⟨0x5828, 8, 1, [⟨DG_LAUNCH_ARM, .wo⟩, ⟨DG_LAUNCH_CANCEL, .wo⟩, ⟨DG_LAUNCH_ARMED, .ro⟩, ⟨DG_LAUNCH_PID, .rw⟩, ⟨DG_LAUNCH_CAPTURE, .rw⟩, ⟨DG_LAUNCH_TIME_BASE, .rw⟩, ⟨DG_LAUNCH_TEVT_CLEAR, .rw⟩]⟩,
  ⟨0x5830, 8, 1, [⟨DG_LAUNCH_TICK_TICK, .rw⟩]⟩,
  ⟨0x5838, 8, 1, [⟨DG_CAP_STATUS_DONE, .rw1c⟩, ⟨DG_CAP_STATUS_BUSY, .ro⟩, ⟨DG_CAP_STATUS_ERR, .ro⟩, ⟨DG_CAP_STATUS_MISSED, .rw1c⟩, ⟨DG_CAP_STATUS_LINES, .ro⟩]⟩,
  ⟨0x5A00, 16, 16, [⟨DG_REG_LO_VALID, .rwl⟩, ⟨DG_REG_LO_KIND, .rwl⟩, ⟨DG_REG_LO_FEED_FIN, .rwl⟩, ⟨DG_REG_LO_PID, .rwl⟩, ⟨DG_REG_LO_BASE, .rwl⟩]⟩,
  ⟨0x5A08, 16, 16, [⟨DG_REG_HI_TAG, .rwl⟩, ⟨DG_REG_HI_LIMIT, .rwl⟩]⟩,
  ⟨0x5C00, 64, 16, [⟨DG_LANE_VALUE, .rw⟩]⟩,
  ⟨0x5C08, 64, 16, [⟨DG_LANE_VALUE, .rw⟩]⟩,
  ⟨0x5C10, 64, 16, [⟨DG_LANE_VALUE, .rw⟩]⟩,
  ⟨0x5C18, 64, 16, [⟨DG_LANE_VALUE, .rw⟩]⟩,
  ⟨0x5C20, 64, 16, [⟨DG_KEY_KEY, .rwl⟩]⟩,
  ⟨0x5C28, 64, 16, [⟨DG_KEY_KEY, .rwl⟩]⟩,
  ⟨0x5C30, 64, 16, [⟨DG_KEY_KEY, .rwl⟩]⟩,
  ⟨0x5C38, 64, 16, [⟨DG_KEY_KEY, .rwl⟩]⟩]

/-- The registers of the RG_ block. -/
def regsRG : List RegDef := [
  ⟨0x6000, 8, 1, [⟨RG_CTRL_BR_IRQ_EN, .rw⟩, ⟨RG_CTRL_BR_EN, .rwl⟩, ⟨RG_CTRL_BR_TRAIN, .wo⟩, ⟨RG_CTRL_ROSTER, .wo⟩, ⟨RG_CTRL_EMBER, .wo⟩]⟩,
  ⟨0x6008, 8, 1, [⟨RG_STATUS_PRESENT, .ro⟩, ⟨RG_STATUS_STOP, .ro⟩, ⟨RG_STATUS_MODE, .ro⟩, ⟨RG_STATUS_CSKIP, .rw1c⟩, ⟨RG_STATUS_ADJ_REFUSED, .rw1c⟩, ⟨RG_STATUS_BR_DOWN, .rw1c⟩, ⟨RG_STATUS_BR_UP, .ro⟩, ⟨RG_STATUS_LATE, .rw1c⟩, ⟨RG_STATUS_RING_DOWN, .ro⟩]⟩,
  ⟨0x6010, 8, 1, [⟨RG_COUNT_COUNT, .ro⟩]⟩,
  ⟨0x6018, 8, 1, [⟨RG_ROSTER_MASK, .ro⟩]⟩,
  ⟨0x6020, 8, 1, [⟨RG_RETRY_CLEAR, .wo⟩, ⟨RG_RETRY_BOARD, .ro⟩, ⟨RG_RETRY_RING, .ro⟩]⟩,
  ⟨0x6028, 8, 1, [⟨RG_RING_LAT_CIRCUIT, .ro⟩]⟩,
  ⟨0x6030, 8, 1, [⟨RG_BR_CFG_NHOSTS, .rwl⟩, ⟨RG_BR_CFG_HOST_ID, .rwl⟩]⟩,
  ⟨0x6038, 8, 1, [⟨RG_BR_LAT_LAT_OUT, .ro⟩, ⟨RG_BR_LAT_LAT_IN, .ro⟩]⟩,
  ⟨0x6040, 8, 1, [⟨RG_BR_OFFSET_DELTA, .ro⟩]⟩,
  ⟨0x6048, 8, 1, [⟨RG_CNT_ADJ_GO, .wo⟩, ⟨RG_CNT_ADJ_ARMED, .ro⟩, ⟨RG_CNT_ADJ_DELTA, .rwl⟩]⟩,
  ⟨0x6050, 8, 1, [⟨RG_CNT_ADJ_TICK_TICK, .rwl⟩]⟩]

/-- The registers of the NV_ block. -/
def regsNV : List RegDef := [
  ⟨0x6800, 8, 1, [⟨NV_STATUS_REENTRIES, .ro⟩, ⟨NV_STATUS_LATE_OPEN, .ro⟩, ⟨NV_STATUS_ROUTER_DONE, .ro⟩, ⟨NV_STATUS_NO_IMAGE, .ro⟩, ⟨NV_STATUS_STAGE_ERR, .ro⟩, ⟨NV_STATUS_STORE_FULL, .ro⟩, ⟨NV_STATUS_REC_BAD, .ro⟩, ⟨NV_STATUS_CRC_FAIL_B, .ro⟩, ⟨NV_STATUS_CRC_FAIL_A, .ro⟩, ⟨NV_STATUS_READ_QUAD, .ro⟩, ⟨NV_STATUS_BANK, .ro⟩, ⟨NV_STATUS_STEP, .ro⟩]⟩,
  ⟨0x6808, 8, 1, [⟨NV_IMAGE_LENGTH, .ro⟩, ⟨NV_IMAGE_SEQ, .ro⟩]⟩,
  ⟨0x6810, 8, 1, [⟨NV_READY_TICK_TICK, .ro⟩]⟩,
  ⟨0x6818, 8, 1, [⟨NV_STEWARD_HALT, .ro⟩, ⟨NV_STEWARD_PATCHED, .ro⟩, ⟨NV_STEWARD_CE, .ro⟩, ⟨NV_STEWARD_HEARTBEAT, .ro⟩]⟩,
  ⟨0x6820, 8, 1, [⟨NV_CMD_START, .wo⟩, ⟨NV_CMD_BUSY, .ro⟩, ⟨NV_CMD_DONE, .rw1c⟩, ⟨NV_CMD_RESULT, .ro⟩, ⟨NV_CMD_OP, .rw⟩, ⟨NV_CMD_LEN, .rw⟩]⟩,
  ⟨0x6828, 8, 1, [⟨NV_ADDR_ADDR, .rw⟩]⟩,
  ⟨0x6900, 8, 32, [⟨NV_BUF_DATA, .rw⟩]⟩]

/-- The registers of the TD_ block. -/
def regsTD : List RegDef := [
  ⟨0x7000, 8, 1, [⟨TD_CTRL_TAP_LOCK, .rw1s⟩]⟩,
  ⟨0x7008, 8, 1, [⟨TD_ARR_SEL_WORD, .rw⟩, ⟨TD_ARR_SEL_INDEX, .rw⟩, ⟨TD_ARR_SEL_BANK, .rw⟩, ⟨TD_ARR_SEL_HALF, .rw⟩, ⟨TD_ARR_SEL_ARRAY, .rw⟩]⟩,
  ⟨0x7010, 8, 1, [⟨TD_ARR_CMD_START, .wo⟩, ⟨TD_ARR_CMD_BUSY, .ro⟩, ⟨TD_ARR_CMD_DONE, .rw1c⟩, ⟨TD_ARR_CMD_RESULT, .ro⟩]⟩,
  ⟨0x7018, 8, 1, [⟨TD_ARR_DATA_DATA, .ro⟩]⟩,
  ⟨0x7020, 8, 1, [⟨TD_ARR_CHECK_SYNDROME, .ro⟩, ⟨TD_ARR_CHECK_CHECK, .ro⟩]⟩]

/-- Every register of the window (R7 to R11), block by block. -/
def regTable : List RegDef :=
  regsID ++ regsPT ++ regsRM ++ regsAX ++ regsSY ++ regsCO ++ regsCZ ++ regsBW ++ regsPG ++ regsAG ++ regsEC ++ regsPC ++ regsEP ++ regsDG ++ regsRG ++ regsNV ++ regsTD

end Sys2Proof.Machine
end

