-- ==== Sys2Proof/Machine/State.lean ====
section
/-! DEFINITION. The state of one slice as plain data: the register window, the arrays, and every queue, table and engine the spec
gives the part; the queue of waiting commands beside it; the state in ember reset (spec 16_startup_image.md R364). -/

namespace Sys2Proof.Machine

/-- One frame of the data array with its two tag words (R66, R95, R258). -/
structure Frame where
  w0 : Word
  w1 : Word
  data : Line
  deriving DecidableEq, Repr

/-- The kindling-fill value of a frame (R329). (DESIGN CHOICE, log 11) -/
def Frame.zero : Frame := ⟨0, 0, 0⟩

/-- A message (R36): header fields and payload. -/
structure Msg where
  cls : Cls
  op : BitVec 6
  src : Node
  dst : Node
  pid : Pid
  txn : Txn
  dclass : Bool
  hint : BitVec 4
  ext0 : BitVec 15
  addr : Addr
  ext1 : BitVec 16
  pl : Payload
  deriving DecidableEq, Repr

/-- A message formed at egress: its port, the fc at which its head leaves with no further wait (R32), the order of its
formation (R414), its master class, whether it carries a payload (R273), and for a release the waiter-table entry, the drain-tracker entry and
RELEASE_TICK (R208, R212). -/
structure Out where
  port : Port
  due : Nat
  ord : Nat
  mclass : Nat
  payload : Bool
  msg : Msg
  rel : Option (Nat × Option Nat × Nat)
  deriving DecidableEq, Repr

/-- A message that has left: the fc, the port and the message. -/
structure Sent where
  fc : Nat
  port : Port
  msg : Msg
  deriving DecidableEq, Repr

/-- A request on its way through the home: opcode, message, lookup PID (R69), admission under another PID (R55), and the slice's own
requests, which are answered in registers or not at all (R93, R216). `t` is the fc in which it reached ingress. -/
structure Req where
  op : BitVec 6
  a : Arr
  lp : Nat
  foreign : Bool
  steward : Bool
  t : Nat
  deriving DecidableEq, Repr

/-- What a hold-queue entry waits for (R125, R113, R258, R279). -/
inductive Wait where
  | line | hte | fill | allowance | victim | way | departing | recall | shelf | fanout (k : Nat)
  deriving DecidableEq, Repr

/-- One hold-queue entry (R125): the request, the line or frame it waits at, what it waits for, its arrival number, and the fc from which its
replay is a candidate (R127). -/
structure HoldEntry where
  req : Req
  line : Nat
  wait : Wait
  ord : Nat
  since : Nat
  deriving DecidableEq, Repr

/-- The transient home states (R123). -/
inductive HteState where
  | free | wMem | wAck | wFwd | wInv | wPush | wMemAck | wRecall
  deriving DecidableEq, Repr

/-- What a home transaction serves: a request, a fill for held operations (R163, R186), a line of a maintenance walk, the recall of
a whole frame by a walk, quarantine work (R332), or a line of a cairn capture (R245). -/
inductive HteKind where
  | request | fill | walkLine (walk : Nat) | walkFrame (walk : Nat) | quarantine | capture
  deriving DecidableEq, Repr

/-- An answer kept until its continuation is granted: port, message, offset from the grant, master class. -/
structure Answer where
  port : Port
  msg : Msg
  after : Nat
  mclass : Nat
  payload : Bool
  deriving DecidableEq, Repr

/-- One home transaction entry (R123). `peer` is the core a forward or push went to; `gone` a NACK_GONE received (R137); `upgComp` an UPG
answered with COMP (R140); `frame` the key of a recalled frame; `arrived` a fill that found no way and waits in the fill buffer (R186);
`acks` the MEM_ACKs awaited by an answer in `ans` (R75) and `leader` the entry that holds that answer, plus 1; `fin` that no step of the home's
own remains. -/
structure Hte where
  st : HteState
  kind : HteKind
  req : Option Req
  grant : Nat
  needAck : Bool
  gotAck : Bool
  gotAns : Bool
  dclass : Bool
  pid : Nat
  op : BitVec 6
  line : Nat
  cover : BitVec 4
  pend : Nat
  rnode : Node
  rtxn : Txn
  peer : Nat
  gone : Bool
  upgComp : Bool
  frame : Nat
  arrived : Bool
  acks : Nat
  ans : List Answer
  leader : Nat
  fin : Bool
  deriving DecidableEq, Repr

/-- A free entry. -/
def Hte.none : Hte :=
  ⟨.free, .request, Option.none, 0, false, false, false, false, 0, 0, 0, 0, 0, 0, 0, 0, false, false, 0, false, 0, [], 0, false⟩

/-- Line-operation continuations (R27): the continuation of an HTE, the placement of a fill in the way that its eviction has vacated, the placement of a fill
that waits for a victim entry or a shelf frame (R84), the re-evaluation of a restored wait
(R219), and a drain that has ended and applies held arrivals (R208). -/
inductive Cont where
  | hte (i : Nat)
  | place (fill way : Nat)
  | placeWait (fill : Nat)
  | restored (waiter : Nat)
  deriving DecidableEq, Repr

/-- A continuation that is or will be a candidate: the fc from which it is one (R127), and what it waits for, if it waits (R79, R84, R258). -/
structure ContEntry where
  since : Nat
  wait : Option Wait
  what : Cont
  deriving DecidableEq, Repr

/-- A bank of a half (R27, R29, R123, R125): arbiter pointer, the fc after the slots of the last grant, the slots taken from the present fc on (0 a
second slot, 1 a grant), grants of the current damper period by PID and in all (R294), HTEs, hold queue, continuations, and the fc at which grants not
held leave the tag stage, each with the header PID of its request, or 16 for one of an internal requester (R126, R281). Bank h × 8 + b is active bank b of half h; bank 16 + h stands for the bank of half h that
serves no set, which only the patrol visits (R340). -/
structure Bank where
  ptr : Nat
  free : Nat
  taken : List (Nat × Nat)
  grants : Tbl Nat
  grantsAll : Nat
  htes : Tbl Hte
  holdq : List HoldEntry
  conts : List ContEntry
  tags : List (Nat × Nat)
  deriving DecidableEq, Repr

/-- A bank with nothing in it. -/
def Bank.idle : Bank := ⟨0, 0, [], [], 0, [], [], [], []⟩

/-- What a fill-buffer entry fetches for (R83, R84, R245). -/
inductive FillUse where
  | hte (i : Nat)
  | capture (entry idx : Nat)
  deriving DecidableEq, Repr

/-- A fill-buffer entry (R83): line, PID of the line and of the miss, master class, use, and once its data has arrived the data and
whether it may be compressed. -/
structure Fill where
  line : Nat
  pid : Nat
  hpid : Nat
  mclass : Nat
  use : FillUse
  arrived : Bool
  data : Line
  mayComp : Bool
  deriving DecidableEq, Repr

/-- A departure of a victim entry (R80): the TXN of its BINVs, answers still owed, whether its MEM_WR is out, whether dirty data is discarded
(INVAL, R91, and a release without FLUSH), the port of its messages (R22), whether a maintenance walk counts its writeback (R94), and the answers sent when
the entry frees (R91). -/
structure Depart where
  txn : Nat
  port : Port
  counted : Bool
  pend : Nat
  writing : Bool
  discards : Bool
  ans : List Answer
  deriving DecidableEq, Repr

/-- A victim-buffer entry (R79): the frame, its set, its insertion number, its departure, a recall under way with the fc from which its
reinstatement is a candidate (R81) and a lost line (R332). `empty` marks an unused entry. -/
structure Victim where
  frame : Frame
  setIdx : Nat
  ord : Nat
  depart : Option Depart
  recalling : Bool
  recallAt : Nat
  lost : Bool
  empty : Bool
  deriving DecidableEq, Repr

/-- What an originated transaction of the range 0x140 to 0x3FF serves (R132). -/
inductive TxnUse where
  | wbHte (bank i : Nat)
  | wbVictim (slot : Nat)
  | departInv (slot : Nat)
  | drain (p addr : Nat)
  | damper
  | router
  | saveWrite
  | restoreRead (k : Nat)
  deriving DecidableEq, Repr

/-- An originator that waits for a free TXN (R132); `since` is the fc in which it began to wait. -/
structure TxnWait where
  since : Nat
  port : Port
  due : Nat
  mclass : Nat
  payload : Bool
  msg : Msg
  use : TxnUse
  deriving DecidableEq, Repr

/-- The walks of the internal requesters: the pass over newly pinned ways (R47) or shelf ways (R260), given as a mask; the recall and the zero phase of a
release (R60); a maintenance walk with its scope, PID and range (R93); the flush walk of a half (R313); the close recall (R256); the eviction of a retired
frame (R335); and the walk of TIME_BASE over the replacement bits (R228). -/
inductive WalkKind where
  | activate (p : Pid) (ways : BitVec 16)
  | shelf (ways : BitVec 16)
  | sweep (p : Pid) (flush : Bool)
  | zero (p : Pid)
  | maint (op scope pid lo hi : Nat)
  | flush (half : Bool)
  | close (p : Pid)
  | retire (key : Nat)
  | timeBase
  deriving DecidableEq, Repr

/-- A walk in progress: in each bank the place it has reached, row × 16 + way, and the victim entry it has reached. -/
structure Walk where
  id : Nat
  kind : WalkKind
  pos : Tbl Nat
  vict : Nat
  deriving DecidableEq, Repr

/-- A multi-frame pinned operation (R102): the request, the fc of its first grant stage, steps still to do, steps done in each bank, the banks whose step waits
for a shelf frame (R258), an uncorrectable source, and the fc of the answer so far. -/
structure PinOp where
  req : Req
  start : Nat
  left : Nat
  done : Tbl Nat
  stalled : List Nat
  err : Bool
  last : Nat
  deriving DecidableEq, Repr

/-- A fan-out transaction (R113): the request, the data read, targets not yet served, the fc in which the data was in the buffer, whether the
first set has been served, the fc of the next delivery, and, by core, the fc from which a target that lacked a credit may be delivered to. -/
structure FanTx where
  req : Req
  data : Line
  pend : List Nat
  ready : Nat
  serving : Bool
  next : Nat
  lag : Tbl Nat
  deriving DecidableEq, Repr

/-- An entry that is not busy. -/
def FanTx.none : FanTx := ⟨⟨0, ⟨0, 0, 0, 0, 0, false, 0, 0, 0, 0, 0⟩, 0, false, false, 0⟩, 0, [], 0, false, 0, []⟩

/-- A waiter-table entry (R211, SY_WT_VIEW0, SY_WT_VIEW1): `pid` is the PID under which the object was found, `hpid` the request's own PID,
which its answer carries. -/
structure Waiter where
  obj : Nat
  dclass : Bool
  pid : Pid
  pin : Bool
  cmp : Nat
  kind : Nat
  st : Nat
  wait : Bool
  parity : Bool
  txn : Txn
  src : Node
  arg : Nat
  ord : Nat
  hpid : Pid
  deriving DecidableEq, Repr

/-- A drain-tracker entry (R208); `since` is the fc from which the drain continuation can be offered. -/
structure Drain where
  obj : Nat
  pin : Bool
  pid : Pid
  gen : Nat
  tick : Nat
  left : Nat
  busy : Bool
  since : Nat
  deriving DecidableEq, Repr

/-- A release that waits in the release sequencer (R212). -/
structure Release where
  port : Port
  due : Nat
  mclass : Nat
  msg : Msg
  slot : Nat
  drain : Option Nat
  tick : Nat
  deriving DecidableEq, Repr

/-- A cairn capture walk (R245): entry and line reached, and the line read that the hash unit has not absorbed yet (R244). -/
structure Capture where
  pid : Pid
  entry : Nat
  idx : Nat
  got : Option Line
  deriving DecidableEq, Repr

/-- The drain engine's work for one partition (R262): ledger line reached, block, entries of the open block, what ended, whether the close was late, and
whether the armed close is (R253, R266). -/
structure Harvest where
  ledger : Nat
  block : Nat
  index : List Word
  stop : Bool
  final : Bool
  aborted : Bool
  valid : Bool
  summary : Bool
  late : Bool
  armLate : Bool
  deriving DecidableEq, Repr

/-- No harvest. -/
def Harvest.idle : Harvest := ⟨0, 0, [], false, false, false, false, false, false, false⟩

/-- The egress arbiter of a port (R276). -/
structure Egress where
  gptr : Nat
  wptr : Nat
  burst : Nat
  g : List Nat
  deriving DecidableEq, Repr

/-- The fill regulation of a half (R279, R280). -/
structure FillReg where
  f : List Nat
  pool : Nat
  sunk : Nat
  starved : Bool
  deriving DecidableEq, Repr

/-- An open or closed throttle episode is in the log; this names the open ones (R306). -/
structure Episode where
  reason : Nat
  pid : Pid
  local_ : Bool
  slot : Nat
  deriving DecidableEq, Repr

/-- A phase-table entry (R297). -/
structure Phase where
  valid : Bool
  any : Bool
  pid : Pid
  phase : Nat
  d : List Nat
  samples : Nat
  lastUse : Nat
  deriving DecidableEq, Repr

/-- A rope-group entry's exchange (R301 to R303): the last boundary, the last proposal of each host (level + 1 and boundary count), the hosts
missed at the last boundary, the clamp ticks since the last boundary, whether the proposals of the boundary are still awaited, and the group
level that waits for its count (plus 1). -/
structure Group where
  boundary : Nat
  props : Tbl (Nat × Nat)
  missed : List Nat
  clampTicks : Nat
  waiting : Bool
  next : Nat
  deriving DecidableEq, Repr

/-- No exchange. -/
def Group.idle : Group := ⟨0, [], [], 0, false, 0⟩

/-- The levels of the lead's own rails from an apply count on: the larger of the feedback and the thermal level, the feedforward level, and the reason of
the first (R290, R291, R302). -/
structure OwnLevels where
  count : Nat
  clamp : Nat
  ff : Nat
  reason : Nat
  deriving DecidableEq, Repr

/-- The governor and dampers (spec 12). Activity tables have the key kind × 16 + PID (R304); `window` is the last window that ended; `own` holds the
lead's own levels in the order of their counts, `plan` the effective levels broadcast for each count and `heard` the last received, both as in PG_LEVEL;
`energy` holds rail, CURRENT and VOLT of the window under
attribution and `energyWin` its number (R305); a residue has its PID as key, and 16 in the lead's own (R305). -/
structure Gov where
  missRun : Nat
  fbReason : Nat
  fbRun : Nat
  thRun : Nat
  boostRun : Nat
  boostReq : Bool
  window : Nat
  done : Bool
  phases : Tbl Phase
  hints : List (Nat × Nat)
  announced : Tbl Nat
  levels : Tbl Nat
  windowLevels : Tbl Nat
  own : List OwnLevels
  plan : List (Nat × Word)
  heard : Word
  activity : Tbl Nat
  windowActivity : Tbl Nat
  residue : Tbl Nat
  energy : List (Nat × Nat × Nat)
  energyWin : Nat
  attributed : Nat
  episodes : List Episode
  logWords : Tbl (Word × Word)
  damperQ : List (Nat × Word)
  clamp : Bool
  clampUsed : Bool
  windowClamp : Bool
  droopLevel : Nat
  groups : Tbl Group
  deriving DecidableEq, Repr

/-- The ageing monitors, planner and record (spec 13): the set under way, the last set, the planner's values, and in the lead the entries of the selected
record bank, those collected for a write, the slices still to be collected, and the write. -/
structure Ageing where
  measuring : Bool
  broken : Bool
  startFc : Nat
  startGrants : Nat
  startCount : Word
  counts : Tbl Nat
  ratios : Tbl Nat
  slows : Tbl Nat
  base : Tbl Nat
  present : Bool
  fullExists : Bool
  assistBase : Nat
  voffBase : Nat
  assistProv : Nat
  voffProv : Nat
  fullSlows : Tbl Nat
  stored : Tbl (BitVec 256)
  collect : Tbl (BitVec 256)
  waiting : List Nat
  forced : Bool
  programming : Bool
  collecting : Bool
  written : List Byte
  deriving DecidableEq, Repr

/-- The power states of a half (R310). -/
inductive Power where
  | awake | retention | off | waking
  deriving DecidableEq, Repr

/-- One half's sleep control (R310 to R314): its state, a committed entry, and a wake trigger that waits. -/
structure Half where
  power : Power
  goal : Option Power
  wakePending : Bool
  fromOff : Bool
  deriving DecidableEq, Repr

/-- An error-log entry (R336). -/
structure LogEntry where
  stamp : Word
  log1 : Word
  log2 : Word
  deriving DecidableEq, Repr

/-- A pending count-bearing ring packet (R352): COUNT_SET or LEVELS. -/
inductive Timed where
  | countSet (a v : Word)
  | levels (l c : Word)
  deriving DecidableEq, Repr

/-- A ring packet (R351) as the lead sends it or a position passes it on. -/
structure RingPkt where
  typ : Nat
  dst : Nat
  arg : Nat
  flits : List (BitVec 32)
  deriving DecidableEq, Repr

/-- The ring stop (spec 15): packets that wait to leave, credits held, flits of the last packet still owed a credit, packets that have left, the
last 4 flits sent, consecutive failures of one flit (R349), packets that wait for their count (R352), the lead's broadcast writes under way
(R353) its silence after a MODE packet (R350), and the pulses of RING_IN_CR and RING_IN_NAK so far (R348, R349). -/
structure Ring where
  queue : List RingPkt
  credits : Nat
  owed : Nat
  out : List RingPkt
  last4 : List (BitVec 32)
  failures : Nat
  timed : List Timed
  bcasts : List Arr
  modeWait : Bool
  cr : Nat
  nak : Nat
  deriving DecidableEq, Repr

/-- A board-ring frame (R357). -/
structure BoardFrame where
  typ : Nat
  seq : Nat
  origin : Nat
  payload : BitVec 96
  tick : Nat
  deriving DecidableEq, Repr

/-- A board frame that waits to leave (R359): the first tick in which it may, its TYPE, ORIGIN and payload. -/
structure BoardDue where
  tick : Nat
  typ : Nat
  origin : Nat
  payload : BitVec 96
  deriving DecidableEq, Repr

/-- A control or training frame (R357): sent downstream or upstream, its CTYPE, SEQ and DATA. -/
structure CtlFrame where
  down : Bool
  ctype : Nat
  seq : Nat
  data : Nat
  deriving DecidableEq, Repr

/-- The board-ring port of the lead (R356 to R362): training, the link down until retrained, the next SEQ sent and received, a resend awaited, the last
8 frames sent, what has left, consecutive NAKs received and sent, the frames to forward and those to originate with the ticks in which one of each last left, BR_UP waiting for
the count, and the count of an armed adjustment. -/
structure Board where
  training : Bool
  down : Bool
  seq : Nat
  rxSeq : Nat
  resync : Bool
  kept : List BoardFrame
  out : List BoardFrame
  ctl : List CtlFrame
  naks : Nat
  rxNaks : Nat
  fwd : List BoardDue
  own : List BoardDue
  fwdAt : Option Nat
  ownAt : Option Nat
  upWait : Bool
  adjAt : Option Nat
  deriving DecidableEq, Repr

/-- Start-up (spec 16): the reset inputs and the rails, whether the slice has passed its rails' wait, SL_FUSE_OFF, the image read in 1-1-1 mode after a
quad read failed, the banks still to be streamed with their headers (true for B), the bytes of the stream and its packets, the staged share, the patch RAM, the ageing
entry, the entries of the selected record bank with its source, SEQ and POH, the record banks' addresses, the crossings aligned and at which count, the count at
step 5, the count loaded, the flue opened, a single-slice start-up, a roster stored, and OP and LEN of the flash command under way. -/
structure Startup where
  aonReset : Bool
  sliceReset : Bool
  rails : Bool
  powered : Bool
  fuseOff : Bool
  single : Bool
  candidates : List (Bool × BitVec 256)
  image : List Byte
  packets : Nat
  staged : Bool
  stageBad : Bool
  records : List (Nat × List Byte)
  patch : Tbl Byte
  ageEntry : BitVec 256
  ageStored : Tbl (BitVec 256)
  recSrc : Nat
  recSeq : Nat
  recPoh : Nat
  recBanks : Option (Nat × Nat)
  aligned : Bool
  alignedCount : Word
  step5At : Word
  loaded : Bool
  flueOpen : Bool
  reentry : Bool
  rosterSeen : Bool
  nv : Nat × Nat
  deriving DecidableEq, Repr

/-- The test port (R394 to R396). -/
structure Tap where
  ir : BitVec 4
  res : Nat
  data : Word
  dr : BitVec 80
  deriving DecidableEq, Repr

/-- The interrupt lines and pins (R337, R393, R221, R411): level sources as they stand, the sampled levels, the lines, and the SL_IRQ_MGMT
pulse. -/
structure Pins where
  errSrc : Bool
  sampleSrc : Bool
  syncSrc : Bool
  errSmp : Bool
  sampleSmp : Bool
  syncSmp : Bool
  irqErr : Bool
  irqSample : Bool
  irqSync : Bool
  mgmt : Bool
  mgmtGap : Bool
  mgmtMore : Bool
  mgmtCount : Nat
  telSync : Nat
  cfgDone : Bool
  cfgErr : Bool
  deriving DecidableEq, Repr

/-- A save or restore in progress (R219): the partition, the save area, the entries to load, those moved so far, the writes not yet answered,
whether a save still waits for the drain trackers, and the result so far. -/
structure SaveOp where
  restore : Bool
  pid : Pid
  base : Nat
  total : Nat
  moved : Nat
  left : Nat
  waits : Bool
  code : Nat
  deriving DecidableEq, Repr

/-- What a waiting command of the present fc brings: a frame operation or another request to a bank's arbiter, fill data, a grant of an internal
requester in one bank or in any, or a register write that names the retire table (R29, R189, R335). -/
inductive Coming where
  | req (op : BitVec 6) (a : Arr)
  | fill (a : Arr)
  | inner (bk : Nat)
  | inners
  | table
  deriving DecidableEq, Repr

/-- A readback that waits for the grant of its bank (R397): the array, the index and the word of its codeword, and the node that started it. -/
structure TdReq where
  arr : Nat
  idx : Nat
  word : Nat
  node : Node
  deriving DecidableEq, Repr

/-- Everything the spec gives the slice.
Time: the fast-clock cycle `fc`, the REFCLK edges `refs` and the phase `frac` between them, the global `count`, and `freqHi` (R232, R233). `fresh` numbers the free
values and the messages that leave.
Registers: `regs`; what events have set or added in this fc (`now`), what software has written in it (`wroteRegs`), and the counter configurations that those
writes replace (`pcWas`) (R14, R15, R387); the home map and its CRCs under way (R24, R41).
Arrays: `frames`, replacement words, victim buffer, ledger, the wrong bits of their codewords (`flips`), and the injected one (R67, R79, R251, R328, R339).
Grants: the banks with their hold queues, HTEs and continuations, the register arbiter (R31), a readback under way (R397), fills, TXNs and their waiters (R83,
R132), requests at the inputs, what this fc still brings (`ahead`), and register accesses that wait.
Ports: credits, egress, what has been sent, and the egress arbiters (R276, R403); `ansPort` is the port of the answer that is being taken, if one is.
Engines: fill regulation and its window, multi-frame operations, fan-outs, ACC_ANCHOR notes, sync waiters, drains and releases, walks, the capture, the launch time
base, harvests, the error log, repairs, quarantine, the patrol, spare copies, and a save (R102, R113, R165, R205, R228, R245, R249, R279, R331, R341, R342).
Units: governor, ageing, the two halves, control ring, board ring, start-up, test port and pins. -/
structure Slice where
  fc : Nat
  ansPort : Option Port
  refs : Nat
  frac : Nat
  count : Word
  freqHi : Bool
  fresh : Nat
  regs : Tbl Word
  now : Tbl Word
  wroteRegs : List Nat
  pcWas : List (Nat × Word)
  homeMap : Tbl (BitVec 6)
  hmCrc : List (Nat × BitVec 32)
  frames : Tbl Frame
  repl : Tbl (BitVec 15)
  victims : Tbl Victim
  ledger : Tbl Word
  flips : Tbl (BitVec 72)
  injAt : Option Nat
  banks : Tbl Bank
  regPtr : Nat
  regFree : Nat
  tdAt : Option Nat
  tdReq : Option TdReq
  fills : Tbl Fill
  txns : Tbl TxnUse
  txnWait : List TxnWait
  inputs : List Req
  ahead : List Coming
  regWait : List Req
  rxCred : Tbl Nat
  txCred : Tbl Nat
  egress : List Out
  sent : List Sent
  eports : Tbl Egress
  fillRegs : Tbl FillReg
  winFc : Nat
  damperDue : Bool
  pinOps : List PinOp
  fan : Tbl FanTx
  foCred : Tbl Nat
  foSoon : List (Nat × Nat × Nat)
  foPort : Tbl Nat
  anchors : Tbl Nat
  waiters : Tbl Waiter
  drains : Tbl Drain
  releases : List Release
  walks : List Walk
  relFlush : Tbl Bool
  relWait : Tbl Bool
  capture : Option Capture
  timeBase : Option Nat
  outLat : Tbl Nat
  relLast : Nat
  hashFree : Nat
  harvests : Tbl Harvest
  drainPtr : Nat
  shelfSeq : Nat
  grantsTotal : Nat
  errLog : Tbl LogEntry
  repairs0 : List Nat
  repairs1 : List Nat
  quarantine : List Nat
  rtLate : List Nat
  lostKeys : List Nat
  patrols : List (Nat × Nat)
  defers : Tbl (List (Nat × Nat))
  sparing : List (Bool × Nat)
  save : Option SaveOp
  gov : Gov
  age : Ageing
  half0 : Half
  half1 : Half
  ring : Ring
  board : Board
  start : Startup
  tap : Tap
  pins : Pins
  deriving DecidableEq, Repr

/-- The machine: the slice and the queue of commands that wait, first in, first out. -/
structure State where
  slice : Slice
  pending : List Instr
  deriving DecidableEq, Repr

/-- Why the machine stops. -/
inductive Fault where
  /-- A mesh message arrived although its sender held no credit of the channel. Raised by the command of that message. R403 and R1 say
  that the slice's behaviour is not specified. Safe: the model stops where the spec says nothing. -/
  | uncreditedMessage
  deriving DecidableEq, Repr

/-- Why a command has no meaning. -/
inductive Refusal where
  /-- The command is not modelled yet. Raised by a refused arm of exec. Safe. -/
  | notModelled (mnemonic : String)
  deriving DecidableEq, Repr

/-- The register window at reset: the fields with a nonzero reset value (R41, R94, R307, R343); every other field reads zero. (DESIGN CHOICE, log 1) -/
def resetRegs : Tbl Word :=
  [(ID_REV, 0x0A470D7500000300), (ID_GEOM, 0x000000200C100182), (CZ_CTRL, 0x0000180000000000),
   (PG_PHASE_HINT, 0xFFFF), (EC_CTRL, 0x2F)]

/-- The egress arbiters at reset (R276). -/
def Egress.init : Egress := ⟨0, 0, 0, List.replicate 32 0⟩

/-- The fill regulation at reset (R279). -/
def FillReg.init : FillReg := ⟨List.replicate 32 0, 0, 0, false⟩

/-- The governor at reset (R287 to R306). -/
def Gov.init : Gov :=
  { missRun := 0, fbReason := 0, fbRun := 0, thRun := 0, boostRun := 0, boostReq := false, window := 0, done := false, phases := [], hints := [],
    announced := [], levels := [], windowLevels := [], own := [], plan := [], heard := 0, activity := [], windowActivity := [], residue := [],
    energy := [], energyWin := 0, attributed := 0, episodes := [], logWords := [], damperQ := [], clamp := false, clampUsed := false, windowClamp := false,
    droopLevel := 0, groups := [] }

/-- The ageing logic at reset (R316 to R323). -/
def Ageing.init : Ageing :=
  { measuring := false, broken := false, startFc := 0, startGrants := 0, startCount := 0, counts := [], ratios := [], slows := [], base := [],
    present := false, fullExists := false, assistBase := 0, voffBase := 0, assistProv := 0, voffProv := 0, fullSlows := [], stored := [],
    collect := [], waiting := [], forced := false, programming := false, collecting := false, written := [] }

/-- The ring stop in ember reset (R345, R348). -/
def Ring.init : Ring := ⟨[], 8, 0, [], [], 0, [], [], false, 0, 0⟩

/-- The board-ring port in ember reset (R356). -/
def Board.init : Board := ⟨false, false, 0, 0, false, [], [], [], 0, 0, [], [], none, none, false, none⟩

/-- Start-up in ember reset (R364): SL_AON_RSTN asserted. -/
def Startup.init : Startup :=
  { aonReset := true, sliceReset := true, rails := false, powered := false, fuseOff := false, single := false, candidates := [], image := [],
    packets := 0, staged := false, stageBad := false, records := [], patch := [], ageEntry := 0, ageStored := [], recSrc := 0,
    recSeq := 0, recPoh := 0, recBanks := none, aligned := false, alignedCount := 0, step5At := 0, loaded := false, flueOpen := false,
    reentry := false, rosterSeen := false, nv := (0, 0) }

/-- The lines and pins in ember reset (R400, R411). -/
def Pins.init : Pins :=
  ⟨false, false, false, false, false, false, false, false, false, false, false, false, 0, 0, false, false⟩

/-- The slice in ember reset. (DESIGN CHOICE, log 1) -/
def Slice.reset : Slice :=
  { fc := 0, ansPort := none, refs := 0, frac := 0, count := 0, freqHi := false, fresh := 0, regs := resetRegs, now := [], wroteRegs := [],
    pcWas := [], homeMap := [], hmCrc := [], frames := [], repl := [], victims := [], ledger := [], flips := [], injAt := none, banks := [],
    regPtr := 0, regFree := 0, tdAt := none, tdReq := none, fills := [], txns := [], txnWait := [], inputs := [], ahead := [], regWait := [],
    rxCred := [], txCred := [], egress := [], sent := [], eports := [], fillRegs := [], winFc := 0, damperDue := false, pinOps := [], fan := [],
    foCred := [], foSoon := [], foPort := [], anchors := [], waiters := [], drains := [], releases := [], walks := [], relFlush := [], relWait := [],
    capture := none, timeBase := none, outLat := [], relLast := 0, hashFree := 0, harvests := [], drainPtr := 0, shelfSeq := 0, grantsTotal := 0,
    errLog := [], repairs0 := [], repairs1 := [], quarantine := [], rtLate := [], lostKeys := [], patrols := [], defers := [], sparing := [],
    save := none, gov := Gov.init, age := Ageing.init, half0 := ⟨.awake, none, false, false⟩, half1 := ⟨.awake, none, false, false⟩,
    ring := Ring.init, board := Board.init, start := Startup.init, tap := ⟨1, 0, 0, 0⟩, pins := Pins.init }

/-- The machine in ember reset: SL_AON_RSTN asserted, nothing queued (R364 step 0). (DESIGN CHOICE, log 1) -/
def State.reset : State := ⟨Slice.reset, []⟩

end Sys2Proof.Machine
end

