-- ==== Sys2Proof/Machine/Ops.lean ====
section
/-! DEFINITION. The named operations over the state: registers and counters (spec 00_scope.md R11, R12), addresses and nodes
(01_slice_anatomy.md R18 to R25, 05_coherence_home.md R118), egress (R22, R36 to R38), the performance counters
(17_counters_debug.md R386 to R393), the error log (14_error_protection.md R336) and bank grants (R29, R32). -/

namespace Sys2Proof.Machine

/-! ### Registers -/

/-- The stored value of the register at an offset of the window. (DESIGN CHOICE, log 10) -/
def Slice.reg (s : Slice) (a : Nat) : Word := Tbl.at 0 s.regs a

/-- Store a register. (DESIGN CHOICE, log 10) -/
def Slice.setReg (s : Slice) (a : Nat) (v : Word) : Slice := { s with regs := Tbl.put 0 s.regs a v }

/-- A field of a register. -/
def Slice.fld (s : Slice) (a : Nat) (f : Fld) : Nat := getF (s.reg a) f

/-- Store one field of a register. -/
def Slice.setFld (s : Slice) (a : Nat) (f : Fld) (v : Nat) : Slice := s.setReg a (setF (s.reg a) f v)

/-- A one-bit field as a Bool. -/
def Slice.flag (s : Slice) (a : Nat) (f : Fld) : Bool := s.fld a f != 0

/-- What events have set in a register, or added to its counts, in the present fc (R14). -/
def Slice.nowIn (s : Slice) (a : Nat) : Word := Tbl.at 0 s.now a

/-- Bits that an event sets in the present fc: a clear of this fc leaves them set (R14). -/
def Slice.noteNow (s : Slice) (a : Nat) (w : Word) : Slice := { s with now := Tbl.put 0 s.now a (s.nowIn a ||| w) }

/-- An event sets a one-bit field. -/
def Slice.raise (s : Slice) (a : Nat) (f : Fld) : Slice := (s.setFld a f 1).noteNow a (setF (0 : Word) f 1)

/-- An event is captured in a register, whose VALID bit it sets. -/
def Slice.latch (s : Slice) (a : Nat) (v : Word) : Slice := (s.setReg a v).noteNow a v

/-- Software writes a register in the present fc (R15). -/
def Slice.noteWrote (s : Slice) (a : Nat) : Slice := { s with wroteRegs := a :: s.wroteRegs }

/-- Software has written a register in the present fc, so that an update of this fc by hardware is lost (R15). -/
def Slice.wroteNow (s : Slice) (a : Nat) : Bool := s.wroteRegs.contains a

/-- Clear a field. -/
def Slice.clearF (s : Slice) (a : Nat) (f : Fld) : Slice := s.setFld a f 0

/-- Add to a counting field, which saturates at its maximum; what this fc adds is kept, since a clear of this fc comes before it. -/
def Slice.bump (s : Slice) (a : Nat) (f : Fld) (n : Nat) : Slice :=
  let add := fun (w : Word) => setF w f (satAdd (2 ^ f.len - 1) (getF w f) n)
  { s.setReg a (add (s.reg a)) with now := Tbl.put 0 s.now a (add (s.nowIn a)) }

/-- A fresh sequence number. -/
def Slice.tick1 (s : Slice) : Slice := { s with fresh := s.fresh + 1 }

/-- SL_IRQ_MGMT is raised: a pulse is owed (R411). (DEDUCED, log 46) -/
def Slice.raiseMgmt (s : Slice) : Slice := { s with pins := { s.pins with mgmtMore := true } }

/-- Raise SL_IRQ_MGMT when a condition holds. -/
def Slice.raiseMgmtIf (s : Slice) (c : Bool) : Slice := if c then s.raiseMgmt else s

/-- The slice is READY (R379). -/
def Slice.ready (s : Slice) : Bool := s.flag ID_STATUS ID_STATUS_READY

/-- Slice 0 is the lead slice. -/
def Slice.lead (s : Slice) : Bool := s.flag ID_SLICE ID_SLICE_LEAD

/-- The slice ID. -/
def Slice.id (s : Slice) : Nat := s.fld ID_SLICE ID_SLICE_SLICE_ID

/-- The address of an offset of this slice's own window (R7). -/
def Slice.ownAddr (s : Slice) (off : Nat) : Nat :=
  s.fld ID_CFG_BASE ID_CFG_BASE_BASE * 2 ^ 22 + s.id * 0x10000 + off

/-- The control of a half. -/
def Slice.half (s : Slice) (h : Nat) : Half := if h = 0 then s.half0 else s.half1

/-- Store the control of a half. -/
def Slice.setHalf (s : Slice) (h : Nat) (v : Half) : Slice := if h = 0 then { s with half0 := v } else { s with half1 := v }

/-- The half is AWAKE and has not committed to leave that state, so that its banks grant (R310, R312). -/
def Slice.awake (s : Slice) (h : Nat) : Bool := (s.half h).power = .awake && (s.half h).goal = none

/-- A wake is triggered: a sleeping half passes to WAKING, and a trigger during an entry is served when the state is reached (R314). -/
def Slice.wakeTrigger (s : Slice) (h : Nat) : Slice :=
  let v := s.half h
  match v.power with
  | .awake => if v.goal = none then s else s.setHalf h { v with wakePending := true }
  | .waking => s
  | .retention => s.setHalf h { v with power := .waking, wakePending := false, fromOff := false }
  | .off => s.setHalf h { v with power := .waking, wakePending := false, fromOff := true }

/-! ### Partitions -/

/-- The state of a partition: 0 FREE, 1 ACTIVATING, 2 ACTIVE, 3 RELEASING (R43). -/
def Slice.ptState (s : Slice) (p : Nat) : Nat := s.fld (PT_STATUS p) PT_STATUS_STATE

/-- The partition counts as active (R43). -/
def Slice.ptActive (s : Slice) (p : Nat) : Bool := s.ptState p != 0

/-- Some partition other than PID 0 counts as active (R13). -/
def Slice.anyActive (s : Slice) : Bool := (List.range 16).any (fun p => p != 0 && s.ptActive p)

/-- The partition is sealed (R56). -/
def Slice.sealed (s : Slice) (p : Nat) : Bool := s.flag (PT_CTRL p) PT_CTRL_SEAL

/-- The pinned ways of a partition (R46). -/
def Slice.pinMask (s : Slice) (p : Nat) : BitVec 16 := BitVec.ofNat 16 (s.fld (PT_WAYS p) PT_WAYS_PIN_MASK)

/-- The ways pinned by any partition that counts as active (R68). -/
def Slice.pinnedWays (s : Slice) : BitVec 16 :=
  (List.range 16).foldl (fun m p => if s.ptActive p then m ||| s.pinMask p else m) 0

/-- The partition whose pinned ways hold a way. -/
def Slice.pinOwner (s : Slice) (w : Nat) : Option Nat :=
  firstBelow 16 (fun p => s.ptActive p && (s.pinMask p).getLsbD w)

/-- The shelf ways of a value of SHELF_WAYS (R258). -/
def shelfWaysOf (n : Nat) : BitVec 16 := if n = 1 then 0x8000 else if n = 2 then 0xC000 else 0

/-- The shelf ways in effect (R258). -/
def Slice.shelfWays (s : Slice) : BitVec 16 := shelfWaysOf (s.fld EP_CTRL EP_CTRL_SHELF_WAYS)

/-- The effective cache mask of a partition (R46). -/
def Slice.cacheMask (s : Slice) (p : Nat) : BitVec 16 :=
  let m := BitVec.ofNat 16 (s.fld (PT_WAYS p) PT_WAYS_CACHE_MASK)
  if p = 0 then m &&& ~~~(s.pinnedWays ||| s.shelfWays) else m &&& ~~~(s.pinMask p)

/-- The valid region-map entry that covers an address (R48). -/
def Slice.region (s : Slice) (addr : Nat) : Option Nat :=
  firstBelow 64 (fun i => s.flag (RM_HI i) RM_HI_VALID && decide (s.fld (RM_LO i) RM_LO_BASE ≤ addr / 2 ^ 21)
    && decide (addr / 2 ^ 21 ≤ s.fld (RM_HI i) RM_HI_LIMIT))

/-- The owner of an address (R48). -/
def Slice.owner (s : Slice) (addr : Nat) : Nat :=
  match s.region addr with
  | some i => s.fld (RM_HI i) RM_HI_PID
  | none => 0

/-- The address lies in a range with RDONLY = 1 (R51). -/
def Slice.rdonly (s : Slice) (addr : Nat) : Bool :=
  match s.region addr with
  | some i => s.flag (RM_HI i) RM_HI_RDONLY
  | none => false

/-! ### Address homing (R18, R23) -/

/-- The block address (R23). -/
def blockOf (addr : Nat) : Nat := addr / 512 % 2 ^ 39

/-- The home-map bucket of a block (R23). -/
def bucketOf (b : Nat) : Nat := (b % 1024) ^^^ (b / 2 ^ 10 % 1024) ^^^ (b / 2 ^ 20 % 1024) ^^^ (b / 2 ^ 30 % 512)

/-- The set of a block (R23). -/
def setOf (b : Nat) : Nat := (b % 4096) ^^^ (b / 2 ^ 12 % 4096) ^^^ (b / 2 ^ 24 % 4096) ^^^ (b / 2 ^ 36 % 8)

/-- The block held by a frame of a set with a given TAG (R66): the inverse of R23. -/
def blockFrom (set' tag : Nat) : Nat :=
  tag * 4096 + (set' ^^^ (tag % 4096) ^^^ (tag / 2 ^ 12 % 4096) ^^^ (tag / 2 ^ 24 % 8))

/-- The half of a set (R18). -/
def halfOfSet (x : Nat) : Nat := x % 2

/-- The bank of a set (R18). -/
def setBank (x : Nat) : Nat := x / 2 % 8

/-- The row of a set (R18). -/
def setRow (x : Nat) : Nat := x / 16 % 256

/-- The number of a bank over both halves. -/
def bankKey (x : Nat) : Nat := halfOfSet x * 8 + setBank x

/-- The line number of an address, addr[47:7]. -/
def lineNo (addr : Nat) : Nat := addr / 128 % 2 ^ 41

/-- The set of a line. -/
def lineSet (line : Nat) : Nat := setOf (line / 4)

/-- The home of an address by the home map (R23, R24). -/
def Slice.homeOf (s : Slice) (addr : Nat) : Nat := (Tbl.at 0 s.homeMap (bucketOf (blockOf addr))).toNat

/-- The physical bank that serves an active bank: the spare where EC_SPARE maps it and its copy has ended (R19, R342). -/
def Slice.physBank (s : Slice) (h b : Nat) : Nat :=
  let v := if h = 0 then s.flag EC_SPARE EC_SPARE_H0_VALID else s.flag EC_SPARE EC_SPARE_H1_VALID
  let m := if h = 0 then s.fld EC_SPARE EC_SPARE_H0_BANK else s.fld EC_SPARE EC_SPARE_H1_BANK
  if v && decide (m = b) && !(s.sparing.contains (decide (h = 1), b)) then 8 else b

/-- The key of a frame in the table of frames. (DESIGN CHOICE, log 11) -/
def frameKeyOf (h pb row way : Nat) : Nat := ((h * 9 + pb) * 256 + row) * 16 + way

/-- The key of the frame of a set and way. -/
def Slice.fkey (s : Slice) (x way : Nat) : Nat :=
  frameKeyOf (halfOfSet x) (s.physBank (halfOfSet x) (setBank x)) (setRow x) way

/-- The half, physical bank, row and way of a frame key. -/
def keyHalf (k : Nat) : Nat := k / 36864
def keyPBank (k : Nat) : Nat := k / 4096 % 9
def keyRow (k : Nat) : Nat := k / 16 % 256
def keyWay (k : Nat) : Nat := k % 16

/-- The active bank that a physical bank serves, if any. -/
def Slice.activeBank (s : Slice) (h pb : Nat) : Option Nat := firstBelow 8 (fun b => s.physBank h b = pb)

/-- The set of a frame key, if its bank serves one. -/
def Slice.keySet (s : Slice) (k : Nat) : Option Nat :=
  (s.activeBank (keyHalf k) (keyPBank k)).map (fun b => keyRow k * 16 + b * 2 + keyHalf k)

/-! ### Nodes, cores and classes -/

/-- The node of a port (R41). -/
def Slice.node (s : Slice) (p : Port) : Node :=
  BitVec.ofNat 11 (s.fld ID_NODE ⟨11 * p.val, 11⟩)

/-- The destination names one of the slice's nodes (R25). -/
def Slice.mine (s : Slice) (n : Node) : Bool := (List.finRange 4).any (fun p => s.node p = n)

/-- The number of mapped cores (R118). -/
def Slice.coreCount (s : Slice) : Nat :=
  min (min 1024 (s.fld CO_NODEMAP CO_NODEMAP_CORE_COUNT)) (2048 - s.fld CO_NODEMAP CO_NODEMAP_CORE_BASE)

/-- The core of a node (R118). -/
def Slice.coreOf (s : Slice) (n : Nat) : Option Nat :=
  let base := s.fld CO_NODEMAP CO_NODEMAP_CORE_BASE
  if base ≤ n ∧ n - base < s.coreCount then some (n - base) else none

/-- The node of a core (R118). -/
def Slice.nodeOf (s : Slice) (c : Nat) : Option Nat :=
  if c < s.coreCount then some (s.fld CO_NODEMAP CO_NODEMAP_CORE_BASE + c) else none

/-- The core is mapped (R118). -/
def Slice.mapped (s : Slice) (c : Nat) : Bool := decide (c < s.coreCount)

/-- The master class of a source node (R274). -/
def Slice.classOf (s : Slice) (n : Nat) : Nat :=
  let dma := match firstBelow 8 (fun i => s.flag (BW_CLASSMAP i) BW_CLASSMAP_VALID
      && decide (s.fld (BW_CLASSMAP i) BW_CLASSMAP_NODE_LO ≤ n) && decide (n ≤ s.fld (BW_CLASSMAP i) BW_CLASSMAP_NODE_HI)) with
    | some i => 24 + min 5 (s.fld (BW_CLASSMAP i) BW_CLASSMAP_CLASS)
    | none => 29
  match s.coreOf n with
  | some c => if c / 32 < 24 then c / 32 else dma
  | none => dma

/-! ### Performance counters (R386 to R393) -/

/-- An occurrence of an event: its PID and half where it has them, and what a sample records (R393). -/
structure Occ where
  pid : Option Nat
  half : Option Nat
  addr : Nat
  pin : Bool
  port : Nat
  cls : Nat
  op : Nat
  deriving DecidableEq, Repr

/-- An occurrence of no request. -/
def Occ.none : Occ := ⟨Option.none, Option.none, 0, false, 5, 0, 0⟩

/-- A field of counter n's configuration as it counts in the present fc: a write takes effect in the next (R387). -/
def Slice.pcCfg (s : Slice) (n : Nat) (f : Fld) : Nat := getF ((s.pcWas.lookup n).getD (s.reg (PC_CFG n))) f

/-- The configuration of counter n that a write replaces. -/
def Slice.pcKeep (s : Slice) (n : Nat) : Slice := { s with pcWas := s.pcWas ++ [(n, s.reg (PC_CFG n))] }

/-- The occurrence passes the filters of counter n (R389). -/
def Slice.pcPasses (s : Slice) (n : Nat) (o : Occ) : Bool :=
  let h := s.pcCfg n PC_CFG_HALF
  let owner := if n < 28 then s.pcCfg n PC_CFG_OWNER else 0
  let halfOk := match o.half with
    | none => true
    | some x => h = 0 || h = 3 || h = x + 1
  let pidOk := match o.pid with
    | none => true
    | some p => if owner != 0 then p = owner else s.pcCfg n PC_CFG_PID_EN = 0 || p = s.pcCfg n PC_CFG_PID
  halfOk && pidOk

/-- A sample of an occurrence into record k, or LOST (R393). -/
def Slice.pcSample (s : Slice) (k ev : Nat) (o : Occ) : Slice :=
  if s.flag (PC_SMP1 k) PC_SMP1_VALID then s.raise (PC_SMP1 k) PC_SMP1_LOST
  else
    let p := o.pid.getD 0
    let hide := s.sealed p
    let w0 := setF (setF (0 : Word) PC_SMP0_PIN (b2n o.pin)) PC_SMP0_ADDR (if hide then 0 else o.addr)
    let w1 := setF (setF (setF (setF (setF (setF (s.reg (PC_SMP1 k)) PC_SMP1_VALID 1) PC_SMP1_EVENT ev) PC_SMP1_CLASS o.cls)
      PC_SMP1_OPCODE o.op) PC_SMP1_PORT o.port) PC_SMP1_PID p
    ((s.setReg (PC_SMP0 k) w0).latch (PC_SMP1 k) w1).setReg (PC_SMP2 k) s.count

/-- Counter n takes u occurrences (R387, R392, R393). -/
def Slice.pcAdd (s : Slice) (n ev u : Nat) (o : Occ) : Slice :=
  let sum := s.fld (PC_VAL n) PC_VAL_VALUE + u
  if s.wroteNow (PC_VAL n) then s
  else if sum < 2 ^ 48 then s.setFld (PC_VAL n) PC_VAL_VALUE sum
  else
    let s := s.raise PC_OVF ⟨n, 1⟩
    if n < 28 then s.setFld (PC_VAL n) PC_VAL_VALUE (sum - 2 ^ 48)
    else
      let k := n - 28
      (s.setFld (PC_VAL n) PC_VAL_VALUE ((s.fld (PC_RELOAD k) PC_RELOAD_RELOAD + (sum - 2 ^ 48)) % 2 ^ 48)).pcSample k ev o

/-- Event `ev` occurs u times (R386). (DEDUCED, log 62) -/
def Slice.pcEv (s : Slice) (ev u : Nat) (o : Occ) : Slice :=
  if u = 0 || !(s.flag PC_CTRL PC_CTRL_EN) then s
  else (List.range 32).foldl (fun s n =>
    if s.pcCfg n PC_CFG_ENABLE = 1 && s.pcCfg n PC_CFG_EVENT = ev && s.pcPasses n o then s.pcAdd n ev u o else s) s

/-! ### Error log (R336) -/

/-- The violation types of R336. -/
def isViolType (t : Nat) : Bool := decide (0x07 ≤ t) && decide (t ≤ 0x0E)

/-- The event is recorded in the error log (R336). -/
def Slice.logErr (s : Slice) (t : Nat) (log1 : Word) (pid : Nat) : Slice :=
  if isViolType t && !(s.flag EC_CTRL EC_CTRL_LOG_VIOL) then s
  else
    let s := if isViolType t then s.raise EC_STATUS EC_STATUS_VIOL else s
    let head := s.fld EC_LOG_STATUS EC_LOG_STATUS_HEAD
    let count := s.fld EC_LOG_STATUS EC_LOG_STATUS_COUNT
    let newest := (head + 15) % 16
    let e := Tbl.at ⟨0, 0, 0⟩ s.errLog newest
    if count != 0 && e.log2.getLsbD 63 && getF e.log2 ⟨56, 5⟩ = t && e.log1 = log1 && getF e.log2 ⟨0, 4⟩ = pid then
      let e2 : LogEntry := { e with log2 := setF e.log2 ⟨48, 8⟩ (satAdd 255 (getF e.log2 ⟨48, 8⟩) 1) }
      { s with errLog := Tbl.put ⟨0, 0, 0⟩ s.errLog newest e2 }
    else
      let full := (Tbl.at ⟨0, 0, 0⟩ s.errLog head).log2.getLsbD 63
      let s := if full then s.raise EC_LOG_STATUS EC_LOG_STATUS_OVF else s
      let ent : LogEntry := ⟨s.count, log1, setF (setF (setF (0 : Word) ⟨63, 1⟩ 1) ⟨56, 5⟩ t) ⟨0, 4⟩ pid⟩
      let s := { s with errLog := Tbl.put ⟨0, 0, 0⟩ s.errLog head ent }
      (s.setFld EC_LOG_STATUS EC_LOG_STATUS_HEAD ((head + 1) % 16)).setFld EC_LOG_STATUS EC_LOG_STATUS_COUNT (min 16 (count + 1))

/-- LOG1 of the types that hold an address and a source node (R336). -/
def log1Addr (addr src : Nat) : Word := setF (setF (0 : Word) ⟨0, 48⟩ addr) ⟨48, 11⟩ src

/-! ### Egress (R22, R36 to R38, R414) -/

/-- A port of the owning half, of the same parity as the port of the request (R22). (DEDUCED, log 52) -/
def outPort (h : Nat) (p : Port) : Port := ⟨h % 2 * 2 + p.val % 2, by omega⟩

/-- Port 0 or 2, for messages of no request (R22). (DEDUCED, log 52) -/
def evenPort (h : Nat) : Port := ⟨h % 2 * 2, by omega⟩

/-- A message takes its place at egress; its head leaves no earlier than `due`. (DEDUCED, log 8) -/
def Slice.emit (s : Slice) (p : Port) (due mclass : Nat) (payload : Bool) (m : Msg) : Slice :=
  { s with egress := s.egress ++ [⟨p, due, s.fresh, mclass, payload, { m with src := s.node p }, none⟩], fresh := s.fresh + 1 }

/-- The class encoding of R36. -/
def clsCode : Cls → Nat
  | .req => 0
  | .fwd => 1
  | .rsp => 2
  | .dat => 3

/-- An answer to a request (R38): its class, opcode, EXT0 and payload. -/
def answerTo (a : Arr) (cls : Cls) (op : BitVec 6) (ext0 : BitVec 15) (pl : Payload) : Msg :=
  ⟨cls, op, 0, a.src, a.pid, a.txn, a.dclass, 0, ext0, 0, 0, pl⟩

/-- A header-only answer leaves at `due` (R38). -/
def Slice.sendRsp (s : Slice) (p : Port) (due : Nat) (a : Arr) (op : BitVec 6) (ext0 : BitVec 15) : Slice :=
  s.emit p due (s.classOf a.src.toNat) false (answerTo a .rsp op ext0 0)

/-- An answer with a payload leaves at `due` (R38). -/
def Slice.sendDat (s : Slice) (p : Port) (due : Nat) (a : Arr) (op : BitVec 6) (ext0 : BitVec 15) (pl : Payload) : Slice :=
  s.emit p due (s.classOf a.src.toNat) true (answerTo a .dat op ext0 pl)

/-! ### Activity (R304) -/

/-- The rail kinds of R301, for the keys of the activity tables. -/
abbrev K_LOGIC : Nat := 0
abbrev K_SRAM : Nat := 1
abbrev K_MEM : Nat := 2

/-- Activity of a kind is added for a PID (R304). -/
def Slice.addAct (s : Slice) (k p n : Nat) : Slice :=
  { s with gov := { s.gov with activity := Tbl.put 0 s.gov.activity (k * 16 + p) (Tbl.at 0 s.gov.activity (k * 16 + p) + n) } }

/-- A weight of PG_ACT_WT. -/
def Slice.weight (s : Slice) (f : Fld) : Nat := s.fld PG_ACT_WT f

/-- A bank grant counts for the lookup PID of its candidate, and for PID 0 when it has none (R304). -/
def Slice.grantAct (s : Slice) (o : Occ) : Slice :=
  let p := o.pid.getD 0
  (s.addAct K_LOGIC p (s.weight PG_ACT_WT_W_GRANT_L)).addAct K_SRAM p (s.weight PG_ACT_WT_W_GRANT_S)

/-! ### Bank grants (R29, R32, R33) -/

/-- Half-ticks of fc in a REFCLK period: 11 fc at 1.1 GHz, 12.5 fc at 1.25 GHz (R233, R388). -/
def Slice.edgeAt (s : Slice) : Nat := if s.freqHi then 25 else 22

/-- The global count at an fc not before the present one (R233). -/
def Slice.countAt (s : Slice) (g : Nat) : Word := s.count + BitVec.ofNat 64 ((s.frac + 2 * (g - s.fc)) / s.edgeAt)

/-- A bank. -/
def Slice.bank (s : Slice) (bk : Nat) : Bank := Tbl.at Bank.idle s.banks bk

/-- Store a bank. -/
def Slice.setBankS (s : Slice) (bk : Nat) (b : Bank) : Slice := { s with banks := Tbl.put Bank.idle s.banks bk b }

/-- Update a bank. -/
def Slice.modBank (s : Slice) (bk : Nat) (f : Bank → Bank) : Slice := s.setBankS bk (f (s.bank bk))

/-- The input of a bank's arbiter: 0 and 1 the half's own ports, 2 the cross-half link (R27). -/
def inputOf (h : Nat) (p : Port) : Nat := if p.val / 2 = h then p.val % 2 else 2

/-- The arbiter pointer after a round-robin grant of an input (R29). -/
def nextPtr (i : Nat) : Nat := (i + 1) % 5

/-- The choice of R29 among five inputs from a pointer: the input granted, if one offers a candidate. -/
def arbChoose (offers : List Bool) (ptr : Nat) : Option Nat :=
  (List.range 5).foldl (fun r k => match r with
    | some i => some i
    | none => let i := (ptr + k) % 5
              if offers.getD i false then some i else none) none

/-- A slot of a bank is free. -/
def Bank.slotFree (b : Bank) (g : Nat) : Bool := !(b.taken.any (fun t => t.1 = g))

/-- n slots in a row are free from an fc on. -/
def Bank.runFree (b : Bank) (g n : Nat) : Bool := (List.range n).all (fun k => b.slotFree (g + k))

/-- The first fc, not before `at'`, from which n slots in a row are free. -/
def Bank.firstRun (b : Bank) (at' n : Nat) : Nat :=
  if b.runFree at' n then at'
  else match (b.taken.map (fun t => t.1 + 1)).filter (fun g => decide (at' < g) && b.runFree g n) with
    | [] => at'
    | g :: l => l.foldl min g

/-- The bank holds n further slots from an fc on (R35). -/
def Bank.takeFrom (b : Bank) (g n : Nat) : Bank :=
  (List.range n).foldl (fun b _ => let x := b.firstRun b.free 1; { b with free := x + 1, taken := b.taken ++ [(x, 0)] }) { b with free := g }

/-- The slot that the arbiters fill in the present fc: a candidate that reaches ingress in it is offered 3 fc later (R32). (DESIGN CHOICE, log 9) -/
def Slice.slotFc (s : Slice) : Nat := s.fc + 3

/-- A bank, with the counts of the damper period that the present fc's slot is in: a period that begins in it has no grant yet but that of this slot (R294). -/
def Slice.bankNow (s : Slice) (k : Nat) : Bank :=
  let b := s.bank k
  if s.damperDue && !(b.taken.contains (s.slotFc, 1)) then { b with grants := [], grantsAll := 0 } else b

/-- The fc of a grant that a candidate offered at `at'` gets, and the bank after it: `slots` bank slots (R35) with the code of the first one,
the pointer by R29 for a round-robin grant of input `i`, and the counts of the damper period (R294). (DESIGN CHOICE, log 9) -/
def Slice.grant (s : Slice) (bk at' slots code : Nat) (i : Option Nat) (pid : Nat) (o : Occ) : Nat × Slice :=
  let b := s.bankNow bk
  let g := b.firstRun at' slots
  let b := { b with free := g + slots, ptr := (match i with | some i => nextPtr i | none => b.ptr),
                    taken := b.taken.filter (fun t => s.fc ≤ t.1) ++ (g, code) :: (List.range (slots - 1)).map (fun k => (g + 1 + k, 0)),
                    grants := Tbl.put 0 b.grants pid (Tbl.at 0 b.grants pid + 1), grantsAll := b.grantsAll + 1 }
  let s := { (s.setBankS bk b).grantAct o with grantsTotal := s.grantsTotal + 1 }
  (g, (s.pcEv 0x03 1 o).pcEv 0x1E (g - at') o)

/-- The bank's last grant holds n further slots (R35, R74, R79, R257). -/
def Slice.moreSlots (s : Slice) (bk n : Nat) : Slice :=
  s.modBank bk (fun b => b.takeFrom b.free n)

end Sys2Proof.Machine
end

