-- ==== Sys2Proof/Machine/Ecc.lean ====
section
/-! DEFINITION. The code of the arrays and what each read of a protected word does (spec 14_error_protection.md R325 to R339). A stored
word is its data and an XOR mask over the 72 bits of its codeword; the code is linear, so the mask is what injection (R339) leaves. -/

namespace Sys2Proof.Machine

/-- Position p of the codeword holds a check bit. -/
def isPow2 (p : Nat) : Bool := p = 1 || p = 2 || p = 4 || p = 8 || p = 16 || p = 32 || p = 64

/-- The positions of data bits 0 to 63 (R325). -/
def dataPos : List Nat := (List.range 72).filter (fun p => p != 0 && !isPow2 p)

/-- The position of data bit i. -/
def posOf (i : Nat) : Nat := dataPos.getD i 0

/-- The XOR of the positions of the data bits that hold a 1. -/
def posXor (d : Word) : Nat := (List.range 64).foldl (fun a i => if d.getLsbD i then a ^^^ posOf i else a) 0

/-- Parity of a bit vector: 1 when the number of set bits is odd. -/
def parityN {n : Nat} (w : BitVec n) : Nat := popcount w % 2

/-- The check byte of a data word (R325): c0 to c6 and the overall parity c7. -/
def checkOf (d : Word) : Byte :=
  let c : BitVec 7 := BitVec.ofNat 7 (posXor d)
  c.setWidth 8 ||| (BitVec.ofNat 8 ((parityN d + parityN c) % 2) <<< 7)

/-- The syndrome of a stored word and check byte (R326). -/
def syndromeOf (d : Word) (c : Byte) : Byte :=
  BitVec.ofNat 8 ((posXor d ^^^ (c.toNat % 128)) % 128 + 128 * ((parityN d + parityN c) % 2))

/-- What the decoder finds (R326): clean; corrected, with the corrected data and the number of the bit; or uncorrectable. -/
inductive Decoded where
  | clean (d : Word)
  | fixed (d : Word) (bit : Nat)
  | bad
  deriving DecidableEq, Repr

/-- The decoder of R326. -/
def decode72 (d : Word) (c : Byte) : Decoded :=
  let s := (syndromeOf d c).toNat
  let p := s % 128
  if s < 128 then (if p = 0 then .clean d else .bad)
  else if p = 0 then .fixed d 71
  else if 71 < p then .bad
  else match firstBelow 7 (fun j => 2 ^ j = p) with
    | some j => .fixed d (64 + j)
    | none => match firstBelow 64 (fun i => posOf i = p) with
      | some i => .fixed (d ^^^ (1 <<< i)) i
      | none => .bad

/-- The stored data bits of a word under a mask. -/
def storedD (d : Word) (m : BitVec 72) : Word := d ^^^ m.extractLsb' 0 64

/-- The stored check byte of a word under a mask. -/
def storedC (d : Word) (m : BitVec 72) : Byte := checkOf d ^^^ m.extractLsb' 64 8

/-- The decoder applied to a word under a mask. (DESIGN CHOICE, log 12) -/
def decodeM (d : Word) (m : BitVec 72) : Decoded := decode72 (storedD d m) (storedC d m)

/-! ### The arrays: 0 DATA, 1 TAG0, 2 TAG1, 3 REPL, 4 VICTIM, 5 LEDGER (R336) -/

/-- The number of a target: a frame, a row, a victim entry or a ledger word. -/
def targetOf (arr idx : Nat) : Nat := arr * 2 ^ 18 + idx

/-- The number of a codeword. -/
def cwOf (arr idx word : Nat) : Nat := targetOf arr idx * 32 + word

/-- The mask of a codeword. (DESIGN CHOICE, log 12) -/
def Slice.flip (s : Slice) (arr idx word : Nat) : BitVec 72 := Tbl.at 0 s.flips (cwOf arr idx word)

/-- The victim entry in a slot. -/
def Victim.none : Victim := ⟨Frame.zero, 0, 0, Option.none, false, 0, false, true⟩

/-- A victim slot. -/
def Slice.vict (s : Slice) (e : Nat) : Victim := Tbl.at Victim.none s.victims e

/-- The victim slot is occupied. -/
def Slice.victUsed (s : Slice) (e : Nat) : Bool := s.victims.any (fun x => x.1 = e)

/-- Word k of a line. -/
def lineWord (l : Line) (k : Nat) : Word := l.extractLsb' (64 * k) 64

/-- A line with word k replaced. -/
def setLineWord (l : Line) (k : Nat) (w : Word) : Line := setF l ⟨64 * k, 64⟩ w.toNat

/-- The data of a codeword as it would be with no error: what the arrays hold. -/
def Slice.trueWord (s : Slice) (arr idx word : Nat) : Word :=
  match arr with
  | 0 => lineWord (Tbl.at Frame.zero s.frames idx).data word
  | 1 => (Tbl.at Frame.zero s.frames idx).w0
  | 2 => (Tbl.at Frame.zero s.frames idx).w1
  | 3 => (Tbl.at 0 s.repl idx).setWidth 64
  | 4 => if word < 16 then lineWord (s.vict idx).frame.data word
         else if word = 16 then (s.vict idx).frame.w0 else if word = 17 then (s.vict idx).frame.w1
         else BitVec.ofNat 64 (s.vict idx).setIdx
  | _ => Tbl.at 0 s.ledger idx

/-- Store a data word of an array. -/
def Slice.putWord (s : Slice) (arr idx word : Nat) (v : Word) : Slice :=
  let f := Tbl.at Frame.zero s.frames idx
  match arr with
  | 0 => { s with frames := Tbl.put Frame.zero s.frames idx { f with data := setLineWord f.data word v } }
  | 1 => { s with frames := Tbl.put Frame.zero s.frames idx { f with w0 := v } }
  | 2 => { s with frames := Tbl.put Frame.zero s.frames idx { f with w1 := v } }
  | 3 => { s with repl := Tbl.put 0 s.repl idx (v.setWidth 15) }
  | 4 =>
    let e := s.vict idx
    let e := if word < 16 then { e with frame := { e.frame with data := setLineWord e.frame.data word v } }
      else if word = 16 then { e with frame := { e.frame with w0 := v } }
      else if word = 17 then { e with frame := { e.frame with w1 := v } } else { e with setIdx := v.toNat % 4096 }
    { s with victims := Tbl.put Victim.none s.victims idx e }
  | _ => { s with ledger := Tbl.put 0 s.ledger idx v }

/-- What a read of a codeword decodes to. -/
def Slice.readCw (s : Slice) (arr idx word : Nat) : Decoded :=
  let m := s.flip arr idx word
  if m = 0 then .clean (s.trueWord arr idx word) else decodeM (s.trueWord arr idx word) m

/-- The value used after a read: the corrected word, or the stored bits of an uncorrectable one. -/
def Slice.usedWord (s : Slice) (arr idx word : Nat) : Word :=
  match s.readCw arr idx word with
  | .clean d => d
  | .fixed d _ => d
  | .bad => storedD (s.trueWord arr idx word) (s.flip arr idx word)

/-- The masked words of a target. -/
def Slice.flipWords (s : Slice) (arr idx : Nat) : List Nat :=
  (s.flips.filter (fun e => e.1 / 32 = targetOf arr idx)).map (fun e => e.1 % 32)

/-- The target has an uncorrectable word among those that a test selects. -/
def Slice.anyBad (s : Slice) (arr idx : Nat) (p : Nat → Bool) : Bool :=
  (s.flipWords arr idx).any (fun w => p w && s.readCw arr idx w = .bad)

/-- A word is rewritten: its mask goes, and the memory of the last injection with it (R339). -/
def Slice.clearFlip (s : Slice) (arr idx word : Nat) : Slice :=
  let s := { s with flips := Tbl.put 0 s.flips (cwOf arr idx word) 0 }
  if s.injAt = some (cwOf arr idx word) then { s with injAt := none } else s

/-- The half and physical bank that a target's counters and log entries name (R331, R336). -/
def targetBank (arr idx : Nat) : Nat × Nat :=
  if arr ≤ 2 then (keyHalf idx, keyPBank idx)
  else if arr = 3 then (idx / 2304, idx / 256 % 9) else (0, 0)

/-- LOG1 of the types 0x01 to 0x04 (R336). -/
def Slice.log1Word (s : Slice) (arr idx word bit synd src : Nat) : Word :=
  let (h, b) := targetBank arr idx
  let index := if arr ≤ 2 then idx % 4096 else if arr = 3 then idx % 256 else idx
  let w := if arr = 0 || arr = 4 then word else 0
  setF (setF (setF (setF (setF (setF (setF (setF (setF (0 : Word) ⟨0, 3⟩ arr) ⟨3, 1⟩ h) ⟨4, 4⟩ b) ⟨8, 13⟩ index) ⟨21, 4⟩ w) ⟨25, 7⟩ bit)
    ⟨32, 8⟩ synd) ⟨40, 3⟩ src) ⟨43, 1⟩ (b2n (s.injAt = some (cwOf arr idx word)))

/-- The leaky bucket takes a corrected error (R338). -/
def Slice.bucketIn (s : Slice) : Slice :=
  let lvl := s.fld EC_BUCKET EC_BUCKET_LEVEL
  let cap := s.fld EC_BUCKET EC_BUCKET_CAP
  if cap ≤ lvl then s.raise EC_STATUS EC_STATUS_CE_STORM else s.setFld EC_BUCKET EC_BUCKET_LEVEL (lvl + 1)

/-- A repair of a target is queued in its half, 8 entries each (R331). An entry names a frame with
its tag words, a replacement word, a victim entry or a ledger word; victim entries and ledger words queue in H0 (DESIGN CHOICE). (DESIGN CHOICE, log 12) -/
def Slice.queueRepair (s : Slice) (arr idx : Nat) : Slice :=
  let t := targetOf (if arr ≤ 2 then 0 else arr) idx
  let q := if (targetBank arr idx).1 = 0 then s.repairs0 else s.repairs1
  if q.contains t then s
  else if 8 ≤ q.length then s.bump EC_REPAIR EC_REPAIR_DROPPED 1
  else if (targetBank arr idx).1 = 0 then { s with repairs0 := q ++ [t] } else { s with repairs1 := q ++ [t] }

/-- The PID of the frame or entry of a target. -/
def Slice.targetPid (s : Slice) (arr idx : Nat) : Nat :=
  if arr ≤ 2 then
    match s.pinOwner (keyWay idx) with
    | some p => p
    | none => getF (Tbl.at Frame.zero s.frames idx).w0 ⟨1, 4⟩
  else if arr = 4 then getF (s.vict idx).frame.w0 ⟨1, 4⟩ else 0

/-- The occurrence of a CE or UE (R386). -/
def Slice.errOcc (s : Slice) (arr idx : Nat) : Occ :=
  { Occ.none with pid := some (s.targetPid arr idx), half := if arr ≤ 3 then some (targetBank arr idx).1 else none }

/-- The index of EC_BANK_CNT of a target. -/
def bankCntOf (arr idx : Nat) : Nat := (targetBank arr idx).1 * 9 + (targetBank arr idx).2

/-- A corrected error (R331): counts, bucket, log; an access queues a repair. -/
def Slice.noteCe (s : Slice) (arr idx word bit src : Nat) : Slice :=
  let synd := (syndromeOf (storedD (s.trueWord arr idx word) (s.flip arr idx word)) (storedC (s.trueWord arr idx word) (s.flip arr idx word))).toNat
  let s := s.bump EC_CNT EC_CNT_CE 1
  let s := if arr ≤ 3 then s.bump (EC_BANK_CNT (bankCntOf arr idx)) EC_BANK_CNT_CE 1 else s
  let s := (s.bucketIn.pcEv 0x24 1 (s.errOcc arr idx)).logErr 0x01 (s.log1Word arr idx word bit synd src) (s.targetPid arr idx)
  if src = 0 then s.queueRepair arr idx else s

/-- The retire-table entry that names a frame (R335). -/
def Slice.rtFind (s : Slice) (key : Nat) : Option Nat :=
  firstBelow 64 (fun i => s.flag (EC_RT i) EC_RT_VALID
    && frameKeyOf (s.fld (EC_RT i) EC_RT_HALF) (s.fld (EC_RT i) EC_RT_BANK) (s.fld (EC_RT i) EC_RT_ROW) (s.fld (EC_RT i) EC_RT_WAY) = key)

/-- The frame is excluded from allocation by the retire table (R75, R335). -/
def Slice.retired (s : Slice) (key : Nat) : Bool := (s.rtFind key).isSome

/-- A retire-table entry for a frame. -/
def rtWord (key state : Nat) : Word :=
  setF (setF (setF (setF (setF (setF (0 : Word) EC_RT_VALID 1) EC_RT_STATE state) EC_RT_HALF (keyHalf key)) EC_RT_BANK (keyPBank key))
    EC_RT_ROW (keyRow key)) EC_RT_WAY (keyWay key)

/-- The block-address line that a cache frame's tag names, its lowest line. -/
def Slice.frameLine (s : Slice) (key : Nat) : Nat :=
  let f := Tbl.at Frame.zero s.frames key
  match s.keySet key with
  | some x => blockFrom x (getF f.w0 ⟨17, 27⟩) * 4 + getF f.w0 ⟨7, 2⟩
  | none => 0

/-- The armed injection takes the write of a word (R339): arrays are matched by half, bank and word as the rule says. -/
def Slice.injMatches (s : Slice) (arr idx word : Nat) : Bool :=
  let c := EC_FLIP_CTRL
  s.flag c EC_FLIP_CTRL_ARMED && s.fld c EC_FLIP_CTRL_ARRAY = arr &&
  (if arr ≤ 3 then s.fld c EC_FLIP_CTRL_HALF = (targetBank arr idx).1 && s.fld c EC_FLIP_CTRL_BANK = (targetBank arr idx).2
      && (arr != 0 || s.fld c EC_FLIP_CTRL_WORD = word)
   else if arr = 4 then s.fld c EC_FLIP_CTRL_WORD = word
   else s.fld c EC_FLIP_CTRL_BANK % 2 = idx / 4096)

/-- A word has been written whole: its mask goes, and an armed injection corrupts it (R339). -/
def Slice.wrote (s : Slice) (arr idx word : Nat) : Slice :=
  let s := s.clearFlip arr idx word
  if s.injMatches arr idx word then
    let m : BitVec 72 := (s.reg EC_FLIP_DATA).setWidth 72 ||| (BitVec.ofNat 72 (s.fld EC_FLIP_CTRL EC_FLIP_CTRL_CHECK) <<< 64)
    let s := (s.clearF EC_FLIP_CTRL EC_FLIP_CTRL_ARMED).raise EC_FLIP_CTRL EC_FLIP_CTRL_HIT
    let s := s.logErr 0x04 (s.log1Word arr idx word 0x7F 0 0) (s.targetPid arr idx)
    { s with flips := Tbl.put 0 s.flips (cwOf arr idx word) m, injAt := some (cwOf arr idx word) }
  else s

/-- A register write to the retire table is granted in the present fc (R335). -/
def Slice.rtBusy (s : Slice) : Bool := (List.range 64).any (fun i => s.wroteNow (EC_RT i)) || s.ahead.contains .table

/-- The lowest free entry of the retire table takes a frame, or RT_FULL (R335). -/
def Slice.rtAlloc (s : Slice) (key : Nat) : Slice :=
  match s.rtFind key with
  | some _ => s
  | none => match firstBelow 64 (fun i => !(s.flag (EC_RT i) EC_RT_VALID)) with
    | some i => s.setReg (EC_RT i) (rtWord key 0)
    | none =>
      let f := Tbl.at Frame.zero s.frames key
      let addr := if f.w0.getLsbD 0 then s.frameLine key * 128 else 0
      (s.raise EC_STATUS EC_STATUS_RT_FULL).logErr 0x0F (log1Addr addr 0) (s.targetPid 0 key)

/-- A frame is quarantined: it is entered in the retire table, in the next fc if a register write to the table is granted in this one (R335). -/
def Slice.quarantineFrame (s : Slice) (key : Nat) : Slice :=
  if s.rtBusy then (if s.rtLate.contains key then s else { s with rtLate := s.rtLate ++ [key] }) else s.rtAlloc key

/-- The entries that had to wait for the present fc are made (R335). -/
def Slice.rtLateAlloc (s : Slice) : Slice := s.rtLate.foldl Slice.rtAlloc { s with rtLate := [] }

/-- A frame holds a lost line no more (R335). -/
def Slice.unlost (s : Slice) (key : Nat) : Slice :=
  let s := if s.lostKeys.contains key then { s with lostKeys := s.lostKeys.filter (fun k => k != key) } else s
  match s.rtFind key with
  | some i => if s.flag (EC_RT i) EC_RT_LOST then s.clearF (EC_RT i) EC_RT_LOST else s
  | none => s

/-- The frame holds a lost line (R332); the spare's frames may hold one that no entry of the retire table names (R342). -/
def Slice.frameLost (s : Slice) (key : Nat) : Bool :=
  s.lostKeys.contains key || (match s.rtFind key with
    | some i => s.flag (EC_RT i) EC_RT_LOST
    | none => false)

/-- The way of a frame key is pinned or a shelf way (R68). -/
def Slice.outsideCache (s : Slice) (w : Nat) : Bool := (s.pinnedWays ||| s.shelfWays).getLsbD w

/-- An uncorrectable error (R332): counts, status, log, and what becomes of the structure. -/
def Slice.noteUe (s : Slice) (arr idx word src : Nat) : Slice :=
  let synd := (syndromeOf (storedD (s.trueWord arr idx word) (s.flip arr idx word)) (storedC (s.trueWord arr idx word) (s.flip arr idx word))).toNat
  let pid := s.targetPid arr idx
  let s := s.bump EC_CNT EC_CNT_UE 1
  let s := if arr ≤ 3 then s.bump (EC_BANK_CNT (bankCntOf arr idx)) EC_BANK_CNT_UE 1 else s
  let s := (((s.raise EC_STATUS EC_STATUS_UE).pcEv 0x25 1 (s.errOcc arr idx)).logErr 0x02 (s.log1Word arr idx word 0x7F synd src) pid)
  if arr ≤ 2 then
    if s.outsideCache (keyWay idx) then s.quarantineFrame idx
    else if arr = 1 then
      let s := (s.quarantineFrame idx).raise EC_STATUS EC_STATUS_TAG_LOST
      { s with frames := Tbl.put Frame.zero s.frames idx Frame.zero,
               flips := Tbl.drop s.flips (fun k => k / 32 = targetOf 0 idx || k / 32 = targetOf 1 idx || k / 32 = targetOf 2 idx) }
    else if s.quarantine.contains idx then s
    else if (s.rtFind idx).isSome then s
    else { s.quarantineFrame idx with quarantine := s.quarantine ++ [idx] }
  else if arr = 3 then ({ s with repl := Tbl.put 0 s.repl idx 0 }).wrote 3 idx 0
  else if arr = 5 && src != 0 then (s.putWord 5 idx 0 (BitVec.allOnes 64)).wrote 5 idx 0
  else s

/-- One word of a target is read: a corrected or uncorrectable error has its effects. Sources: 0 ACCESS, 1 PATROL, 2 REPAIR, 3 KINDLING, 4 COPY. -/
def Slice.noteRead (s : Slice) (arr idx src : Nat) (w : Nat) : Slice :=
  match s.readCw arr idx w with
  | .clean _ => s
  | .fixed _ bit => s.noteCe arr idx w bit src
  | .bad => s.noteUe arr idx w src

/-- The words of a target that a test selects are read. -/
def Slice.noteReads (s : Slice) (arr idx src : Nat) (p : Nat → Bool) : Slice :=
  (s.flipWords arr idx).foldl (fun s w => if p w then s.noteRead arr idx src w else s) s

/-- The corrected words of a target are written back (R331, R340). -/
def Slice.writeBack (s : Slice) (arr idx : Nat) : Slice :=
  (s.flipWords arr idx).foldl (fun s w => match s.readCw arr idx w with
    | .fixed d _ => (s.putWord arr idx w d).wrote arr idx w
    | _ => s) s

/-- The data of a frame as a read uses it. -/
def Slice.frameData (s : Slice) (key : Nat) : Line :=
  (s.flipWords 0 key).foldl (fun l w => setLineWord l w (s.usedWord 0 key w)) (Tbl.at Frame.zero s.frames key).data

/-- The data of a victim entry as a read uses it. -/
def Slice.victData (s : Slice) (e : Nat) : Line :=
  (s.flipWords 4 e).foldl (fun l w => if w < 16 then setLineWord l w (s.usedWord 4 e w) else l) (s.vict e).frame.data

/-- A frame as a read uses it. -/
def Slice.frame (s : Slice) (key : Nat) : Frame :=
  if s.flips = [] then Tbl.at Frame.zero s.frames key
  else ⟨s.usedWord 1 key 0, s.usedWord 2 key 0, s.frameData key⟩

/-- The words of a line that a byte mask covers in part. -/
def partWords (m : BitVec 128) (w : Nat) : Bool := m.extractLsb' (8 * w) 8 != 0 && m.extractLsb' (8 * w) 8 != 0xFF

/-- The words of a line that a byte mask covers whole. -/
def wholeWords (m : BitVec 128) (w : Nat) : Bool := m.extractLsb' (8 * w) 8 = 0xFF

/-- The words of a target that a test selects have been written. -/
def Slice.wroteWords (s : Slice) (arr idx : Nat) (p : Nat → Bool) : Slice :=
  (List.range 16).foldl (fun s w => if p w then s.wrote arr idx w else s) s

/-- No word of the arrays holds an error, and none is to be corrupted. -/
def Slice.sound (s : Slice) : Bool := s.flips = [] && !(s.flag EC_FLIP_CTRL EC_FLIP_CTRL_ARMED)

/-- A ledger word is written whole. -/
def Slice.putLedger (s : Slice) (k : Nat) (v : Word) : Slice :=
  let s' := s.putWord 5 k 0 v
  if s.sound then s' else s'.wrote 5 k 0

/-- Words of the ledger that a walk writes, the listed ones and, where an injection waits, those of zeros too (R339). -/
def Slice.ledgerKeys (s : Slice) (p : Nat → Bool) : List Nat :=
  let l := (s.ledger.map Prod.fst).filter p
  if s.flag EC_FLIP_CTRL EC_FLIP_CTRL_ARMED then (List.range 8192).filter p else l

/-- A whole frame is written: data and tag words. -/
def Slice.putFrame (s : Slice) (key : Nat) (f : Frame) : Slice :=
  let s := { s with frames := Tbl.put Frame.zero s.frames key f }
  if s.sound then s
  else ((s.wroteWords 0 key (fun _ => true)).wrote 1 key 0).wrote 2 key 0

/-- Word 0 of a frame is written. -/
def Slice.putW0 (s : Slice) (key : Nat) (w0 : Word) : Slice :=
  let s := { s with frames := Tbl.put Frame.zero s.frames key { Tbl.at Frame.zero s.frames key with w0 := w0 } }
  if s.sound then s else s.wrote 1 key 0

/-- Word 1 of a frame is written. -/
def Slice.putW1 (s : Slice) (key : Nat) (w1 : Word) : Slice :=
  let s := { s with frames := Tbl.put Frame.zero s.frames key { Tbl.at Frame.zero s.frames key with w1 := w1 } }
  if s.sound then s else s.wrote 2 key 0

/-- The tag words of a frame are written. -/
def Slice.putTags (s : Slice) (key : Nat) (w0 w1 : Word) : Slice :=
  let f := Tbl.at Frame.zero s.frames key
  let s := { s with frames := Tbl.put Frame.zero s.frames key { f with w0 := w0, w1 := w1 } }
  if s.sound then s else (s.wrote 1 key 0).wrote 2 key 0

/-- A frame is left invalid: its word 0 is written, and what it held is out of reach. -/
def Slice.voidFrame (s : Slice) (key : Nat) : Slice :=
  let s := { s.unlost key with frames := Tbl.put Frame.zero s.frames key Frame.zero }
  if s.sound then s
  else ({ s with flips := Tbl.drop s.flips (fun k => k / 32 = targetOf 0 key || k / 32 = targetOf 1 key || k / 32 = targetOf 2 key) }).wrote 1 key 0

/-- A frame is written with zeros and valid check bits. (DESIGN CHOICE, log 11) -/
def Slice.zeroFrame (s : Slice) (key : Nat) : Slice := (s.unlost key).putFrame key Frame.zero

/-- Masked bytes of a frame are written: words covered in part are corrected and merged, an uncorrectable one stays as it was (R328). The
Bool says that one was found. -/
def Slice.putBytes (s : Slice) (key : Nat) (m : BitVec 128) (d : Line) : Slice × Bool :=
  let f := Tbl.at Frame.zero s.frames key
  if s.sound then
    ({ s with frames := Tbl.put Frame.zero s.frames key { f with data := mergeLine (byteMask m) d f.data } }, false)
  else
    let bad := s.anyBad 0 key (partWords m)
    let keep := fun w => partWords m w && s.readCw 0 key w = .bad
    let old := s.frameData key
    let s0 := s.noteReads 0 key 0 (partWords m)
    let new := (List.range 16).foldl (fun l w =>
      if (partWords m w || wholeWords m w) && !keep w then setLineWord l w (lineWord (mergeLine (byteMask m) d old) w) else l) f.data
    let s1 := { s0 with frames := Tbl.put Frame.zero s0.frames key { Tbl.at Frame.zero s0.frames key with data := new } }
    (s1.wroteWords 0 key (fun w => (partWords m w || wholeWords m w) && !keep w), bad)

end Sys2Proof.Machine
end

