-- ==== Sys2Proof/Machine/Cache.lean ====
section
/-! DEFINITION. Lookup, replacement, layouts, the victim buffer and the placement of lines (spec 03_cache.md R66 to R87). -/

namespace Sys2Proof.Machine

/-! ### The tag entry (R66) -/

abbrev T0_VALID : Fld := ⟨0, 1⟩
abbrev T0_PID : Fld := ⟨1, 4⟩
abbrev T0_LAYOUT : Fld := ⟨5, 2⟩
abbrev T0_LINE : Fld := ⟨7, 2⟩
abbrev T0_SV : Fld := ⟨9, 4⟩
abbrev T0_SD : Fld := ⟨13, 4⟩
abbrev T0_TAG : Fld := ⟨17, 27⟩
abbrev T0_ENC : Fld := ⟨44, 8⟩
abbrev T0_ACC : Fld := ⟨52, 1⟩
abbrev T1_HSTATE : Fld := ⟨0, 2⟩
abbrev T1_FWDPTR : Fld := ⟨2, 10⟩
abbrev T1_SHARERS : Fld := ⟨12, 40⟩
abbrev T1_EPST : Fld := ⟨52, 2⟩

/-- Word 0 of a raw frame of a line (R66). -/
def rawW0 (pid line sv sd : Nat) (acc : Bool) : Word :=
  setF (setF (setF (setF (setF (setF (setF (0 : Word) T0_VALID 1) T0_PID pid) T0_LINE (line % 4)) T0_SV sv) T0_SD sd)
    T0_TAG (line / 2 ^ 14)) T0_ACC (b2n acc)

/-- The frame holds lines of the block of `line` under a PID: VALID, PID and TAG match (R69). -/
def tagMatch (w0 : Word) (pid line : Nat) : Bool :=
  getF w0 T0_VALID = 1 && getF w0 T0_PID = pid && getF w0 T0_TAG = line / 2 ^ 14

/-- The line with index k in its block is in a frame with this word 0, by its layout (R69). -/
def holdsIdx (w0 : Word) (k : Nat) : Bool :=
  match getF w0 T0_LAYOUT with
  | 0 => getF w0 T0_LINE = k
  | 1 => getF w0 T0_LINE / 2 = k / 2 && (getF w0 T0_SV).testBit (k % 2)
  | 2 => (getF w0 T0_SV).testBit k
  | _ => false

/-- A frame of the line's set holds the line (R69). -/
def holdsLine (w0 : Word) (pid line : Nat) : Bool := tagMatch w0 pid line && holdsIdx w0 (line % 4)

/-- The indices of the lines that a frame holds, ascending. -/
def heldIdx (w0 : Word) : List Nat := if getF w0 T0_VALID = 1 then (List.range 4).filter (holdsIdx w0) else []

/-- Where a line is. -/
inductive Loc where
  | frame (key : Nat)
  | victim (e : Nat)
  | absent
  deriving DecidableEq, Repr

/-- The lookup of R69: a frame of the set outside the ways of R68, or a victim entry. -/
def Slice.locate (s : Slice) (pid line : Nat) : Loc :=
  let x := lineSet line
  match firstBelow 16 (fun w => !(s.outsideCache w) && holdsLine (s.frame (s.fkey x w)).w0 pid line) with
  | some w => .frame (s.fkey x w)
  | none => match s.victims.find? (fun v => v.2.setIdx = x && holdsLine v.2.frame.w0 pid line) with
    | some v => .victim v.1
    | none => .absent

/-- The tag words of a location. -/
def Slice.locW0 (s : Slice) : Loc → Word
  | .frame k => (s.frame k).w0
  | .victim e => (s.vict e).frame.w0
  | .absent => 0

/-- Word 1 of a location. -/
def Slice.locW1 (s : Slice) : Loc → Word
  | .frame k => (s.frame k).w1
  | .victim e => (s.vict e).frame.w1
  | .absent => 0

/-- Store a victim entry. -/
def Slice.setVict (s : Slice) (e : Nat) (v : Victim) : Slice := { s with victims := Tbl.put Victim.none s.victims e v }

/-- Store the tag words of a location. -/
def Slice.setLocTags (s : Slice) (l : Loc) (w0 w1 : Word) : Slice :=
  match l with
  | .frame k => s.putTags k w0 w1
  | .victim e => let v := s.vict e; s.setVict e { v with frame := { v.frame with w0 := w0, w1 := w1 } }
  | .absent => s

/-- Store word 1 of a location. -/
def Slice.setLocW1 (s : Slice) (l : Loc) (w1 : Word) : Slice :=
  match l with
  | .frame k => s.putW1 k w1
  | _ => s.setLocTags l (s.locW0 l) w1

/-- The slot of line k in a frame's bytes (R85). -/
def slotOf (w0 : Word) (data : Line) (k : Nat) : BitVec 512 :=
  if getF w0 T0_LAYOUT = 1 then data.extractLsb' (512 * (k % 2)) 512 else (data.extractLsb' (256 * k) 256).setWidth 512

/-- The slot number of line k: j of a pair, i of a quad. -/
def slotNo (w0 : Word) (k : Nat) : Nat := if getF w0 T0_LAYOUT = 1 then k % 2 else k

/-- The line with index k, expanded (R85). -/
def expandLine (w0 : Word) (data : Line) (k : Nat) : Line :=
  if getF w0 T0_LAYOUT = 0 then data
  else decSlot (getF w0 T0_ENC / 4 ^ slotNo w0 k % 4) (slotOf w0 data k)

/-- The data of a line at a location. -/
def Slice.locData (s : Slice) (l : Loc) (line : Nat) : Line :=
  match l with
  | .frame k => expandLine (s.frame k).w0 (s.frame k).data (line % 4)
  | .victim e => expandLine (s.vict e).frame.w0 (s.victData e) (line % 4)
  | .absent => 0

/-- The 64-bit words of a frame that hold the line with index k. -/
def lineWords (w0 : Word) (k w : Nat) : Bool :=
  match getF w0 T0_LAYOUT with
  | 0 => true
  | 1 => w / 8 = k % 2
  | _ => w / 4 = k

/-- The line's own words at a location hold an uncorrectable one. -/
def Slice.locBad (s : Slice) (l : Loc) (line : Nat) : Bool :=
  match l with
  | .frame k => s.anyBad 0 k (lineWords (s.frame k).w0 (line % 4))
  | .victim e => s.anyBad 4 e (fun w => decide (w < 16) && lineWords (s.vict e).frame.w0 (line % 4) w)
  | .absent => false

/-- The line's words at a location are read by an access. -/
def Slice.locRead (s : Slice) (l : Loc) (line : Nat) : Slice :=
  match l with
  | .frame k => s.noteReads 0 k 0 (lineWords (s.frame k).w0 (line % 4))
  | .victim e => s.noteReads 4 e 0 (fun w => decide (w < 16) && lineWords (s.vict e).frame.w0 (line % 4) w)
  | .absent => s

/-! ### Replacement (R75 to R78) -/

/-- The key of a set's replacement word. -/
def Slice.replKey (s : Slice) (x : Nat) : Nat := s.fkey x 0 / 16

/-- Bit n of a set's replacement bits; node n is bit n − 1. -/
def replBit (r : BitVec 15) (n : Nat) : Bool := r.getLsbD (n - 1)

/-- Some eligible way lies under node n (R76). -/
def anyUnder (elig : BitVec 16) (n : Nat) : Bool :=
  let size := 16 / 2 ^ Nat.log2 n
  let first := n * size - 16
  (List.range size).any (fun i => elig.getLsbD (first + i))

/-- One walk down the tree from node n. -/
def chooseFrom (r : BitVec 15) (elig : BitVec 16) : Nat → Nat → Nat
  | 0, n => n
  | k + 1, n =>
    if 16 ≤ n then n
    else if anyUnder elig (2 * n) && (!(replBit r n) || !(anyUnder elig (2 * n + 1))) then chooseFrom r elig k (2 * n)
    else chooseFrom r elig k (2 * n + 1)

/-- choose of R76: the lowest invalid eligible way, else the tree's choice. -/
def chooseWay (valid : Nat → Bool) (r : BitVec 15) (elig : BitVec 16) : Nat :=
  match firstBelow 16 (fun w => elig.getLsbD w && !(valid w)) with
  | some w => w
  | none => chooseFrom r elig 4 1 - 16

/-- touch of R76, from node n upwards. -/
def touchFrom : Nat → BitVec 15 → Nat → BitVec 15
  | 0, r, _ => r
  | k + 1, r, n =>
    if n ≤ 1 then r
    else
      let p := n / 2
      let r' := if n = 2 * p then r ||| (1#15 <<< (p - 1)) else r &&& ~~~(1#15 <<< (p - 1))
      touchFrom k r' p

/-- touch of R76. -/
def touchBits (r : BitVec 15) (w : Nat) : BitVec 15 := touchFrom 4 r (w + 16)

/-- Read a set's replacement bits. -/
def Slice.replBits (s : Slice) (x : Nat) : BitVec 15 := (s.usedWord 3 (s.replKey x) 0).setWidth 15

/-- touch a way of a set (R77). (DEDUCED, log 16) -/
def Slice.touch (s : Slice) (x w : Nat) : Slice :=
  let s := s.noteReads 3 (s.replKey x) 0 (fun _ => true)
  let s' := { s with repl := Tbl.put 0 s.repl (s.replKey x) (touchBits (s.replBits x) w) }
  if s.sound then s' else s'.wrote 3 (s.replKey x) 0

/-! ### The reads of the tag stage (R328, R331, R332) -/

/-- The tag stage reads word 0 of every frame of the set outside the ways of R68, the tags of the victim entries, the replacement bits, and word 1 of
the frame that holds the line. (DEDUCED, log 63) -/
def Slice.tagRead (s : Slice) (pid line : Nat) : Slice :=
  if s.flips = [] then s
  else
    let x := lineSet line
    let s := (List.range 16).foldl (fun t w => if t.outsideCache w then t else t.noteReads 1 (t.fkey x w) 0 (fun _ => true)) s
    let s := s.victims.foldl (fun t v => t.noteReads 4 v.1 0 (fun w => decide (16 ≤ w))) s
    let s := s.noteReads 3 (s.replKey x) 0 (fun _ => true)
    match s.locate pid line with
    | .frame key => s.noteReads 2 key 0 (fun _ => true)
    | _ => s

/-- The tag stage of a request to a line finds an uncorrectable tag word: in a word 0 that it tests, or in the directory of the frame that holds the
line (R332). (DEDUCED, log 63) -/
def Slice.tagBad (s : Slice) (pid line : Nat) : Bool :=
  if s.flips = [] then false
  else
    (List.range 16).any (fun w => !(s.outsideCache w) && s.anyBad 1 (s.fkey (lineSet line) w) (fun _ => true))
      || (match s.locate pid line with
        | .frame key => s.anyBad 2 key (fun _ => true)
        | .victim e => s.anyBad 4 e (fun w => decide (16 ≤ w))
        | .absent => false)

/-- An HTE covers a line (R123). -/
def Hte.covers (e : Hte) (line : Nat) : Bool := e.line / 4 = line / 4 && e.cover.getLsbD (line % 4)

/-- The HTE of the line's bank that covers it. -/
def Slice.hteOf (s : Slice) (line : Nat) : Option Nat :=
  ((s.bank (bankKey (lineSet line))).htes.find? (fun e => e.2.covers line)).map Prod.fst

/-- The line is in a transient home state (R123). -/
def Slice.transient (s : Slice) (line : Nat) : Bool := (s.hteOf line).isSome

/-- A frame of a set holds a line in a transient home state. -/
def Slice.frameTransient (s : Slice) (x key : Nat) : Bool :=
  let w0 := (s.frame key).w0
  (heldIdx w0).any (fun k => s.transient (blockFrom x (getF w0 T0_TAG) * 4 + k))

/-- The ways eligible for PID p in a set if transient states are ignored (R75). -/
def Slice.eligAny (s : Slice) (x p : Nat) : BitVec 16 :=
  let m := s.cacheMask p &&& ~~~(s.pinnedWays ||| s.shelfWays)
  (List.range 16).foldl (fun a w => if m.getLsbD w && !(s.retired (s.fkey x w)) then a ||| (1 <<< w) else a) 0

/-- A way of a set has been vacated for a fill whose write has not been granted (R75, R84). -/
def Slice.placing (s : Slice) (x w : Nat) : Bool :=
  (s.bank (bankKey x)).conts.any (fun c => match c.what with
    | .place k v => v = w && s.fills.any (fun f => f.1 = k && lineSet f.2.line = x)
    | _ => false)

/-- The eligible ways for PID p in a set (R75). -/
def Slice.elig (s : Slice) (x p : Nat) : BitVec 16 :=
  let m := s.eligAny x p
  (List.range 16).foldl (fun a w => if m.getLsbD w && !(s.frameTransient x (s.fkey x w)) && !(s.placing x w) then a ||| (1 <<< w) else a) 0

/-- The line lies in the drain range of a partition with EN = 1 (R261). -/
def Slice.inDrainRange (s : Slice) (addr : Nat) : Bool :=
  (List.range 16).any (fun p => p != 0 && s.flag (EP_PCTRL p) EP_PCTRL_EN
    && decide (s.fld (EP_PDRAIN p) EP_PDRAIN_BASE ≤ addr / 2 ^ 21)
    && decide (addr / 2 ^ 21 < s.fld (EP_PDRAIN p) EP_PDRAIN_BASE
        + s.fld ID_SLICE ID_SLICE_GROUP_SIZE * s.fld (EP_PDRAIN p) EP_PDRAIN_SIZE))

/-- A victim entry is free. -/
def Slice.freeVict (s : Slice) : Option Nat := firstBelow 32 (fun e => !(s.victUsed e))

/-- What an allocation finds (R75): a way whose frame may be written; a wait for a way or for a victim entry; or no way at all. -/
inductive Alloc where
  | way (w : Nat)
  | wait (k : Wait)
  | nowhere
  deriving DecidableEq, Repr

/-- Allocation for a line of PID p, apart from the ways in `ex`, which the operation under way occupies (R75, R76, R79, R261). -/
def Slice.alloc (s : Slice) (line p : Nat) (ex : BitVec 16) : Alloc :=
  let x := lineSet line
  if s.inDrainRange (line * 128) || s.eligAny x p = 0 then .nowhere
  else if s.elig x p &&& ~~~ex = 0 then .wait .way
  else
    let w := chooseWay (fun w => getF (s.frame (s.fkey x w)).w0 T0_VALID = 1) (s.replBits x) (s.elig x p &&& ~~~ex)
    if getF (s.frame (s.fkey x w)).w0 T0_VALID = 1 && s.freeVict = none then .wait .victim else .way w

/-- The frame of a set's way moves into victim entry e (R79); the frame is left invalid. Its uncorrectable words move with it. -/
def Slice.evictTo (s : Slice) (x key e : Nat) : Slice :=
  let f := s.frame key
  let s := s.noteReads 0 key 0 (fun _ => true)
  let bads := (s.flipWords 0 key).filter (fun w => s.readCw 0 key w = .bad)
  let masks : List (Nat × BitVec 72) := bads.map (fun w => (cwOf 4 e w, s.flip 0 key w))
  let s := (s.setVict e ⟨f, x, s.fresh, none, false, 0, false, false⟩).voidFrame key
  let s := { s with fresh := s.fresh + 1, flips := masks.foldl (fun t (m : Nat × BitVec 72) => Tbl.put 0 t m.1 m.2) s.flips }
  let s := if s.flag EC_FLIP_CTRL EC_FLIP_CTRL_ARMED then s.wroteWords 4 e (fun w => !(bads.contains w)) else s
  s.pcEv 0x0A 1 { Occ.none with pid := some (getF f.w0 T0_PID), half := some (halfOfSet x) }

/-- Whole sectors of a victim entry are written, with its tag words. -/
def Slice.putVictSectors (s : Slice) (e : Nat) (m : BitVec 4) (w0 w1 : Word) (d : Line) : Slice :=
  let v := s.vict e
  let s := s.setVict e { v with frame := ⟨w0, w1, mergeLine (sectorMask m) d v.frame.data⟩ }
  if s.sound then s else s.wroteWords 4 e (fun w => m.getLsbD (w / 4))

/-- A way is made free for a placement: a valid frame is evicted (R79, R84). -/
def Slice.vacate (s : Slice) (x w : Nat) : Slice :=
  let key := s.fkey x w
  if getF (s.frame key).w0 T0_VALID = 1 then
    match s.freeVict with
    | some e => s.evictTo x key e
    | none => s
  else s

/-- A raw frame is written into a way and touched (R77). (DEDUCED, log 16) -/
def Slice.putRaw (s : Slice) (x w : Nat) (f : Frame) : Slice := (s.putFrame (s.fkey x w) f).touch x w

/-- The line is dropped from a compressed frame's word 0; the frame becomes invalid with its last line (R67, R74). -/
def dropIdx (w0 : Word) (k : Nat) : Word :=
  let n := slotNo w0 k
  let sv := getF w0 T0_SV &&& (15 - 2 ^ n)
  let enc := getF w0 T0_ENC - (getF w0 T0_ENC / 4 ^ n % 4) * 4 ^ n
  if sv = 0 then 0 else setF (setF w0 T0_SV sv) T0_ENC enc

/-- A victim entry frees, and with it a lost line (R334). -/
def Slice.dropVict (s : Slice) (e : Nat) : Slice :=
  let s := if (s.vict e).lost then s.setFld EC_STATUS EC_STATUS_VB_LOST (s.fld EC_STATUS EC_STATUS_VB_LOST - 1) else s
  { s with victims := Tbl.put Victim.none s.victims e Victim.none, flips := Tbl.drop s.flips (fun k => k / 32 = targetOf 4 e) }

/-- The line leaves its frame or entry: a raw frame becomes invalid, a compressed one loses the slot (R91). -/
def Slice.removeLine (s : Slice) (l : Loc) (line : Nat) : Slice :=
  let w0 := s.locW0 l
  let last := getF w0 T0_LAYOUT = 0 || dropIdx w0 (line % 4) = 0
  match l with
  | .frame k => if last then s.voidFrame k else s.putW0 k (dropIdx w0 (line % 4))
  | .victim e => if last then s.dropVict e else s.setLocTags l (dropIdx w0 (line % 4)) (s.locW1 l)
  | .absent => s

/-! ### Epoch state of a line that enters the slice (R250) -/

/-- PAR of a partition (R249). -/
def Slice.par (s : Slice) (p : Nat) : Nat := s.fld (EP_PSTATUS p) EP_PSTATUS_PAR

/-- Epochs are enabled for a partition (R249). (DEDUCED, log 53) -/
def Slice.epochs (s : Slice) (p : Nat) : Bool := p != 0 && s.flag (EP_PCTRL p) EP_PCTRL_EN

/-- EPST CLEAN of a partition: W = 0, G = not PAR; zero for a partition without epochs. (DEDUCED, log 53) -/
def Slice.epstClean (s : Slice) (p : Nat) : Nat := if s.epochs p then 1 - s.par p else 0

/-- EPST WRITTEN: W = 1, G = PAR. -/
def Slice.epstWritten (s : Slice) (p : Nat) : Nat := 2 + s.par p

/-- EPST FROZEN: W = 1, G = not PAR. -/
def Slice.epstFrozen (s : Slice) (p : Nat) : Nat := 2 + (1 - s.par p)

/-- EPST CAPTURED: W = 0, G = PAR. -/
def Slice.epstCaptured (s : Slice) (p : Nat) : Nat := s.par p

/-! ### Placement of a fill (R84 to R87) -/

/-- The enabled encodings (R94). -/
def Slice.encEn (s : Slice) : EncEn :=
  ⟨s.flag CZ_CTRL CZ_CTRL_EN_ZERO, s.flag CZ_CTRL CZ_CTRL_EN_CONST, s.flag CZ_CTRL CZ_CTRL_EN_BDELTA, s.flag CZ_CTRL CZ_CTRL_EN_FOLD_BF16,
    s.flag CZ_CTRL CZ_CTRL_EN_FOLD_E4M3, s.flag CZ_CTRL CZ_CTRL_EN_FOLD_E5M2⟩

/-- Fills of a PID may be compressed (R86). -/
def Slice.pidComp (s : Slice) (p : Nat) : Bool := (s.fld CZ_CTRL CZ_CTRL_PID_EN).testBit p

/-- Word 0 of a compressed frame with one line more in its slot. -/
def addIdx (w0 : Word) (k enc : Nat) : Word :=
  let n := slotNo w0 k
  setF (setF w0 T0_SV (getF w0 T0_SV ||| 2 ^ n)) T0_ENC (getF w0 T0_ENC + enc * 4 ^ n)

/-- Word 0 of a new pair or quad frame of a line. -/
def compW0 (pid line layout enc : Nat) : Word :=
  addIdx (setF (setF (setF (setF (setF (0 : Word) T0_VALID 1) T0_PID pid) T0_LAYOUT layout)
    T0_LINE (if layout = 1 then line % 4 / 2 * 2 else 0)) T0_TAG (line / 2 ^ 14)) (line % 4) enc

/-- The bytes of an encoded line in its slot. -/
def slotData (w0 : Word) (k : Nat) (v : BitVec 512) : Line :=
  if getF w0 T0_LAYOUT = 1 then v.setWidth 1024 <<< (512 * (k % 2)) else ((v.setWidth 256).setWidth 1024) <<< (256 * k)

/-- An existing frame of the layout with a free slot for the line, in the lowest eligible way (R87). -/
def Slice.slotWay (s : Slice) (line p layout : Nat) : Option Nat :=
  let x := lineSet line
  let k := line % 4
  let m := s.elig x p
  firstBelow 16 (fun w =>
    let w0 := (s.frame (s.fkey x w)).w0
    m.getLsbD w && tagMatch w0 p line && getF w0 T0_LAYOUT = layout && (layout = 2 || getF w0 T0_LINE / 2 = k / 2)
      && !((getF w0 T0_SV).testBit (slotNo w0 k)))

/-- Where a fill goes. -/
inductive Place where
  | slot (w : Nat) (e : Encoded)
  | fresh (layout : Nat) (e : Encoded)
  | raw
  deriving DecidableEq, Repr

/-- The layout of a fill (R86, R87). -/
def Slice.layoutFor (s : Slice) (line p : Nat) (d : Line) (mayCompress : Bool) : Place :=
  if !mayCompress || !(s.pidComp p) then .raw
  else match chooseEnc s.encEn d with
    | none => .raw
    | some e =>
      if e.size ≤ 32 then
        match s.slotWay line p 2 with
        | some w => .slot w e
        | none => match s.slotWay line p 1 with
          | some w => .slot w e
          | none => .fresh 2 e
      else if e.size ≤ 64 then
        match s.slotWay line p 1 with
        | some w => .slot w e
        | none => .fresh 1 e
      else .raw

/-- The bytes of the slot of a line in a compressed frame (R85). -/
def slotBytes (w0 : Word) (k : Nat) : BitVec 128 :=
  if getF w0 T0_LAYOUT = 1 then ((BitVec.allOnes 64).setWidth 128) <<< (64 * (k % 2)) else ((BitVec.allOnes 32).setWidth 128) <<< (32 * k)

/-- The line joins an existing compressed frame (R87): its slot is written; its directory stays joint. -/
def Slice.joinSlot (s : Slice) (line w : Nat) (e : Encoded) : Slice :=
  let x := lineSet line
  let key := s.fkey x w
  let w0 := (s.frame key).w0
  (((s.putBytes key (slotBytes w0 (line % 4)) (slotData w0 (line % 4) e.slot)).1).putW0 key (addIdx w0 (line % 4) e.enc)).touch x w

/-- The frame of a line alone: raw with every sector valid, or a new compressed frame. -/
def newFrame (p line : Nat) (d : Line) (pl : Place) (w1 : Word) (acc : Bool) : Frame :=
  match pl with
  | .fresh layout e => ⟨compW0 p line layout e.enc, w1, slotData (compW0 p line layout e.enc) (line % 4) e.slot⟩
  | _ => ⟨rawW0 p line 15 0 acc, w1, d⟩

/-- What became of a placement: done at a location; an eviction was made and the write follows (R84); or it waits. -/
inductive Placed where
  | done (l : Loc)
  | evicted (way : Nat)
  | wait (k : Wait)
  | nowhere
  deriving DecidableEq, Repr

/-- A way that a fill's own eviction has vacated can still take it. -/
def Slice.keptWay (s : Slice) (x p : Nat) (way : Option Nat) : Option Nat :=
  match way with
  | some w => if (s.eligAny x p).getLsbD w && getF (s.frame (s.fkey x w)).w0 T0_VALID = 0 then some w else none
  | none => none

/-- Place a fill of PID p (R84 to R87): in its raw frame under the sectors already valid, or by the compression rules. `way` is the way that its own eviction
has vacated; without one, an eviction takes a grant of its own. -/
def Slice.placeFill (s : Slice) (line p : Nat) (d : Line) (mayCompress acc : Bool) (way : Option Nat) : Slice × Placed :=
  let x := lineSet line
  let s := s.tagRead p line
  match s.locate p line with
  | .frame key =>
    let w0 := (s.frame key).w0
    if getF w0 T0_LAYOUT = 0 then
      let m := bytesOfSectors (~~~(BitVec.ofNat 4 (getF w0 T0_SV)))
      ((((s.putBytes key m d).1).putW0 key (setF w0 T0_SV 15)).touch x (keyWay key), .done (.frame key))
    else (s, .done (.frame key))
  | .victim e =>
    let v := s.vict e
    if getF v.frame.w0 T0_LAYOUT = 0 then
      let m := BitVec.ofNat 4 (getF v.frame.w0 T0_SV)
      (s.putVictSectors e (~~~m) (setF v.frame.w0 T0_SV 15) v.frame.w1 d, .done (.victim e))
    else (s, .done (.victim e))
  | .absent =>
    match s.layoutFor line p d mayCompress with
    | .slot w e => (s.joinSlot line w e, .done (.frame (s.fkey x w)))
    | pl =>
      let w1 := setF (0 : Word) T1_EPST (s.epstClean p)
      match s.keptWay x p way with
      | some w => (s.putRaw x w (newFrame p line d pl w1 acc), .done (.frame (s.fkey x w)))
      | none => match s.alloc line p 0 with
        | .nowhere => (s, .nowhere)
        | .wait k => (s, .wait k)
        | .way w =>
          if getF (s.frame (s.fkey x w)).w0 T0_VALID = 1 then (s.vacate x w, .evicted w)
          else (s.putRaw x w (newFrame p line d pl w1 acc), .done (.frame (s.fkey x w)))

/-! ### Relayout (R74) -/

/-- What became of a relayout: the raw frame's location, a wait, or no way at all. -/
inductive Relaid where
  | done (l : Loc)
  | wait (k : Wait)
  | nowhere
  deriving DecidableEq, Repr

/-- A line of a compressed frame becomes a raw frame with SV = 0b1111, SD and ACC as given and the data given, under a copy of word 1 (R74): the same
frame if it was the frame's only line, else a frame chosen by R76 other than its own. -/
def Slice.relayout (s : Slice) (key p line sd : Nat) (d : Line) (acc : Bool) : Slice × Relaid :=
  let x := lineSet line
  let f := s.frame key
  let o : Occ := { Occ.none with pid := some p, half := some (halfOfSet x), addr := line * 128 }
  if dropIdx f.w0 (line % 4) = 0 then
    (((s.putFrame key ⟨rawW0 p line 15 sd acc, f.w1, d⟩).touch x (keyWay key)).pcEv 0x0B 1 o, .done (.frame key))
  else
    match s.alloc line p (1#16 <<< keyWay key) with
    | .way w =>
      let s := s.removeLine (.frame key) line
      let s := (s.vacate x w).putRaw x w ⟨rawW0 p line 15 sd acc, f.w1, d⟩
      (s.pcEv 0x0B 1 o, .done (.frame (s.fkey x w)))
    | .wait k => (s, .wait k)
    | .nowhere => (s, .nowhere)

/-! ### Occupancy (R94) -/

/-- The number of valid frames of a layout outside the ways of R68. -/
def Slice.countLayout (s : Slice) (layout : Nat) : Nat :=
  (s.frames.filter (fun e => !(s.outsideCache (keyWay e.1)) && getF e.2.w0 T0_VALID = 1 && getF e.2.w0 T0_LAYOUT = layout)).length

/-- The number of victim entries occupied. -/
def Slice.victCount (s : Slice) : Nat := s.victims.length

end Sys2Proof.Machine
end

