-- ==== Sys2Proof/Machine/Flags.lean ====
section
/-! DEFINITION. Flags, captures and interrupt lines: what each detected event sets (spec 01_slice_anatomy.md R25, 02_partitions.md R52,
03_cache.md R92, 05_coherence_home.md R133, 06_exact_accumulation.md R161, 07_line_operations.md R185, 08_sync_objects.md R201, R221,
09_determinism.md R231, 14_error_protection.md R337, 17_counters_debug.md R393, 18_ports_signals.md R400, R411). -/

namespace Sys2Proof.Machine

/-- The timing events of DG_TEVT (R231). -/
abbrev TV_FREQ : Nat := 0
abbrev TV_WAKE : Nat := 1
abbrev TV_DAMP : Nat := 2
abbrev TV_DROOP : Nat := 3
abbrev TV_SHELF : Nat := 4
abbrev TV_MAINT : Nat := 5
abbrev TV_RING : Nat := 6
abbrev TV_LATE : Nat := 7
abbrev TV_XING : Nat := 8

/-- Some partition with DET_MODE = 1 is ACTIVE (R230, R231). -/
def Slice.detActive (s : Slice) : Bool :=
  (List.range 16).any (fun p => s.ptState p = 2 && s.flag (PT_CTRL p) PT_CTRL_DET_MODE)

/-- A timing event (R231). -/
def Slice.tevt (s : Slice) (bit : Nat) : Slice :=
  if s.detActive then
    ((s.raise DG_TEVT ⟨bit, 1⟩).bump DG_TEVT_CNT DG_TEVT_CNT_COUNT 1).raiseMgmtIf (s.flag DG_DET_CTRL DG_DET_CTRL_TEVT_IRQ_EN)
  else s

/-- A misrouted or discarded message is counted, flagged and captured (R25). -/
def Slice.noteMisroute (s : Slice) (addr src : Nat) : Slice :=
  let first := !(s.flag ID_STATUS ID_STATUS_MISROUTE)
  let s := (s.raise ID_STATUS ID_STATUS_MISROUTE).bump ID_MISROUTE_CNT ID_MISROUTE_CNT_COUNT 1
  if first then
    (s.setReg ID_MISROUTE_ADDR (setF (setF (0 : Word) ID_MISROUTE_ADDR_ADDR addr) ID_MISROUTE_ADDR_SRC src)).raiseMgmtIf
      (s.flag ID_CTRL ID_CTRL_MISROUTE_IRQ_EN)
  else s

/-- A refusal with ACCESS_DENIED is counted and captured (R52). -/
def Slice.noteDeny (s : Slice) (pid addr src : Nat) (o : Occ) : Slice :=
  let s := (s.bump (PT_DENY_CNT pid) PT_DENY_CNT_COUNT 1).pcEv 0x22 1 o
  if s.flag (PT_DENY pid) PT_DENY_VALID then s
  else
    (s.latch (PT_DENY pid) (setF (setF (setF (0 : Word) PT_DENY_VALID 1) PT_DENY_SRC src) PT_DENY_ADDR addr)).raiseMgmtIf
      (s.flag (PT_CTRL pid) PT_CTRL_DENY_IRQ_EN)

/-- A refused DROP (R92). -/
def Slice.noteDrop (s : Slice) (pid addr : Nat) : Slice :=
  let s := s.bump CZ_DROP_CNT CZ_DROP_CNT_COUNT 1
  if s.flag CZ_DROP_REF CZ_DROP_REF_VALID then s
  else s.latch CZ_DROP_REF (setF (setF (setF (0 : Word) CZ_DROP_REF_VALID 1) CZ_DROP_REF_PID pid) CZ_DROP_REF_ADDR addr)

/-- A refused accumulation request or descriptor write (R161, R176, R177). -/
def Slice.noteAx (s : Slice) (cause pid addr : Nat) : Slice :=
  let s := s.bump AX_VIOL_CNT AX_VIOL_CNT_COUNT 1
  if s.flag AX_VIOL AX_VIOL_VALID then s
  else s.latch AX_VIOL (setF (setF (setF (setF (0 : Word) AX_VIOL_VALID 1) AX_VIOL_CAUSE cause) AX_VIOL_PID pid) AX_VIOL_ADDR addr)

/-- A refused line operation (R185). -/
def Slice.noteLop (s : Slice) (cause pid op addr : Nat) : Slice :=
  let s := s.bump SY_LOP_VIOL_CNT SY_LOP_VIOL_CNT_COUNT 1
  if s.flag SY_LOP_VIOL SY_LOP_VIOL_VALID then s
  else s.latch SY_LOP_VIOL (setF (setF (setF (setF (setF (0 : Word) SY_LOP_VIOL_VALID 1) SY_LOP_VIOL_CAUSE cause) SY_LOP_VIOL_PID pid)
    SY_LOP_VIOL_OPCODE op) SY_LOP_VIOL_ADDR addr)

/-- A refused sync request (R201). -/
def Slice.noteSy (s : Slice) (cause pid op addr : Nat) : Slice :=
  let s := s.bump SY_SVIOL_CNT SY_SVIOL_CNT_COUNT 1
  if s.flag SY_SVIOL SY_SVIOL_VALID then s
  else s.latch SY_SVIOL (setF (setF (setF (setF (setF (0 : Word) SY_SVIOL_VALID 1) SY_SVIOL_CAUSE cause) SY_SVIOL_PID pid)
    SY_SVIOL_OPCODE op) SY_SVIOL_ADDR addr)

/-- A coherence violation: a FWD received (code 0), or an answer that its HTE does not expect (code 1) (R133). (DEDUCED, log 68) -/
def Slice.noteViol (s : Slice) (code src addr pid : Nat) : Slice :=
  let s := (s.bump CO_VIOL_CNT CO_VIOL_CNT_COUNT 1).logErr 0x0D (log1Addr addr src) pid
  if s.flag CO_VIOL CO_VIOL_VALID then s
  else s.latch CO_VIOL (setF (setF (setF (setF (0 : Word) CO_VIOL_VALID 1) CO_VIOL_CODE code) CO_VIOL_SRC src) CO_VIOL_ADDR addr)

/-- A dead read of a PID: its flag and its count (R106, R156). -/
def Slice.deadRead (s : Slice) (pid : Nat) (o : Occ) : Slice :=
  ((s.raise CZ_DEADREAD ⟨pid, 1⟩).bump (CZ_DEAD_CNT pid) CZ_DEAD_CNT_COUNT 1).pcEv 0x23 1 o

/-- A dead read when a condition holds. -/
def Slice.deadReadIf (s : Slice) (c : Bool) (pid : Nat) (o : Occ) : Slice := if c then s.deadRead pid o else s

/-! ### Interrupt lines -/

/-- An enabled source of SL_IRQ_ERR is set (R337). -/
def Slice.errSource (s : Slice) : Bool :=
  let st := EC_STATUS
  let c := EC_CTRL
  (s.flag st EC_STATUS_UE && s.flag c EC_CTRL_UE_IRQ_EN) || (s.flag st EC_STATUS_CE_STORM && s.flag c EC_CTRL_CE_IRQ_EN)
    || ((s.flag st EC_STATUS_RT_FULL || s.flag st EC_STATUS_KINDLE_ERR) && s.flag c EC_CTRL_RT_IRQ_EN)
    || (s.flag st EC_STATUS_VIOL && s.flag c EC_CTRL_VIOL_IRQ_EN)
    || s.flag st EC_STATUS_TAG_LOST || s.flag st EC_STATUS_MEM_ERR

/-- A valid sample whose counter has IRQ_EN (R393). -/
def Slice.sampleSource (s : Slice) : Bool :=
  (List.range 4).any (fun k => s.flag (PC_SMP1 k) PC_SMP1_VALID && s.flag (PC_CFG (28 + k)) PC_CFG_IRQ_EN)

/-- An enabled source of SL_IRQ_SYNC is set (R221). -/
def Slice.syncSource (s : Slice) : Bool :=
  (s.flag SY_STATUS SY_STATUS_MISUSE && s.flag SY_CTRL SY_CTRL_MISUSE_IRQ_EN)
    || (s.flag SY_STATUS SY_STATUS_LATE && s.flag SY_CTRL SY_CTRL_LATE_IRQ_EN)
    || (s.flag SY_STATUS SY_STATUS_WTFULL && s.flag SY_CTRL SY_CTRL_WTFULL_IRQ_EN)

/-- Fast outputs are clamped: a rail low, SL_RSTN asserted or SL_FUSE_OFF high (R400). -/
def Slice.clamped (s : Slice) : Bool := !s.start.rails || s.start.sliceReset || s.start.aonReset || s.start.fuseOff

/-- The frame of a retire-table entry lies in a half, and the entry holds a lost line (R334). -/
def Slice.lostEntry (s : Slice) (h i : Nat) : Bool := s.flag (EC_RT i) EC_RT_LOST && s.fld (EC_RT i) EC_RT_HALF = h

/-- A lost line lies in a half (R313). -/
def Slice.halfLost (s : Slice) (h : Nat) : Bool :=
  (List.range 64).any (s.lostEntry h) || s.victims.any (fun v => v.2.lost && !v.2.empty && halfOfSet v.2.setIdx = h)

/-- OFF_HELD of a half. -/
def heldField (h : Nat) : Fld := if h = 0 then AG_PSTATE_OFF_HELD_H0 else AG_PSTATE_OFF_HELD_H1

/-- OFF_HELD clears when the last lost line of the half is discarded (R313). (DEDUCED, log 33) -/
def Slice.settleHeld (s : Slice) (h : Nat) : Slice :=
  if s.flag AG_PSTATE (heldField h) && !(s.halfLost h) then s.clearF AG_PSTATE (heldField h) else s

/-- The level sources follow the registers, and clamped lines are 0: what holds after every command (R337, R393, R221, R400). -/
def Slice.settle (s : Slice) : Slice :=
  let s := (s.settleHeld 0).settleHeld 1
  let p := { s.pins with errSrc := s.errSource, sampleSrc := s.sampleSource, syncSrc := s.syncSource,
                         irqErr := s.pins.irqErr && !s.clamped, irqSample := s.pins.irqSample && !s.clamped,
                         irqSync := s.pins.irqSync && !s.clamped }
  { s with pins := p, ahead := [] }

/-- The sampling of the level sources at a REFCLK edge: each line takes the value sampled at the edge before (R411). -/
def Slice.sampleIrq (s : Slice) : Slice :=
  { s with pins := { s.pins with errSmp := s.errSource, sampleSmp := s.sampleSource, syncSmp := s.syncSource,
                                 irqErr := s.pins.errSmp && !s.clamped, irqSample := s.pins.sampleSmp && !s.clamped,
                                 irqSync := s.pins.syncSmp && !s.clamped } }

end Sys2Proof.Machine
end

