-- ==== Sys2Proof/Machine/Axa.lean ====
section
/-! DEFINITION. Exact accumulation: elements, conversion, update and finalize (spec 06_exact_accumulation.md R147 to R152, R166 to R170). -/

namespace Sys2Proof.Machine

/-- An element format (R147): bytes, value bits w, count bits, quantum exponent f (quantum 2^(A−f)), clamp. -/
structure AxaFmt where
  bytes : Nat
  w : Nat
  cw : Nat
  f : Nat
  clamp : Int
  deriving DecidableEq, Repr

/-- AXA64. -/
def axa64 : AxaFmt := ⟨8, 56, 8, 46, 2 ^ 47 - 1⟩

/-- AXA128. -/
def axa128 : AxaFmt := ⟨16, 96, 32, 62, 2 ^ 63 - 1⟩

/-- The format that a FORMAT bit names. -/
def axaOf (fmt : Nat) : AxaFmt := if fmt = 0 then axa64 else axa128

/-- The count ceiling. -/
def AxaFmt.cmax (x : AxaFmt) : Nat := 2 ^ x.cw - 1

/-- An element: its signed value and its count (R147). -/
structure El where
  v : Int
  c : Nat
  deriving DecidableEq, Repr

/-- The classes of R148. -/
inductive ElClass where
  | zero | exact | ceiling | dead | nf
  deriving DecidableEq, Repr

/-- The DEAD value of a format. -/
def AxaFmt.deadV (x : AxaFmt) : Int := 2 ^ (x.w - 1) - 1

/-- The canonical NF value of a format. -/
def AxaFmt.nfV (x : AxaFmt) : Int := -2 ^ (x.w - 1)

/-- The class of an element (R148). -/
def El.cls (x : AxaFmt) (e : El) : ElClass :=
  if e.c = 0 then (if e.v = 0 then .zero else if e.v = x.deadV then .dead else .nf)
  else if e.c = x.cmax then .ceiling else .exact

/-- The canonical NF element. -/
def El.nfEl (x : AxaFmt) : El := ⟨x.nfV, 0⟩

/-- The DEAD element. -/
def El.deadEl (x : AxaFmt) : El := ⟨x.deadV, 0⟩

/-- The stored bits of an element. -/
def El.bits (x : AxaFmt) (e : El) : Nat := wrapN x.w e.v + 2 ^ x.w * e.c

/-- An element from its stored bits. -/
def El.ofBits (x : AxaFmt) (n : Nat) : El := ⟨sext x.w n, n / 2 ^ x.w % 2 ^ x.cw⟩

/-- A signed value wrapped to w bits. -/
def wrapI (w : Nat) (v : Int) : Int := sext w (wrapN w v)

/-- The update of R151; with the count of a partial in place of 1 it is the merge of R152. -/
def El.update (x : AxaFmt) (e : El) (q : Int) (n : Nat) (nf : Bool) : El :=
  if e.cls x = .nf || nf then El.nfEl x
  else if e.cls x = .dead then ⟨wrapI x.w q, min x.cmax n⟩
  else ⟨wrapI x.w (e.v + q), min x.cmax (e.c + n)⟩

/-- A partial is non-finite: count 0 and a nonzero value (R152). -/
def El.partialNf (p : El) : Bool := p.c = 0 && p.v != 0

/-- The merge of a partial into an element (R152). -/
def El.merge (x : AxaFmt) (e p : El) : El := e.update x p.v p.c p.partialNf

/-! ### Input formats (R149) -/

/-- A binary floating-point format: exponent bits, mantissa bits, bias. -/
structure FpFmt where
  ew : Nat
  mw : Nat
  bias : Nat
  deriving DecidableEq, Repr

/-- The formats FP32, BF16 and FP16, in the numbering of IN_FMT, OUT_FMT and FUSE_FMT (R159). -/
def fpOf (n : Nat) : FpFmt := if n = 0 then ⟨8, 23, 127⟩ else if n = 1 then ⟨8, 7, 127⟩ else ⟨5, 10, 15⟩

/-- The bytes of an input of IN_FMT (R160). -/
def inBytes (n : Nat) : Nat := if n = 1 || n = 2 then 2 else 4

/-- n / d rounded to nearest, ties to even. -/
def rneDiv (n d : Nat) : Nat :=
  if 2 * (n % d) > d || (2 * (n % d) = d && n / d % 2 = 1) then n / d + 1 else n / d

/-- m · 2^sh rounded to nearest, ties to even. -/
def scaleRne (m : Int) (sh : Int) : Int :=
  if 0 ≤ sh then m * 2 ^ sh.toNat
  else
    let q : Int := rneDiv m.natAbs (2 ^ (-sh).toNat)
    if m < 0 then -q else q

/-- A decoded floating-point value: NaN, infinity by sign, or sign, magnitude m and exponent e for m · 2^e. -/
inductive FpVal where
  | nan
  | inf (neg : Bool)
  | fin (neg : Bool) (m : Nat) (e : Int)
  deriving DecidableEq, Repr

/-- Decode the bits of a value (IEEE 754, subnormals included). -/
def fpDecode (f : FpFmt) (b : Nat) : FpVal :=
  let neg := b / 2 ^ (f.ew + f.mw) % 2 = 1
  let ef := b / 2 ^ f.mw % 2 ^ f.ew
  let mf := b % 2 ^ f.mw
  if ef = 2 ^ f.ew - 1 then (if mf = 0 then .inf neg else .nan)
  else if ef = 0 then .fin neg mf (1 - (f.bias : Int) - f.mw)
  else .fin neg (mf + 2 ^ f.mw) ((ef : Int) - f.bias - f.mw)

/-- The outcome of a conversion (R149). -/
structure Conv where
  q : Int
  counted : Bool
  sat : Bool
  nf : Bool
  deriving DecidableEq, Repr

/-- Clamp of R149. -/
def convClamp (cl q : Int) : Conv :=
  if cl < q then ⟨cl, true, true, false⟩ else if q < -cl then ⟨-cl, true, true, false⟩ else ⟨q, true, false, false⟩

/-- convert of R149: bits of a contribution, IN_FMT, region format, anchor. -/
def convert (b fmt : Nat) (x : AxaFmt) (a : Int) : Conv :=
  if b = 0 then ⟨0, false, false, false⟩
  else if fmt = 3 then convClamp x.clamp (scaleRne (sext 32 b) (x.f - a))
  else match fpDecode (fpOf fmt) b with
    | .nan => ⟨0, true, false, true⟩
    | .inf _ => ⟨0, true, false, true⟩
    | .fin neg m e => convClamp x.clamp (scaleRne (if neg then -(m : Int) else m) (e + x.f - a))

/-- The exponent that EXPMAX takes from an input: none for a zero, 0x7FFF_FFFF with NFIN for a non-finite one (R166). -/
def expOf (b fmt : Nat) : Option (Int × Bool) :=
  if fmt = 3 then
    let m := (sext 32 b).natAbs
    if m = 0 then none else some (Nat.log2 m, false)
  else match fpDecode (fpOf fmt) b with
    | .nan => some (0x7FFFFFFF, true)
    | .inf _ => some (0x7FFFFFFF, true)
    | .fin _ m e => if m = 0 then none else some ((Nat.log2 m : Int) + e, false)

/-! ### Finalize (R167 to R169) -/

/-- Round a nonzero magnitude m · 2^e to a format, ties to even; the result is the exponent and mantissa bits, past the largest finite value
when it overflows. -/
def fpRoundMag (f : FpFmt) (m : Nat) (e : Int) : Nat :=
  let l : Int := (Nat.log2 m : Int) + e
  let emin : Int := 1 - (f.bias : Int)
  let x := max l emin
  let q := (scaleRne m (e - (x - f.mw))).toNat
  (x - emin).toNat * 2 ^ f.mw + q

/-- The canonical NaN (R168). -/
def fpNan (f : FpFmt) : Nat := (2 ^ f.ew - 1) * 2 ^ f.mw + 2 ^ (f.mw - 1)

/-- The bits of infinity. -/
def fpInf (f : FpFmt) (neg : Bool) : Nat := b2n neg * 2 ^ (f.ew + f.mw) + (2 ^ f.ew - 1) * 2 ^ f.mw

/-- Round a value to FP32, BF16 or FP16 (R168). -/
def fpRound (f : FpFmt) (v : FpVal) : Nat :=
  match v with
  | .nan => fpNan f
  | .inf neg => fpInf f neg
  | .fin neg m e =>
    let s := b2n neg * 2 ^ (f.ew + f.mw)
    if m = 0 then s
    else
      let r := fpRoundMag f m e
      if (2 ^ f.ew - 1) * 2 ^ f.mw ≤ r then fpInf f neg else s + r

/-- A signed sum of two finite values, exact; a zero sum is +0. -/
def addExact (n1 : Bool) (m1 : Nat) (e1 : Int) (n2 : Bool) (m2 : Nat) (e2 : Int) : FpVal :=
  let e := min e1 e2
  let a : Int := (if n1 then -(m1 : Int) else m1) * 2 ^ (e1 - e).toNat
  let b : Int := (if n2 then -(m2 : Int) else m2) * 2 ^ (e2 - e).toNat
  if a + b = 0 then .fin false 0 e else .fin (decide (a + b < 0)) (a + b).natAbs e

/-- w_i of R168: element, STRICT, dead frame, and the second operand with FOP if there is one. -/
def finValue (x : AxaFmt) (a : Int) (e : El) (strict : Bool) (y : Option (FpVal × Bool)) : FpVal :=
  let cls := e.cls x
  let v := if cls = .dead then 0 else e.v
  if cls = .nf || (cls = .ceiling && strict) then .nan
  else
    let rneg := decide (v < 0)
    let re : Int := a - x.f
    match y with
    | none => .fin rneg v.natAbs re
    | some (.nan, _) => .nan
    | some (.inf neg, mul) => if mul then (if v = 0 then .nan else .inf (neg != rneg)) else .inf neg
    | some (.fin neg m ye, mul) =>
      if mul then .fin (neg != rneg) (v.natAbs * m) (re + ye)
      else addExact rneg v.natAbs re neg m ye

/-- floor(log2) of the largest magnitude among finite values, if some is nonzero. -/
def maxLog (l : List FpVal) : Option Int :=
  l.foldl (fun r v => match v with
    | .fin _ m e => if m = 0 then r else
        let k : Int := (Nat.log2 m : Int) + e
        (match r with
         | none => some k
         | some x => some (max x k))
    | _ => r) none

/-- One MXFP8 element: w / 2^k rounded to E4M3 or E5M2 and saturated (R169). -/
def mxElem (e5m2 : Bool) (k : Int) (v : FpVal) : Nat :=
  match v with
  | .fin neg m e =>
    let f : FpFmt := if e5m2 then ⟨5, 2, 15⟩ else ⟨4, 3, 7⟩
    let top := if e5m2 then 0x7B else 0x7E
    b2n neg * 128 + (if m = 0 then 0 else min top (fpRoundMag f m (e - k)))
  | _ => 0

/-- The MXFP8 payload of a run: elements in bytes 0 to 31, the shared scale in byte 32 (R167, R169). -/
def mxBlock (e5m2 : Bool) (l : List FpVal) : Nat :=
  let bad := l.any (fun v => match v with
    | .fin _ _ _ => false
    | _ => true)
  let pack := fun (g : FpVal → Nat) (scale : Nat) =>
    (l.foldl (fun (a : Nat × Nat) v => (a.1 + g v * 2 ^ a.2, a.2 + 8)) (0, 0)).1 + scale * 2 ^ 256
  if bad then pack (fun _ => 0) 0xFF
  else match maxLog l with
    | none => pack (mxElem e5m2 0) 0
    | some lg =>
      let k := max (-127) (min 127 (lg - (if e5m2 then 15 else 8)))
      pack (mxElem e5m2 k) (k + 127).toNat

/-- The number of elements of a run (R167): OUT_FMT, FORMAT, and FUSE_FMT when fused. -/
def runLen (out fmt : Nat) (fuse : Option Nat) : Nat :=
  if out = 1 || out = 2 then (if fmt = 0 && fuse != some 0 then 64 else 32) else 32

/-- The bytes of an element of OUT_FMT. -/
def outBytes (out : Nat) : Nat := if out = 0 then 4 else 2

/-- The ACC_DATA payload of a run (R167 to R169). -/
def finPayload (out : Nat) (l : List FpVal) : Payload :=
  if out = 3 then BitVec.ofNat 1152 (mxBlock false l)
  else if out = 4 then BitVec.ofNat 1152 (mxBlock true l)
  else BitVec.ofNat 1152
    (l.foldl (fun (a : Nat × Nat) v => (a.1 + fpRound (fpOf out) v * 2 ^ a.2, a.2 + 8 * outBytes out)) (0, 0)).1

/-! ### Elements of a line -/

/-- Element i of a line. -/
def elAt (x : AxaFmt) (l : Line) (i : Nat) : El := El.ofBits x (bytesAt l (x.bytes * i) x.bytes)

/-- A line with element i replaced. -/
def setEl (x : AxaFmt) (l : Line) (i : Nat) (e : El) : Line := setF l ⟨8 * x.bytes * i, 8 * x.bytes⟩ (e.bits x)

/-- Elements per line (R147). -/
def AxaFmt.perLine (x : AxaFmt) : Nat := 128 / x.bytes

/-- Some element of a line is DEAD. -/
def anyDead (x : AxaFmt) (l : Line) : Bool := (List.range x.perLine).any (fun i => (elAt x l i).cls x = .dead)

/-- A line with its DEAD elements read as zero (R156, R245). -/
def deadAsZero (x : AxaFmt) (l : Line) : Line :=
  (List.range x.perLine).foldl (fun l i => if (elAt x l i).cls x = .dead then setEl x l i ⟨0, 0⟩ else l) l

/-- A line of DEAD elements (R157). -/
def deadLine (x : AxaFmt) : Line := (List.range x.perLine).foldl (fun l i => setEl x l i (El.deadEl x)) 0

end Sys2Proof.Machine
end

