-- ==== Sys2Proof/Machine/LineAlu.lean ====
section
/-! DEFINITION. The element operations of line operations and atomics (spec 07_line_operations.md R179 to R183). -/

namespace Sys2Proof.Machine

/-- The bytes of an element of WIDTH 0, 1 or 2 (R179). -/
def widthBytes (w : Nat) : Nat := if w = 0 then 4 else if w = 1 then 8 else 2

/-- The format of FMIN and FMAX (R180): FP32 at 4 bytes, FP16 or BF16 at 2. -/
def fminFmt (width : Nat) (bf : Bool) : FpFmt := if width = 0 then fpOf 0 else if bf then fpOf 1 else fpOf 2

/-- A pattern is a NaN. -/
def isNan (f : FpFmt) (b : Nat) : Bool := b / 2 ^ f.mw % 2 ^ f.ew = 2 ^ f.ew - 1 && b % 2 ^ f.mw != 0

/-- The place of a pattern in the total order of R182: −0 below +0, every NaN above +∞. -/
def fpKey (f : FpFmt) (b : Nat) : Int :=
  if isNan f b then 2 ^ (f.ew + f.mw)
  else if b / 2 ^ (f.ew + f.mw) % 2 = 1 then -(b % 2 ^ (f.ew + f.mw) : Nat) - 1 else (b % 2 ^ (f.ew + f.mw) : Nat)

/-- FMIN (R182). -/
def fmin (f : FpFmt) (a b : Nat) : Nat :=
  let r := if fpKey f a ≤ fpKey f b then a else b
  if isNan f r then fpNan f else r

/-- FMAX (R182). -/
def fmax (f : FpFmt) (a b : Nat) : Nat :=
  let r := if fpKey f a ≤ fpKey f b then b else a
  if isNan f r then fpNan f else r

/-- The element operation OP on elements of n bytes (R180). -/
def elemOp (op n : Nat) (f : FpFmt) (old opnd : Nat) : Nat :=
  let m := 2 ^ (8 * n)
  match op with
  | 0 => (old + opnd) % m
  | 1 => if sext (8 * n) old ≤ sext (8 * n) opnd then old else opnd
  | 2 => if sext (8 * n) old ≤ sext (8 * n) opnd then opnd else old
  | 3 => min old opnd
  | 4 => max old opnd
  | 5 => old &&& opnd
  | 6 => old ||| opnd
  | 7 => old ^^^ opnd
  | 8 => fmin f old opnd
  | 9 => fmax f old opnd
  | _ => old

/-- OP is defined and WIDTH is allowed for it (R180). -/
def opAllowed (op width : Nat) : Bool :=
  if op ≤ 4 then decide (width ≤ 1) else if op ≤ 7 then decide (width ≤ 2) else if op ≤ 9 then width = 0 || width = 2 else false

/-- A LINE_OP on every element of a line (R181). -/
def lineOpData (op width : Nat) (bf : Bool) (l opnd : Line) : Line :=
  let n := widthBytes width
  packElems n (fun i => elemOp op n (fminFmt width bf) (bytesAt l (n * i) n) (bytesAt opnd (n * i) n)) (128 / n)

end Sys2Proof.Machine
end

