-- ==== Sys2Proof/Machine/SyncObj.lean ====
section
/-! DEFINITION. The synchronisation object and what each opcode does to it, apart from the waiter table (spec 08_sync_objects.md R195 to
R209). -/

namespace Sys2Proof.Machine

/-- An object of 16 bytes (R196). -/
abbrev SyObj := BitVec 128

abbrev SO_VALUE : Fld := ⟨0, 32⟩
abbrev SO_WAITERS : Fld := ⟨32, 16⟩
abbrev SO_LAST : Fld := ⟨48, 11⟩
abbrev SO_GEN : Fld := ⟨64, 16⟩
abbrev SO_PCOUNT : Fld := ⟨80, 16⟩
abbrev SO_TYPE : Fld := ⟨96, 2⟩
abbrev SO_PID : Fld := ⟨98, 4⟩
abbrev SO_DRAIN : Fld := ⟨102, 1⟩
abbrev SO_OVF : Fld := ⟨103, 1⟩
abbrev SO_UNF : Fld := ⟨104, 1⟩
abbrev SO_EARLY : Fld := ⟨105, 1⟩
abbrev SO_MISUSE : Fld := ⟨106, 1⟩
abbrev SO_MANUAL : Fld := ⟨107, 1⟩

/-- Object k of a sync line (R195). -/
def objAt (l : Line) (k : Nat) : SyObj := l.extractLsb' (128 * k) 128

/-- A sync line with object k replaced. -/
def setObj (l : Line) (k : Nat) (o : SyObj) : Line := setF l ⟨128 * k, 128⟩ o.toNat

/-- The statuses of R200. -/
abbrev ST_OK : Nat := 0x0
abbrev ST_RELEASED : Nat := 0x1
abbrev ST_FAILED : Nat := 0x2
abbrev ST_WT_FULL : Nat := 0x3
abbrev ST_ORPHANED : Nat := 0x4
abbrev ST_MISUSE : Nat := 0x5
abbrev ST_UNINIT : Nat := 0x6
abbrev ST_TYPE : Nat := 0x7
abbrev ST_BUSY : Nat := 0x8
abbrev ST_FORCED : Nat := 0x9
abbrev ST_BADARG : Nat := 0xA
abbrev ST_NOPARK : Nat := 0xB
abbrev ST_OWNER : Nat := 0xC

/-- A SYNC_DATA payload (R200). -/
def syncData (gen status : Nat) (ovf unf : Bool) (tick : Word) : Payload :=
  setF (setF (setF (setF (setF (0 : Payload) ⟨0, 16⟩ gen) ⟨16, 4⟩ status) ⟨20, 1⟩ (b2n ovf)) ⟨21, 1⟩ (b2n unf)) ⟨64, 64⟩ tick.toNat

/-- SY_INIT (R203): the status and the object. -/
def syInit (o : SyObj) (pid itype arg pcount src : Nat) : Nat × SyObj :=
  if getF o SO_TYPE != 0 && getF o SO_PID != pid then (ST_OWNER, o)
  else if getF o SO_WAITERS != 0 || getF o SO_DRAIN = 1 then (ST_BUSY, o)
  else if (itype = 3 && pcount = 0) || (itype != 3 && pcount != 0) || (itype = 3 && arg != 0) then (ST_BADARG, o)
  else (ST_OK, setF (setF (setF (setF (setF (0 : SyObj) SO_TYPE itype) SO_VALUE arg) SO_PCOUNT pcount) SO_PID pid) SO_LAST src)

/-- The saturating sum of SY_ADD (R204): the new VALUE, OVF and UNF. -/
def satSum (v : Nat) (d : Int) : Nat × Bool × Bool :=
  let s : Int := v + d
  if 0xFFFFFFFF < s then (0xFFFFFFFF, true, false) else if s < 0 then (0, false, true) else (s.toNat, false, false)

/-- VALUE, OVF, UNF and LAST_SIG after SY_ADD (R196, R204). -/
def addValue (o : SyObj) (d : Int) (src : Nat) : SyObj :=
  let r := satSum (getF o SO_VALUE) d
  let o := if r.1 = getF o SO_VALUE then o else setF (setF o SO_VALUE r.1) SO_LAST src
  let o := if r.2.1 then setF o SO_OVF 1 else o
  if r.2.2 then setF o SO_UNF 1 else o

/-- The counter condition CMP (R199). -/
def cmpHolds (cmp v arg : Nat) : Bool :=
  match cmp with
  | 0 => decide (arg ≤ v)
  | 1 => decide (v ≤ arg)
  | 2 => v = arg
  | _ => v != arg

/-- d of R207: the distance of generation a from GEN. -/
def genDist (o : SyObj) (a : Nat) : Nat := (a + 65536 - getF o SO_GEN) % 65536

/-- The check of every operation other than SY_INIT (R202): UNINIT, OWNER or TYPE. -/
def syCheck (o : SyObj) (pid : Nat) (typeOk : Bool) : Option Nat :=
  if getF o SO_TYPE = 0 then some ST_UNINIT else if getF o SO_PID != pid then some ST_OWNER
  else if !typeOk then some ST_TYPE else none

end Sys2Proof.Machine
end

