-- ==== Sys2Proof/Machine/Operands.lean ====
section
/-! DEFINITION. Operands: the opcode-specific fields of every request (spec R98, R129, R159, R179, R199), the span it names, and the check stage
that admits or refuses it (R25, R39, R51, R55, R92, R99, R156, R161, R185, R201). -/

namespace Sys2Proof.Machine

/-! ### Opcodes (R83, R97, R128, R158, R178, R198) -/

abbrev OP_RD_S : BitVec 6 := 0x00
abbrev OP_RD_X : BitVec 6 := 0x01
abbrev OP_UPG : BitVec 6 := 0x02
abbrev OP_RD_NC : BitVec 6 := 0x03
abbrev OP_WR_NC : BitVec 6 := 0x04
abbrev OP_WB : BitVec 6 := 0x05
abbrev OP_STASH : BitVec 6 := 0x06
abbrev OP_ACC_ADD : BitVec 6 := 0x10
abbrev OP_ACC_ADD_S : BitVec 6 := 0x11
abbrev OP_ACC_MERGE : BitVec 6 := 0x12
abbrev OP_ACC_FIN : BitVec 6 := 0x13
abbrev OP_ACC_FIN_FUSE : BitVec 6 := 0x14
abbrev OP_EXPMAX : BitVec 6 := 0x15
abbrev OP_ACC_ANCHOR : BitVec 6 := 0x16
abbrev OP_LINE_OP : BitVec 6 := 0x18
abbrev OP_FETCH_OP : BitVec 6 := 0x19
abbrev OP_SWAP : BitVec 6 := 0x1A
abbrev OP_CAS : BitVec 6 := 0x1B
abbrev OP_SY_INIT : BitVec 6 := 0x20
abbrev OP_SY_ADD : BitVec 6 := 0x21
abbrev OP_SY_ACQ : BitVec 6 := 0x22
abbrev OP_SY_ARRIVE : BitVec 6 := 0x23
abbrev OP_SY_WAIT : BitVec 6 := 0x24
abbrev OP_SY_READ : BitVec 6 := 0x25
abbrev OP_PIN_RD : BitVec 6 := 0x28
abbrev OP_PIN_WR : BitVec 6 := 0x29
abbrev OP_PIN_FILL : BitVec 6 := 0x2A
abbrev OP_PIN_COPY : BitVec 6 := 0x2B
abbrev OP_PIN_DROP : BitVec 6 := 0x2C
abbrev OP_PIN_FANOUT : BitVec 6 := 0x2D
abbrev OP_ZERO_LINE : BitVec 6 := 0x30
abbrev OP_CLEAN_LINE : BitVec 6 := 0x31
abbrev OP_FLUSH_LINE : BitVec 6 := 0x32
abbrev OP_INVAL_LINE : BitVec 6 := 0x33
abbrev OP_CFG_RD : BitVec 6 := 0x3A
abbrev OP_CFG_WR : BitVec 6 := 0x3B
abbrev OP_MEM_RD : BitVec 6 := 0x3C
abbrev OP_MEM_WR : BitVec 6 := 0x3D

abbrev FW_FWD_S : BitVec 6 := 0
abbrev FW_FWD_X : BitVec 6 := 1
abbrev FW_FWD_CLEAN : BitVec 6 := 2
abbrev FW_INV : BitVec 6 := 3
abbrev FW_BINV : BitVec 6 := 4
abbrev FW_PUSH : BitVec 6 := 5

abbrev RS_COMP : BitVec 6 := 0x00
abbrev RS_COMP_ACK : BitVec 6 := 0x01
abbrev RS_FWD_ACK : BitVec 6 := 0x02
abbrev RS_INV_ACK : BitVec 6 := 0x03
abbrev RS_NACK_GONE : BitVec 6 := 0x04
abbrev RS_PUSH_ACK : BitVec 6 := 0x05
abbrev RS_PUSH_DECLINE : BitVec 6 := 0x06
abbrev RS_ACCESS_DENIED : BitVec 6 := 0x08
abbrev RS_BAD_TARGET : BitVec 6 := 0x09
abbrev RS_DATA_ERR : BitVec 6 := 0x0A
abbrev RS_MISROUTED : BitVec 6 := 0x0B
abbrev RS_UNSUPPORTED : BitVec 6 := 0x0C
abbrev RS_FO_CREDIT : BitVec 6 := 0x29
abbrev RS_MEM_ACK : BitVec 6 := 0x3C

abbrev DT_DATA : BitVec 6 := 0x00
abbrev DT_SNP_DATA : BitVec 6 := 0x01
abbrev DT_ACC_DATA : BitVec 6 := 0x10
abbrev DT_ATOM_DATA : BitVec 6 := 0x18
abbrev DT_SYNC_DATA : BitVec 6 := 0x20
abbrev DT_SYNC_OBJ : BitVec 6 := 0x21
abbrev DT_PIN_DATA : BitVec 6 := 0x28
abbrev DT_FO_DATA : BitVec 6 := 0x29
abbrev DT_CFG_DATA : BitVec 6 := 0x3A
abbrev DT_MEM_DATA : BitVec 6 := 0x3C

/-- The REQ opcodes that the slice receives (R39). -/
def reqDefined (op : BitVec 6) : Bool :=
  let n := op.toNat
  n ≤ 0x06 || (0x10 ≤ n && n ≤ 0x16) || (0x18 ≤ n && n ≤ 0x1B) || (0x20 ≤ n && n ≤ 0x25) || (0x28 ≤ n && n ≤ 0x2D)
    || (0x30 ≤ n && n ≤ 0x33) || n = 0x3A || n = 0x3B

/-- The accumulation requests, EXPMAX and ACC_ANCHOR among them (R158). -/
def isAcc (op : BitVec 6) : Bool := decide (0x10 ≤ op.toNat) && decide (op.toNat ≤ 0x16)

/-- The line operations and atomics (R178). -/
def isLop (op : BitVec 6) : Bool := decide (0x18 ≤ op.toNat) && decide (op.toNat ≤ 0x1B)

/-- The sync requests (R198). -/
def isSy (op : BitVec 6) : Bool := decide (0x20 ≤ op.toNat) && decide (op.toNat ≤ 0x25)

/-- The pinned requests (R97). -/
def isPin (op : BitVec 6) : Bool := decide (0x28 ≤ op.toNat) && decide (op.toNat ≤ 0x2D)

/-- The register accesses. -/
def isCfg (op : BitVec 6) : Bool := op = OP_CFG_RD || op = OP_CFG_WR

/-- Finalize requests. -/
def isFin (op : BitVec 6) : Bool := op = OP_ACC_FIN || op = OP_ACC_FIN_FUSE

/-- The pseudo-opcodes of internal sync operations: a drain continuation, SET_VALUE, RELEASE_ALL and a re-evaluation (R208, R217, R219).
The entry number travels in TXN. -/
abbrev OP_SY_DRAIN : BitVec 6 := 0x26
abbrev OP_SY_SET : BitVec 6 := 0x27
abbrev OP_SY_ALL : BitVec 6 := 0x2E
abbrev OP_SY_AGAIN : BitVec 6 := 0x2F

/-- Internal sync operations. -/
def isSyInternal (op : BitVec 6) : Bool := op = OP_SY_DRAIN || op = OP_SY_SET || op = OP_SY_ALL || op = OP_SY_AGAIN

/-- Operations on frames in two slots that the line-operation datapath performs (R188). -/
def isFrameOp (op : BitVec 6) : Bool := (isAcc op && op != OP_ACC_ANCHOR) || isLop op || isSy op || isSyInternal op

end Sys2Proof.Machine

namespace Sys2Proof

open Sys2Proof.Machine

/-! ### Fields -/

/-- PIN of a line, accumulation or sync request: EXT0[5]. -/
def Arr.pin (a : Arr) : Bool := a.ext0.getLsbD 5

/-- IN_FMT or OUT_FMT: EXT0[2:0]. -/
def Arr.fmt3 (a : Arr) : Nat := getF a.ext0 ⟨0, 3⟩

/-- ZERO of a finalize: EXT0[3]. -/
def Arr.zero (a : Arr) : Bool := a.ext0.getLsbD 3

/-- STRICT of a finalize: EXT0[4]. -/
def Arr.strict (a : Arr) : Bool := a.ext0.getLsbD 4

/-- FOP of a fused finalize: EXT0[6]; 1 is MUL. -/
def Arr.fop (a : Arr) : Bool := a.ext0.getLsbD 6

/-- FUSE_FMT: EXT0[8:7]. -/
def Arr.fuseFmt (a : Arr) : Nat := getF a.ext0 ⟨7, 2⟩

/-- ANCHOR: EXT1[9:0], signed. -/
def Arr.anchor (a : Arr) : Int := sext 10 (getF a.ext1 ⟨0, 10⟩)

/-- FORMAT: EXT1[10]. -/
def Arr.format (a : Arr) : Nat := getF a.ext1 ⟨10, 1⟩

/-- OP of a line operation: EXT0[3:0]. -/
def Arr.lop (a : Arr) : Nat := getF a.ext0 ⟨0, 4⟩

/-- WIDTH: EXT0[7:6]. -/
def Arr.width (a : Arr) : Nat := getF a.ext0 ⟨6, 2⟩

/-- BF: EXT0[8]. -/
def Arr.bf (a : Arr) : Bool := a.ext0.getLsbD 8

/-- WAIT of a sync request: EXT0[6]. -/
def Arr.wait (a : Arr) : Bool := a.ext0.getLsbD 6

/-- CMP of SY_WAIT: EXT0[8:7]. -/
def Arr.cmp (a : Arr) : Nat := getF a.ext0 ⟨7, 2⟩

/-- ARG of a sync payload. -/
def Arr.sArg (a : Arr) : Nat := getF a.pl ⟨0, 32⟩

/-- ARG1 of a sync payload. -/
def Arr.sArg1 (a : Arr) : Nat := getF a.pl ⟨32, 16⟩

/-- ITYPE of SY_INIT. -/
def Arr.sType (a : Arr) : Nat := getF a.pl ⟨48, 2⟩

/-- SCHED of PIN_RD and PIN_WR: EXT0[14]. -/
def Arr.sched (a : Arr) : Bool := a.ext0.getLsbD 14

/-- SMASK of PIN_WR, DMASK of WB and SNP_DATA: EXT0[3:0]. -/
def Arr.smask (a : Arr) : BitVec 4 := a.ext0.extractLsb' 0 4

/-- COUNT of a multi-frame operation: EXT1. -/
def Arr.count (a : Arr) : Nat := a.ext1.toNat

/-- AS of PIN_DROP: EXT0[0]. -/
def Arr.as (a : Arr) : Bool := a.ext0.getLsbD 0

/-- SRC_OFF of PIN_COPY. -/
def Arr.srcOff (a : Arr) : Nat := getF a.pl ⟨0, 48⟩

/-- The byte mask of WR_NC and STASH (R128). -/
def Arr.wmask (a : Arr) : BitVec 128 := a.pl.extractLsb' 0 128

/-- The data of WR_NC and STASH. -/
def Arr.wdata (a : Arr) : Line := a.pl.extractLsb' 128 1024

/-- A payload of 128 bytes. -/
def Arr.line (a : Arr) : Line := a.pl.extractLsb' 0 1024

end Sys2Proof

namespace Sys2Proof.Machine

/-- Which space a request addresses (R36). -/
inductive Space where
  | phys | buf | regs | desc
  deriving DecidableEq, Repr

/-- The space of a request (R51, R97, R159). -/
def spaceOf (op : BitVec 6) (a : Arr) : Space :=
  if isCfg op then .regs
  else if op = OP_ACC_ANCHOR then .desc
  else if op = OP_PIN_DROP then (if a.as then .phys else .buf)
  else if isPin op then .buf
  else if isFrameOp op then (if a.pin then .buf else .phys)
  else .phys

/-! ### Spans (R160, R167) -/

/-- The number of contributions of ACC_ADD and ACC_ADD_S, or of elements of a merge or run. -/
def spanCount (op : BitVec 6) (a : Arr) : Nat :=
  if op = OP_ACC_ADD then 128 / inBytes a.fmt3
  else if op = OP_ACC_ADD_S then 64 / inBytes a.fmt3
  else if op = OP_ACC_MERGE then (axaOf a.format).perLine
  else if op = OP_ACC_FIN then runLen a.fmt3 a.format none
  else if op = OP_ACC_FIN_FUSE then runLen a.fmt3 a.format (some a.fuseFmt)
  else 0

/-- The bytes of a span or run. -/
def spanBytes (op : BitVec 6) (a : Arr) : Nat := spanCount op a * (axaOf a.format).bytes

/-- The number of frames or lines that a frame operation touches. -/
def spanFrames (op : BitVec 6) (a : Arr) : Nat :=
  if isAcc op && op != OP_EXPMAX then max 1 (spanBytes op a / 128) else 1

/-- The last byte address of the range that a buffer request names, for condition 3 of R51 (R99, R161). -/
def lastOffset (op : BitVec 6) (a : Arr) : Nat :=
  if op = OP_PIN_FILL || op = OP_PIN_COPY || op = OP_PIN_DROP then a.addr.toNat + (a.count - 1) * 128
  else if isFrameOp op then a.addr.toNat + (spanFrames op a - 1) * 128
  else a.addr.toNat

/-! ### Accumulation regions (R154) -/

/-- Descriptor d is valid, of a PID and kind, and covers the units lo to hi. -/
def Slice.descCovers (s : Slice) (d pid kind lo hi : Nat) : Bool :=
  s.flag (AX_CFG d) AX_CFG_VALID && s.fld (AX_CFG d) AX_CFG_PID = pid && s.fld (AX_CFG d) AX_CFG_KIND = kind
    && decide (s.fld (AX_BASE d) AX_BASE_BASE ≤ lo) && decide (hi ≤ s.fld (AX_LIMIT d) AX_LIMIT_LIMIT)

/-- The descriptor of a PID and kind that covers the units lo to hi. -/
def Slice.descOf (s : Slice) (pid kind lo hi : Nat) : Option Nat := firstBelow 32 (fun d => s.descCovers d pid kind lo hi)

/-- A physical line lies in an accumulation region of a PID (R155). -/
def Slice.accLine (s : Slice) (pid line : Nat) : Bool := (s.descOf pid 0 (line / 4) (line / 4)).isSome

/-- The element format of the region that holds a line. -/
def Slice.accFmt (s : Slice) (pid line : Nat) : AxaFmt :=
  match s.descOf pid 0 (line / 4) (line / 4) with
  | some d => axaOf (s.fld (AX_CFG d) AX_CFG_FORMAT)
  | none => axa64

/-- The element format of the pinned region that holds a buffer offset. -/
def Slice.accPinFmt (s : Slice) (pid off : Nat) : Option AxaFmt :=
  (s.descOf pid 1 (off / 512) (off / 512)).map (fun d => axaOf (s.fld (AX_CFG d) AX_CFG_FORMAT))

/-! ### Verdicts of the check stage -/

/-- What the check stage decides. -/
inductive Verdict where
  | accepts (lp : Nat) (foreign : Bool)
  | unsupported
  | misrouted
  | denied
  | badPlain
  | badDrop
  | badAx (cause : Nat)
  | badLop (cause : Nat)
  | badSy (cause : Nat)
  deriving DecidableEq, Repr

/-- Fan-out entry k names some mapped core (R111). -/
def Slice.foTargets (s : Slice) (k : Nat) : List Nat :=
  let rows := s.fld (CZ_FO_TGT k) CZ_FO_TGT_ROW_MASK
  let cols := s.fld (CZ_FO_TGT k) CZ_FO_TGT_COL_MASK
  (List.range 32).flatMap (fun r => if rows.testBit r then
    ((List.range 32).filter (fun c => cols.testBit c)).map (fun c => 32 * r + c) else [])

/-- The bytes of a partition's pinned buffer (R51). -/
def Slice.bufBytes (s : Slice) (p : Nat) : Nat := popcount (s.pinMask p) * 0x80000

/-- Condition 3 of R51: a buffer offset that the partition does not own. -/
def Slice.outOfBuf (s : Slice) (op : BitVec 6) (a : Arr) : Bool :=
  let lim := s.bufBytes a.pid.toNat
  spaceOf op a = .buf && (decide (lim ≤ a.addr.toNat) || decide (lim ≤ lastOffset op a)
    || (op = OP_PIN_COPY && (decide (lim ≤ a.srcOff) || decide (lim ≤ a.srcOff + (a.count - 1) * 128))))

/-- Condition 5 of R51: the requests that can write the line or obtain the right to write it. -/
def mayWrite (op : BitVec 6) (a : Arr) : Bool :=
  op = OP_WR_NC || op = OP_STASH || op = OP_WB || op = OP_ZERO_LINE || op = OP_INVAL_LINE || (op = OP_PIN_DROP && a.as)
    || op = OP_RD_X || op = OP_UPG || isLop op || op = OP_ACC_ADD || op = OP_ACC_ADD_S || op = OP_ACC_MERGE || op = OP_EXPMAX
    || (isFin op && a.zero) || op = OP_SY_INIT || op = OP_SY_ADD || op = OP_SY_ACQ || op = OP_SY_ARRIVE || (op = OP_SY_WAIT && a.wait)

/-- Accumulation requests that use a descriptor: R55 does not extend to them (R154). -/
def usesDesc (op : BitVec 6) : Bool := isAcc op && op != OP_EXPMAX

/-- BAD_TARGET of the pinned requests, in the order of R99. -/
def Slice.pinRefused (s : Slice) (op : BitVec 6) (a : Arr) (lp : Nat) : Option Verdict :=
  let multi := op = OP_PIN_FILL || op = OP_PIN_COPY || (op = OP_PIN_DROP && !a.as)
  let k := getF a.ext0 ⟨0, 4⟩
  let d := a.addr.toNat
  if d % 128 != 0 || (op = OP_PIN_COPY && a.srcOff % 128 != 0) then some .badPlain
  else if multi && a.count = 0 then some .badPlain
  else if op = OP_PIN_COPY && a.srcOff / 128 % 16 != d / 128 % 16 then some .badPlain
  else if op = OP_PIN_COPY && decide (a.srcOff < d + a.count * 128) && decide (d < a.srcOff + a.count * 128) then some .badPlain
  else if op = OP_PIN_FANOUT && (!(s.flag (CZ_FO_CFG k) CZ_FO_CFG_VALID) || s.fld (CZ_FO_CFG k) CZ_FO_CFG_PID != a.pid.toNat
      || !((s.foTargets k).any s.mapped)) then some .badPlain
  else if op = OP_PIN_DROP && a.as && (s.descOf lp 0 (d / 512) (d / 512)).isNone then some .badDrop
  else none

/-- The target of a request lies in an accumulation region of either kind of the lookup PID (R154). -/
def Slice.inAcc (s : Slice) (op : BitVec 6) (a : Arr) (lp : Nat) : Bool :=
  (s.descOf lp (if spaceOf op a = .buf then 1 else 0) (a.addr.toNat / 512) (a.addr.toNat / 512)).isSome

/-- The anchor of a descriptor that a request of the present fc is checked against: one that ACC_ANCHOR replaces in this fc still holds (R165). -/
def Slice.anchorOf (s : Slice) (d : Nat) : Nat :=
  match Tbl.at 0 s.anchors d with
  | 0 => s.fld (AX_CFG d) AX_CFG_ANCHOR
  | n + 1 => n

/-- BAD_TARGET of the accumulation requests, in the order of R161. -/
def Slice.accRefused (s : Slice) (op : BitVec 6) (a : Arr) (lp : Nat) : Option Verdict :=
  let pid := a.pid.toNat
  let d := a.addr.toNat
  let isAdd := op = OP_ACC_ADD || op = OP_ACC_ADD_S
  let n := spanBytes op a
  let kind := if a.pin then 1 else 0
  let desc := s.descOf pid kind (d / 512) ((d + n - 1) / 512)
  let di := d % 32
  if ((isAdd || op = OP_EXPMAX) && 4 ≤ a.fmt3) || (isFin op && 5 ≤ a.fmt3) || (op = OP_ACC_FIN_FUSE && a.fuseFmt = 3) then some (.badAx 0x5)
  else if isAdd && 512 < n then some (.badAx 0x4)
  else if op = OP_EXPMAX then
    (if d % 4 != 0 then some (.badAx 0x3) else if s.inAcc op a lp then some (.badAx 0x6) else none)
  else if op = OP_ACC_ANCHOR then
    (if !(s.flag (AX_CFG di) AX_CFG_VALID) || s.fld (AX_CFG di) AX_CFG_PID != pid then some (.badAx 0x9)
     else if s.fld (AX_CFG di) AX_CFG_FORMAT != a.format then some (.badAx 0x2) else none)
  else match desc with
    | none => some (.badAx 0x1)
    | some x =>
      if s.fld (AX_CFG x) AX_CFG_FORMAT != a.format || s.anchorOf x != getF a.ext1 ⟨0, 10⟩ then some (.badAx 0x2)
      else if d % n != 0 then some (.badAx 0x3) else none

/-- BAD_TARGET of the line operations, in the order of R185. -/
def Slice.lopRefused (s : Slice) (op : BitVec 6) (a : Arr) (lp : Nat) : Option Verdict :=
  let hasOp := op = OP_LINE_OP || op = OP_FETCH_OP
  let fm := hasOp && (a.lop = 8 || a.lop = 9) && a.width = 2
  if (hasOp && !(opAllowed a.lop a.width)) || a.width = 3 || (!hasOp && a.width = 2) || (hasOp && a.bf && !fm) then some (.badLop 1)
  else if (op = OP_LINE_OP && a.addr.toNat % 128 != 0) || (op != OP_LINE_OP && a.addr.toNat % widthBytes a.width != 0) then some (.badLop 2)
  else if s.inAcc op a lp then some (.badAx 0x6) else none

/-- BAD_TARGET of the sync requests, in the order of R201. -/
def Slice.syRefused (s : Slice) (op : BitVec 6) (a : Arr) (lp : Nat) : Option Verdict :=
  if op = OP_SY_INIT && a.sType = 0 then some (.badSy 1)
  else if a.addr.toNat % 16 != 0 then some (.badSy 2)
  else if s.inAcc op a lp then some (.badSy 3) else none

/-- The refusals of the chapters after R51. (DEDUCED, log 70) -/
def Slice.chapterRefused (s : Slice) (op : BitVec 6) (a : Arr) (lp : Nat) : Option Verdict :=
  if isPin op then s.pinRefused op a lp
  else if isAcc op then
    (if a.pin && op != OP_EXPMAX && op != OP_ACC_ANCHOR && a.addr.toNat % 128 != 0 then some .badPlain else s.accRefused op a lp)
  else if isLop op then s.lopRefused op a lp
  else if isSy op then s.syRefused op a lp
  else if (op = OP_RD_S || op = OP_RD_X || op = OP_UPG || op = OP_WB || op = OP_STASH) && s.inAcc op a lp then some (.badAx 0x6)
  else none

/-- Admission of a request that is not a register access (R25, R39, R51, R55), then the chapters' own refusals. (DEDUCED, log 71) -/
def Slice.check (s : Slice) (op : BitVec 6) (a : Arr) : Verdict :=
  let pid := a.pid.toNat
  let addr := a.addr.toNat
  let phys := spaceOf op a = .phys
  let owner := s.owner addr
  let foreign := phys && owner != pid && pid = 0 && s.ptState owner = 2 && !(s.sealed owner) && !(usesDesc op)
  let lp := if foreign then owner else pid
  if !(reqDefined op) then .unsupported
  else if !(s.mine a.dst) then .misrouted
  else if phys && s.homeOf addr != s.id then .misrouted
  else if s.ptState pid != 2 then .denied
  else if s.outOfBuf op a then .denied
  else if phys && owner != pid && !foreign then .denied
  else if phys && s.rdonly addr && mayWrite op a then .denied
  else (s.chapterRefused op a lp).getD (.accepts lp foreign)

/-! ### Where a request acts -/

/-- The set of a buffer offset (R96). -/
def bufSet (off : Nat) : Nat := off / 128 % 4096

/-- The way of a buffer offset of a partition (R96): the set bit of PIN_MASK of that rank. -/
def Slice.bufWay (s : Slice) (p off : Nat) : Nat :=
  (((List.range 16).filter (fun w => (s.pinMask p).getLsbD w)).getD (off / 0x80000 % 16) 0)

/-- The frame of a buffer offset (R96). -/
def Slice.bufKey (s : Slice) (p off : Nat) : Nat := s.fkey (bufSet off) (s.bufWay p off)

/-- The set in which a request's first frame or line lies. (DEDUCED, log 47) -/
def reqSet (op : BitVec 6) (a : Arr) : Nat :=
  if spaceOf op a = .buf then bufSet a.addr.toNat else lineSet (lineNo a.addr.toNat)

/-- The half that serves a request; register accesses lie in H0 (R31). (DEDUCED, log 47) -/
def reqHalf (op : BitVec 6) (a : Arr) : Nat :=
  match spaceOf op a with
  | .regs => 0
  | .desc => a.port.val / 2
  | _ => halfOfSet (reqSet op a)

/-- The extra fc of a request that entered on the other half (R21). -/
def crossing (op : BitVec 6) (a : Arr) : Nat := if a.port.val / 2 = reqHalf op a then 0 else 2

/-- The occurrence that a request's events carry (R386). -/
def Req.occ (r : Req) : Occ :=
  ⟨some (if r.steward then 0 else r.lp), some (reqHalf r.op r.a), r.a.addr.toNat / 128 * 128, spaceOf r.op r.a = .buf,
    if r.steward then 5 else r.a.port.val, 0, r.op.toNat⟩

/-- The master class of a request's own MEM_RD: 31 for the slice's own requests (R274). -/
def Slice.reqClass (s : Slice) (r : Req) : Nat := if r.steward then 31 else s.classOf r.a.src.toNat

/-- A refusal: its response at T+10 fc, 2 more from the other half, and what it sets (R25, R39, R51, R52, R92, R161, R185, R201). (DEDUCED, log 8, 47) -/
def Slice.refuse (s : Slice) (op : BitVec 6) (a : Arr) (v : Verdict) : Slice :=
  let h := reqHalf op a
  let port := if spaceOf op a = .desc then a.port else outPort h a.port
  let due := s.fc + 10 + crossing op a
  let pid := a.pid.toNat
  let addr := a.addr.toNat
  let o := Req.occ ⟨op, a, pid, false, false, s.fc⟩
  match v with
  | .accepts _ _ => s
  | .unsupported => (s.logErr 0x0C (log1Addr addr a.src.toNat) pid).sendRsp port due a RS_UNSUPPORTED 0
  | .misrouted => (s.noteMisroute addr a.src.toNat).sendRsp port due a RS_MISROUTED 0
  | .denied => (s.noteDeny pid addr a.src.toNat o).sendRsp port due a RS_ACCESS_DENIED 0
  | .badPlain => s.sendRsp port due a RS_BAD_TARGET 0
  | .badDrop => (s.noteDrop pid addr).sendRsp port due a RS_BAD_TARGET 0
  | .badAx c => (s.noteAx c pid addr).sendRsp port due a RS_BAD_TARGET 0
  | .badLop c => (s.noteLop c pid op.toNat addr).sendRsp port due a RS_BAD_TARGET 0
  | .badSy c => (s.noteSy c pid op.toNat addr).sendRsp port due a RS_BAD_TARGET 0

end Sys2Proof.Machine
end

