-- ==== Sys2Proof/Machine/Act.lean ====
section
/-! DEFINITION. How a command becomes an outcome: it acts on the slice, and the queue of waiting commands stays as it is. The requests that
wait in the queue are those that reach ingress in the same fc (spec 07_line_operations.md R189). -/

namespace Sys2Proof.Machine

/-- The request that a queued command brings to ingress. -/
def reqOf : Instr → Option (BitVec 6 × Arr)
  | .rdS a => some (OP_RD_S, a)
  | .rdX a => some (OP_RD_X, a)
  | .upg a => some (OP_UPG, a)
  | .rdNc a => some (OP_RD_NC, a)
  | .wrNc a => some (OP_WR_NC, a)
  | .wb a => some (OP_WB, a)
  | .stash a => some (OP_STASH, a)
  | .cfgRd a _ => some (OP_CFG_RD, a)
  | .cfgWr a _ => some (OP_CFG_WR, a)
  | .zeroLine a => some (OP_ZERO_LINE, a)
  | .cleanLine a => some (OP_CLEAN_LINE, a)
  | .flushLine a => some (OP_FLUSH_LINE, a)
  | .invalLine a => some (OP_INVAL_LINE, a)
  | .pinRd a => some (OP_PIN_RD, a)
  | .pinWr a => some (OP_PIN_WR, a)
  | .pinFill a => some (OP_PIN_FILL, a)
  | .pinCopy a => some (OP_PIN_COPY, a)
  | .pinDrop a => some (OP_PIN_DROP, a)
  | .pinFanout a => some (OP_PIN_FANOUT, a)
  | .accAdd a => some (OP_ACC_ADD, a)
  | .accAddS a => some (OP_ACC_ADD_S, a)
  | .accMerge a => some (OP_ACC_MERGE, a)
  | .accFin a => some (OP_ACC_FIN, a)
  | .accFinFuse a => some (OP_ACC_FIN_FUSE, a)
  | .expmax a => some (OP_EXPMAX, a)
  | .lineOp a => some (OP_LINE_OP, a)
  | .fetchOp a => some (OP_FETCH_OP, a)
  | .swap a => some (OP_SWAP, a)
  | .cas a => some (OP_CAS, a)
  | .syInit a => some (OP_SY_INIT, a)
  | .syAdd a => some (OP_SY_ADD, a)
  | .syAcq a => some (OP_SY_ACQ, a)
  | .syArrive a => some (OP_SY_ARRIVE, a)
  | .syWait a => some (OP_SY_WAIT, a)
  | .syRead a => some (OP_SY_READ, a)
  | .undefinedReq op a => some (op, a)
  | .misrouted .req op a => some (op, a)
  | .unmatched .req op a => some (op, a)
  | _ => none

/-- What a queued command brings to the arbiters or to the retire table in the present fc (R29, R189, R335). (DESIGN CHOICE, log 51) -/
def Slice.comingOf (s : Slice) (i : Instr) : Option Coming :=
  match i with
  | .memData a => some (.fill a)
  | .pinStep h b => some (.inner (b2n h * 8 + b.val))
  | .holdQueueReplay h b => some (.inner (b2n h * 8 + b.val))
  | .continuationGrant h b => some (.inner (b2n h * 8 + b.val))
  | .recallReinstate e => some (.inner (bankKey (s.vict e.val).setIdx))
  | .patrolStep => some .inners
  | .patrolDeferredStep _ => some .inners
  | .repairGrant _ => some .inners
  | .quarantineWork => some .inners
  | .drainWrite => some .inners
  | .barrierDrainEnd _ => some .inners
  | .ecRtWrite _ _ _ => some .table
  | i => (reqOf i).map (fun x => .req x.1 x.2)

/-- A command acts on the slice; the queue is left as it is. (DESIGN CHOICE, log 51) -/
def act (f : Slice → Slice) (s : State) : Host.Outcome State Fault Refusal :=
  .next { s with slice := (f { s.slice with ahead := s.pending.filterMap s.slice.comingOf }).settle }

/-- The key of a port's credits of a class. -/
def credKey (p : Port) (c : Cls) : Nat := p.val * 4 + clsCode c

/-- The credits that the neighbour of a port holds for a class (R1, R403). (DEDUCED, log 3) -/
def Slice.rxHeld (s : Slice) (p : Port) (c : Cls) : Nat := Tbl.at 0 s.rxCred (credKey p c)

/-- The neighbour spends a credit. (DEDUCED, log 3) -/
def Slice.spendRx (s : Slice) (p : Port) (c : Cls) : Slice :=
  { s with rxCred := Tbl.put 0 s.rxCred (credKey p c) (s.rxHeld p c - 1) }

/-- A credit goes back to the neighbour. (DEDUCED, log 3) -/
def Slice.returnRx (s : Slice) (p : Port) (c : Cls) : Slice :=
  { s with rxCred := Tbl.put 0 s.rxCred (credKey p c) (s.rxHeld p c + 1) }

/-- A message with a payload is received (R386). -/
def Slice.ingress (s : Slice) (c : Cls) (op : BitVec 6) (a : Arr) : Slice :=
  s.pcEv 0x1D 1 { Occ.none with pid := some a.pid.toNat, addr := a.addr.toNat / 128 * 128, port := a.port.val, cls := clsCode c, op := op.toNat }

/-- A message arrives under a credit, which its arrival spends (R1, R403). While the fast outputs are clamped the slice ignores every fast
input (R400). (DEDUCED, log 3) -/
def actMsg (c : Cls) (a : Arr) (f : Slice → Slice) (s : State) : Host.Outcome State Fault Refusal :=
  if s.slice.clamped then act id s
  else if s.slice.rxHeld a.port c = 0 then .fault .uncreditedMessage else act (fun t => f (t.spendRx a.port c)) s

/-- An answer or a forward is always sunk, and its credit goes back at once (R20, R126). (DEDUCED, log 3) -/
def actSunk (c : Cls) (a : Arr) (f : Slice → Slice) (s : State) : Host.Outcome State Fault Refusal :=
  actMsg c a (fun t => f (t.returnRx a.port c)) s

end Sys2Proof.Machine
end

