-- ==== Sys2Proof/Machine/Crc.lean ====
section
/-! DEFINITION. CRC-32 of IEEE 802.3, which protects the home map, the telemetry frames and the configuration image (spec 01_slice_anatomy.md
R24, R41, 12_power_governor.md R286, 16_startup_image.md R370). -/

namespace Sys2Proof.Machine

/-- One bit of the reflected CRC. -/
def crcBit (c : BitVec 32) : BitVec 32 := if c.getLsbD 0 then (c >>> 1) ^^^ 0xEDB88320 else c >>> 1

/-- One byte of the reflected CRC. -/
def crcByte (c : BitVec 32) (b : Byte) : BitVec 32 :=
  crcBit (crcBit (crcBit (crcBit (crcBit (crcBit (crcBit (crcBit (c ^^^ b.setWidth 32))))))))

/-- The CRC register after some bytes. -/
def crcRun (c : BitVec 32) (l : List Byte) : BitVec 32 := l.foldl crcByte c

/-- CRC-32 of IEEE 802.3 over some bytes. -/
def crc32 (l : List Byte) : BitVec 32 := ~~~(crcRun 0xFFFFFFFF l)

end Sys2Proof.Machine
end

