-- ==== Sys2Proof/Machine/Epoch.lean ====
section
/-! DEFINITION. The write ledger, the shelf and the capture of pre-images (spec 10_epochs_snapshots.md R249 to R260). -/

namespace Sys2Proof.Machine

/-- The region index of an address (R252). -/
def ledgerIdx (addr : Nat) : Nat := addr / 2 ^ 21 % 2 ^ 18

/-- The key of a ledger word: bank × 4,096 + word. -/
def ledgerKey (bank i : Nat) : Nat := bank * 4096 + i / 64

/-- OPEN of a partition (R249). -/
def Slice.openBank (s : Slice) (p : Nat) : Nat := s.fld (EP_PSTATUS p) EP_PSTATUS_OPEN_BANK

/-- Bit i of a ledger bank; an uncorrectable word counts as all ones, so that every region it covers is copied (R332). -/
def Slice.ledgerBit (s : Slice) (bank i : Nat) : Bool :=
  match s.readCw 5 (ledgerKey bank i) 0 with
  | .clean d => d.getLsbD (i % 64)
  | .fixed d _ => d.getLsbD (i % 64)
  | .bad => true

/-- Set bit i of a ledger bank; an uncorrectable word is written as all ones (R332). -/
def Slice.setLedger (s : Slice) (bank i : Nat) : Slice :=
  let k := ledgerKey bank i
  if s.sound then s.putWord 5 k 0 (setF (Tbl.at 0 s.ledger k) ⟨i % 64, 1⟩ 1)
  else
    let bad := s.readCw 5 k 0 = .bad
    let v := s.usedWord 5 k 0
    let s := s.noteRead 5 k 0 0
    s.putLedger k (if bad then BitVec.allOnes 64 else setF v ⟨i % 64, 1⟩ 1)

/-- A harvest of p is capturing: from the close to the RELEASE or ABORT (R257). -/
def Slice.capturing (s : Slice) (p : Nat) : Bool :=
  s.epochs p && s.flag (EP_PSTATUS p) EP_PSTATUS_HARVEST
    && (s.fld (EP_PSTATUS p) EP_PSTATUS_PHASE = 1 || s.fld (EP_PSTATUS p) EP_PSTATUS_PHASE = 2)

/-- A physical line with this EPST must be captured before an epoch write (R257). -/
def Slice.needCapture (s : Slice) (p line epst : Nat) : Bool :=
  s.capturing p && (epst = s.epstFrozen p || (epst = s.epstClean p && s.ledgerBit (1 - s.openBank p) (ledgerIdx (line * 128))))

/-- A free shelf frame of a set (R257, R258). -/
def Slice.freeShelf (s : Slice) (x : Nat) : Option Nat :=
  firstBelow 16 (fun w => s.shelfWays.getLsbD w && getF (s.frame (s.fkey x w)).w0 T0_VALID = 0)

/-- Word 0 of a shelf frame (R258). -/
def shelfW0 (pid : Nat) (pin dead : Bool) (line pway seq : Nat) : Word :=
  setF (setF (setF (setF (setF (setF (setF (setF (0 : Word) ⟨0, 1⟩ 1) ⟨1, 4⟩ pid) ⟨5, 1⟩ (b2n pin)) ⟨6, 1⟩ (b2n dead))
    ⟨7, 2⟩ (if pin then 0 else line % 4)) ⟨9, 4⟩ pway) ⟨17, 27⟩ (if pin then 0 else line / 2 ^ 14)) ⟨48, 16⟩ seq

/-- A capture into a shelf frame of the set (R257). -/
def Slice.putShelf (s : Slice) (x w pid : Nat) (pin dead : Bool) (line pway : Nat) (d : Line) : Slice :=
  let s := { s.putFrame (s.fkey x w) ⟨shelfW0 pid pin dead line pway s.shelfSeq, 0, d⟩ with shelfSeq := (s.shelfSeq + 1) % 65536 }
  ((s.bump (EP_PCNT pid) EP_PCNT_CAPTURES 1).pcEv 0x20 1 { Occ.none with pid := some pid, half := some (halfOfSet x) }).tevt TV_SHELF

/-- A wait for a shelf frame (R258, R259). -/
def Slice.shelfStall (s : Slice) (p : Nat) : Slice := (s.bump (EP_PCNT p) EP_PCNT_STALLS 1).tevt TV_SHELF

/-- What precedes an epoch write to a physical line of p (R251, R252, R257): the capture, which adds 2 fc, and the ledger bit. None: it waits
for a shelf frame. -/
def Slice.epochPre (s : Slice) (p line epst : Nat) (pre : Line) : Option (Slice × Nat) :=
  if !(s.epochs p) || s.inDrainRange (line * 128) then some (s, 0)
  else
    let i := ledgerIdx (line * 128)
    let s := if s.capturing p && epst = s.epstClean p then s.noteReads 5 (ledgerKey (1 - s.openBank p) i) 0 (fun _ => true) else s
    if s.needCapture p line epst then
      match s.freeShelf (lineSet line) with
      | some w => some (((s.putShelf (lineSet line) w p false false line 0 pre).setLedger (s.openBank p) i).moreSlots (bankKey (lineSet line)) 2, 2)
      | none => none
    else some (s.setLedger (s.openBank p) i, 0)

/-- The EPST of a line after an epoch write. (DEDUCED, log 53) -/
def Slice.writtenW1 (s : Slice) (p line : Nat) (w1 : Word) : Word :=
  if s.epochs p && !(s.inDrainRange (line * 128)) then setF w1 T1_EPST (s.epstWritten p) else w1

/-- What precedes an epoch write to a pinned frame of p (R257): the capture. None: it waits for a shelf frame. -/
def Slice.epochPrePin (s : Slice) (p key x : Nat) : Option (Slice × Nat) :=
  if !(s.epochs p) then some (s, 0)
  else
    let f := s.frame key
    if s.capturing p && getF f.w1 T1_EPST = s.epstFrozen p then
      match s.freeShelf x with
      | some w =>
        some ((s.putShelf x w p true (f.w0.getLsbD 0) 0 (keyWay key) (if f.w0.getLsbD 0 then 0 else f.data)).moreSlots (bankKey x) 2, 2)
      | none => none
    else some (s, 0)

/-- The tag words of a pinned frame after a write that clears or sets DEAD (R95, R101, R105). -/
def Slice.pinTags (s : Slice) (p key : Nat) (dead : Bool) : Slice :=
  let w1 := if s.epochs p then setF (0 : Word) T1_EPST (s.epstWritten p) else 0
  s.putTags key (setF (0 : Word) ⟨0, 1⟩ (b2n dead)) w1

/-- The shelf frames occupied (R272). -/
def Slice.shelfOcc (s : Slice) : Nat :=
  (s.frames.filter (fun e => s.shelfWays.getLsbD (keyWay e.1) && e.2.w0.getLsbD 0)).length

end Sys2Proof.Machine
end

