-- ==== Sys2Proof/Machine/Home.lean ====
section
/-! DEFINITION. The coherence home (spec 05_coherence_home.md R118 to R143): the directory, the home transaction entries, the hold queue,
fills, and what a coherence request does at its performing grant; with the writes and the maintenance operations of 03_cache.md R72 to
R91. -/

namespace Sys2Proof.Machine

/-! ### The directory (R120 to R122) -/

/-- Pointer i of a word 1. -/
def ptrAt (w1 : Word) (i : Nat) : Nat := getF w1 ⟨12 + 10 * i, 10⟩

/-- The distinct values of a list, first occurrences in order. -/
def distinct : List Nat → List Nat
  | [] => []
  | a :: l => a :: (distinct l).filter (fun b => b != a)

/-- The distinct pointers in slot order. -/
def dirPtrs (w1 : Word) : List Nat := distinct ((List.range 4).map (ptrAt w1))

/-- Word 1 with HSTATE, FWDPTR and SHARERS replaced. -/
def setDir (w1 : Word) (hs fwd sharers : Nat) : Word :=
  setF (setF (setF w1 T1_HSTATE hs) T1_FWDPTR fwd) T1_SHARERS sharers

/-- A SHARERS field of four pointers. -/
def ptrField (l : List Nat) : Nat := l.getD 0 0 + 2 ^ 10 * l.getD 1 0 + 2 ^ 20 * l.getD 2 0 + 2 ^ 30 * l.getD 3 0

/-- A ROWS field with the rows of some cores set. -/
def rowsOf (w : Nat) (cs : List Nat) : Nat := cs.foldl (fun r c => r ||| 2 ^ (c / 32)) w

/-- add_sharer of R121. -/
def addSharer (w1 : Word) (c : Nat) : Word :=
  match getF w1 T1_HSTATE with
  | 0 => setDir w1 1 c (ptrField [c, c, c, c])
  | 1 =>
    if (dirPtrs w1).contains c then setF w1 T1_FWDPTR c
    else match firstBelow 4 (fun i => decide (1 ≤ i) && ptrAt w1 i = ptrAt w1 0) with
      | some i => setF (setF w1 ⟨12 + 10 * i, 10⟩ c) T1_FWDPTR c
      | none => setDir w1 2 c (rowsOf 0 (c :: dirPtrs w1))
  | 2 => setDir w1 2 c (rowsOf (getF w1 T1_SHARERS) [c])
  | _ => setF w1 T1_FWDPTR c

/-- clear of R121. -/
def clearDir (w1 : Word) : Word := setDir w1 0 0 0

/-- set_owner of R121. -/
def setOwner (w1 : Word) (c : Nat) : Word := setDir w1 3 c 0

/-- remove_sharer of R121. -/
def removeSharer (w1 : Word) (c : Nat) : Word :=
  match (dirPtrs w1).filter (fun x => x != c) with
  | [] => clearDir w1
  | a :: l =>
    let w := setF w1 T1_SHARERS (ptrField ((a :: l) ++ List.replicate 3 a))
    if getF w1 T1_FWDPTR = c then setF w T1_FWDPTR a else w

/-- Insert in ascending order. -/
def insAsc (a : Nat) : List Nat → List Nat
  | [] => [a]
  | b :: l => if a ≤ b then a :: b :: l else b :: insAsc a l

/-- The columns of a row that SV names (R142). -/
def Slice.rowCols (s : Slice) : Nat :=
  let n := s.fld CO_CTRL CO_CTRL_ROW_COLS
  if n = 0 || 32 < n then 32 else n

/-- All copies of R136 that a word 1 records, mapped ones: in SP in slot order, in SV in ascending core ID (R118, R142). (DEDUCED, log 48) -/
def Slice.copies (s : Slice) (w1 : Word) : List Nat :=
  (match getF w1 T1_HSTATE with
   | 1 => dirPtrs w1
   | 2 => (List.range 24).flatMap (fun r => if (getF w1 T1_SHARERS).testBit r then (List.range s.rowCols).map (fun k => 32 * r + k) else [])
   | 3 => [getF w1 T1_FWDPTR]
   | _ => []).filter s.mapped

/-- The distance of two cores (R135). -/
def coreDist (c q : Nat) : Nat := ((c / 32) - (q / 32)) + ((q / 32) - (c / 32)) + ((c % 32) - (q % 32)) + ((q % 32) - (c % 32))

/-- The sharer that R135 chooses for requester q. -/
def Slice.nearest (s : Slice) (w1 : Word) (q : Nat) : Option Nat :=
  if !(s.flag CO_CTRL CO_CTRL_NEAREST_EN) then none
  else match getF w1 T1_HSTATE with
    | 1 => (((dirPtrs w1).foldr insAsc []).filter (fun c => c != q)).foldl (fun b c => match b with
        | none => some c
        | some m => if coreDist c q < coreDist m q then some c else some m) none
    | 2 => if getF w1 T1_FWDPTR = q then none else some (getF w1 T1_FWDPTR)
    | _ => none

/-! ### Home transaction entries (R123) -/

/-- Entry i of a bank. -/
def Slice.hte (s : Slice) (bk i : Nat) : Hte := Tbl.at Hte.none (s.bank bk).htes i

/-- Store entry i of a bank. -/
def Slice.setHte (s : Slice) (bk i : Nat) (e : Hte) : Slice := s.modBank bk (fun b => { b with htes := Tbl.put Hte.none b.htes i e })

/-- Update entry i of a bank. -/
def Slice.modHte (s : Slice) (bk i : Nat) (f : Hte → Hte) : Slice := s.setHte bk i (f (s.hte bk i))

/-- The lowest free entry of a bank. -/
def Slice.freeHte (s : Slice) (bk : Nat) : Option Nat := firstBelow 16 (fun i => (s.hte bk i).st = .free)

/-- The fc from which a continuation or replay that arises now is a candidate: 3 fc after the arrival of the answer that makes it one, 5 fc
on a port of the other half (R127). (DEDUCED, log 48) -/
def Slice.offerFc (s : Slice) (bk : Nat) : Nat :=
  match s.ansPort with
  | some p => s.fc + 3 + (if p.val / 2 = bk / 8 then 0 else 2)
  | none => s.slotFc

/-- A continuation will be a candidate once what it waits for has come about. -/
def Slice.pushWait (s : Slice) (bk : Nat) (w : Option Wait) (c : Cont) : Slice :=
  s.modBank bk (fun b => { b with conts := b.conts ++ [⟨s.offerFc bk, w, c⟩] })

/-- A continuation becomes a candidate. -/
def Slice.pushCont (s : Slice) (bk : Nat) (c : Cont) : Slice := s.pushWait bk none c

/-- The held requests that `p` names are no candidates before an fc (R125, R127). (DEDUCED, log 48) -/
def Slice.holdTill (s : Slice) (bk : Nat) (p : HoldEntry → Bool) (n : Nat) : Slice :=
  if (s.bank bk).holdq.any p then
    s.modBank bk (fun b => { b with holdq := b.holdq.map (fun h => if p h then { h with since := max h.since n } else h) })
  else s

/-- A fill-buffer entry that is not in use. -/
def Fill.none : Fill := ⟨0, 0, 0, 0, .capture 0 0, false, 0, false⟩

/-- Store a fill-buffer entry. -/
def Slice.setFill (s : Slice) (k : Nat) (f : Fill) : Slice := { s with fills := Tbl.put Fill.none s.fills k f }

/-- The fill-buffer entry of an HTE. -/
def Slice.fillOf (s : Slice) (bk i : Nat) : Option (Nat × Fill) := s.fills.find? (fun f => f.2.use = .hte (bk * 16 + i))

/-- An entry may free (R123). -/
def Slice.hteIdle (s : Slice) (bk i : Nat) : Bool :=
  let e := s.hte bk i
  e.fin && e.pend = 0 && (e.st != .wFwd || e.gotAns) && (e.gotAck || !e.needAck) && e.acks = 0 && !e.arrived
    && !((s.bank bk).conts.any (fun c => c.what = .hte i)) && (s.fillOf bk i).isNone

/-- The directory after a forward that its target answered (R136). -/
def Slice.fwdDir (s : Slice) (w1 : Word) (e : Hte) : Word :=
  let r := (s.coreOf e.rnode.toNat).getD 0
  match e.grant with
  | 0 => addSharer (clearDir w1) e.peer
  | 2 => if getF w1 T1_HSTATE = 3 then addSharer (addSharer (clearDir w1) e.peer) r else addSharer w1 r
  | _ => setOwner w1 r

/-- An entry that may free does so; a forward's directory is written in that grant (R123, R124). -/
def Slice.retire (s : Slice) (bk i : Nat) : Slice :=
  if s.hteIdle bk i then
    let e := s.hte bk i
    let s := if e.st = .wFwd then
        let l := s.locate e.pid e.line
        s.setLocW1 l (s.fwdDir (s.locW1 l) e)
      else s
    (s.setHte bk i Hte.none).holdTill bk (fun h => h.wait = .hte || h.line / 4 = e.line / 4) (s.offerFc bk)
  else s

/-! ### Grants and the hold queue (R123, R125) -/

/-- A grant at which a request is performed: its fc, the arrival number of a replayed hold-queue entry, the HTE of a continuation,
whether the copies of the line have been invalidated by it, and whether it ends a wait for a shelf frame (R258). -/
structure Gr where
  g : Nat
  hold : Option Nat
  own : Option Nat
  clr : Bool
  stalled : Bool
  deriving DecidableEq, Repr

/-- The grant of a request that has just been offered. -/
def Gr.new (g : Nat) : Gr := ⟨g, none, none, false, false⟩

/-- The grant of a continuation of an HTE. -/
def Gr.cont (g i : Nat) (clr stalled : Bool) : Gr := ⟨g, none, some i, clr, stalled⟩

/-- A hold queue in arrival order. -/
def insHold (e : HoldEntry) : List HoldEntry → List HoldEntry
  | [] => [e]
  | x :: t => if e.ord < x.ord then e :: x :: t else x :: insHold e t

/-- A hold-queue entry is made, and CO_HQ_PEAK follows (R146). -/
def Slice.holdEntry (s : Slice) (bk : Nat) (e : HoldEntry) : Slice :=
  let s := s.modBank bk (fun b => { b with holdq := insHold e b.holdq })
  let n := (s.bank bk).holdq.length
  if s.fld CO_HQ_PEAK CO_HQ_PEAK_PEAK < n then (s.setFld CO_HQ_PEAK CO_HQ_PEAK_PEAK n).setFld CO_HQ_PEAK CO_HQ_PEAK_BANK bk else s

/-- A wait for a shelf frame that begins is counted; one that goes on is the same wait (R258). -/
def Slice.stall (s : Slice) (p : Nat) (w : Wait) (gr : Gr) : Slice := if w = .shelf && !gr.stalled then s.shelfStall p else s

/-- A request must wait: a new one enters the hold queue, a replayed one keeps its entry, and a continuation is offered again (R125). The entry can be replayed
once the tag stage of this grant has ended. -/
def Slice.wait (s : Slice) (r : Req) (bk line : Nat) (w : Wait) (gr : Gr) : Slice :=
  let s := s.stall r.lp w gr
  match gr.own with
  | some i => s.pushWait bk (some w) (.hte i)
  | none => match gr.hold with
    | some ord => s.holdEntry bk ⟨r, line, w, ord, gr.g + 5⟩
    | none => ((s.holdEntry bk ⟨r, line, w, s.fresh, gr.g + 5⟩).tick1).pcEv 0x0C 1 r.occ

/-- What the tag stage finds (R69, R123, R81, R334). -/
inductive Tag where
  | held (w : Wait)
  | lost (l : Loc)
  | found (l : Loc)
  deriving DecidableEq, Repr

/-- The location holds a lost line (R332). -/
def Slice.isLost (s : Slice) (l : Loc) : Bool :=
  match l with
  | .frame k => s.frameLost k
  | .victim e => (s.vict e).lost
  | .absent => false

/-- The tag stage of a request to a line under a PID; `own` is the HTE on whose behalf it runs. -/
def Slice.tag (s : Slice) (pid line : Nat) (own : Option Nat) : Tag :=
  if (match s.hteOf line with
      | some i => own != some i
      | none => false) then .held .line
  else
    let l := s.locate pid line
    match l with
    | .victim e =>
      if (s.vict e).depart.isSome then .held .departing
      else if (s.vict e).recalling then .held .recall
      else if (s.vict e).lost then .lost l else .found l
    | _ => if s.isLost l then .lost l else .found l

/-- The recall of an entry can be reinstated: some way is eligible; if none is, the entry stays where it is and serves the request (R81). (DEDUCED, log 16) -/
def Slice.canRecall (s : Slice) (e : Nat) : Bool :=
  let v := s.vict e
  s.elig v.setIdx (getF v.frame.w0 T0_PID) != 0

/-- The line's entry in the victim buffer is recalled at a grant: its reinstatement becomes a candidate 5 fc after it (R81). (DEDUCED, log 16) -/
def Slice.recall (s : Slice) (e g : Nat) : Slice :=
  if s.canRecall e then s.setVict e { s.vict e with recalling := true, recallAt := g + 5 } else s

/-- The port on which the answers of a request leave (R22). -/
def Req.port (r : Req) : Port := outPort (reqHalf r.op r.a) r.a.port

/-- An HTE for a request. -/
def Req.hte (r : Req) (line : Nat) (st : HteState) (grant : Nat) (needAck : Bool) : Hte :=
  { Hte.none with st := st, req := some r, grant := grant, needAck := needAck, dclass := r.a.dclass, pid := r.lp, op := r.op, line := line,
                  cover := 1 <<< (line % 4), rnode := if r.steward then 0 else r.a.src, rtxn := r.a.txn }

/-- The HTE that a performing request uses: its own, or a free one. -/
def Slice.hteFor (s : Slice) (bk : Nat) (gr : Gr) : Option Nat :=
  match gr.own with
  | some i => some i
  | none => s.freeHte bk

/-- A continuation's HTE has nothing left to do. -/
def Slice.doneOwn (s : Slice) (bk : Nat) (gr : Gr) : Slice :=
  match gr.own with
  | some i => (s.modHte bk i (fun e => { e with fin := true, st := .wAck, needAck := false })).retire bk i
  | none => s

/-! ### Messages of the home (R131, R132, R142) -/

/-- A forward-class message of TXN `txn` to a core (R131). -/
def Slice.sendFwd (s : Slice) (p : Port) (due : Nat) (op : BitVec 6) (txn pid line : Nat) (dc : Bool) (c : Nat) (ext0 : BitVec 15)
    (ext1 : BitVec 16) : Slice :=
  s.emit p due 31 false ⟨.fwd, op, 0, BitVec.ofNat 11 ((s.nodeOf c).getD 0), BitVec.ofNat 4 pid, BitVec.ofNat 10 txn, dc, 0, ext0,
    BitVec.ofNat 48 (line * 128), ext1, 0⟩

/-- INVs or BINVs of one transaction, one per fc (R142). -/
def Slice.sendInvs (s : Slice) (p : Port) (due : Nat) (op : BitVec 6) (txn pid : Nat) (dc : Bool) (l : List (Nat × Nat)) : Slice :=
  (l.foldl (fun (t : Slice × Nat) (cl : Nat × Nat) => (t.1.sendFwd p t.2 op txn pid cl.2 dc cl.1 0 0, t.2 + 1)) (s, due)).1

/-- The lowest free TXN of the range 0x140 to 0x3FF (R132). -/
def Slice.freeTxn (s : Slice) : Option Nat := firstBelow 704 (fun k => !(s.txns.any (fun t => t.1 = 0x140 + k))) |>.map (· + 0x140)

/-- A use that no transaction has: the default of the table of TXNs. -/
abbrev TxnUse.none : TxnUse := .wbHte 0 16

/-- A TXN is taken by a use. -/
def Slice.useTxn (s : Slice) (k : Nat) (u : TxnUse) : Slice := { s with txns := Tbl.put TxnUse.none s.txns k u }

/-- The BINVs of a departure: each line of the entry to each recorded sharer (R80). -/
def Slice.departList (s : Slice) (e : Nat) : List (Nat × Nat) :=
  let v := s.vict e
  let block := blockFrom v.setIdx (getF v.frame.w0 T0_TAG) * 4
  (s.copies v.frame.w1).flatMap (fun c => (heldIdx v.frame.w0).map (fun k => (c, block + k)))

/-- An originator takes a TXN, and its message leaves: for a departure, its BINVs (R80, R132). -/
def Slice.takeTxn (s : Slice) (w : TxnWait) (k : Nat) : Slice :=
  let s := s.useTxn k w.use
  let due := max w.due s.fc
  match w.use with
  | .departInv e =>
    let v := s.vict e
    (s.setVict e { v with depart := v.depart.map (fun d => { d with txn := k }) }).sendInvs w.port due FW_BINV k (getF v.frame.w0 T0_PID) false (s.departList e)
  | _ => s.emit w.port due w.mclass w.payload { w.msg with txn := BitVec.ofNat 10 k }

/-- The place of an originator among those that began to wait in the same fc: writebacks, drain writes, damper writes, router writes, others (R132). -/
def TxnUse.rank : TxnUse → Nat
  | .wbHte _ _ => 0
  | .wbVictim _ => 0
  | .drain _ _ => 1
  | .damper => 2
  | .router => 3
  | _ => 4

/-- The originators that wait, in the order in which values go to them (R132). -/
def insTxn (w : TxnWait) : List TxnWait → List TxnWait
  | [] => [w]
  | x :: t => if x.since = w.since && decide (w.use.rank < x.use.rank) then w :: x :: t else x :: insTxn w t

/-- An originated request leaves with the lowest free TXN, or waits for one (R132). -/
def Slice.originate (s : Slice) (w : TxnWait) : Slice :=
  match (if s.txnWait = [] then s.freeTxn else none) with
  | some k => s.takeTxn w k
  | none => { s with txnWait := insTxn w s.txnWait }

/-- A TXN frees, and the first waiting originator takes it (R132). -/
def Slice.freeTxnAt (s : Slice) (k : Nat) : Slice :=
  let s := { s with txns := Tbl.put TxnUse.none s.txns k TxnUse.none }
  match s.txnWait with
  | w :: rest => ({ s with txnWait := rest }).takeTxn w k
  | [] => s

/-- A MEM_WR of masked sectors of a line (R82); the other sectors carry zero. (DEDUCED, log 15) -/
def Slice.memWr (s : Slice) (p : Port) (due mclass pid line : Nat) (m : BitVec 4) (d : Line) (u : TxnUse) : Slice :=
  ((s.originate ⟨s.fc, p, due, mclass, true, ⟨.req, OP_MEM_WR, 0, 0x7FF, BitVec.ofNat 4 pid, 0, false, 0, m.setWidth 15, BitVec.ofNat 48 (line * 128), 0,
    (d &&& sectorMask m).setWidth 1152⟩, u⟩).addAct K_MEM pid (s.weight PG_ACT_WT_W_MEM)).pcEv 0x09 1 { Occ.none with pid := some pid, half := some (halfOfSet (lineSet line)) }

/-! ### Fills (R83, R279, R282) -/

/-- The fill regulation of a half. -/
def Slice.fillReg (s : Slice) (h : Nat) : FillReg := Tbl.at FillReg.init s.fillRegs h

/-- Store the fill regulation of a half. -/
def Slice.setFillReg (s : Slice) (h : Nat) (f : FillReg) : Slice := { s with fillRegs := Tbl.put FillReg.init s.fillRegs h f }

/-- A limit register of R281 or R282: 0 and values above 32 act as 32. -/
def lim32 (n : Nat) : Nat := if n = 0 || 32 < n then 32 else n

/-- The fill-buffer entry that a miss of a header PID may take (R83, R282). -/
def Slice.freeFill (s : Slice) (h hpid : Nat) : Option Nat :=
  let held := (s.fills.filter (fun f => f.1 / 32 = h && f.2.hpid = hpid)).length
  if lim32 (s.fld (BW_PLIM hpid) BW_PLIM_FB_MAX) ≤ held then none
  else (firstBelow 32 (fun i => !(s.fills.any (fun f => f.1 = h * 32 + i)))).map (· + h * 32)

/-- MEM_RDs are regulated (R279). -/
def Slice.fillLimited (s : Slice) : Bool := s.flag BW_CTRL BW_CTRL_REG_EN && s.fld BW_MEM BW_MEM_LINES != 0

/-- A miss of a class may issue in this window (R279). -/
def Slice.fillAllowed (s : Slice) (h c : Nat) : Bool :=
  !s.fillLimited || decide (0 < (s.fillReg h).f.getD c 0) || decide (0 < (s.fillReg h).pool)

/-- A miss of a class takes its allowance or one of the pool (R279). -/
def Slice.takeAllowance (s : Slice) (h c : Nat) : Slice :=
  if !s.fillLimited then s
  else
    let r := s.fillReg h
    if 0 < r.f.getD c 0 then s.setFillReg h { r with f := r.f.set c (r.f.getD c 0 - 1) } else s.setFillReg h { r with pool := r.pool - 1 }

/-- A MEM_RD issues for an entry (R82, R83). (DEDUCED, log 15) -/
def Slice.sendMemRd (s : Slice) (p : Port) (due k : Nat) (f : Fill) : Slice :=
  let s := ((s.takeAllowance (k / 32) f.mclass).setFill k f).bump (BW_FILL_CNT f.mclass) BW_FILL_CNT_COUNT 1
  ((s.addAct K_MEM f.pid (s.weight PG_ACT_WT_W_MEM)).pcEv 0x08 1 { Occ.none with pid := some f.pid, half := some (k / 32) }).emit p due f.mclass false
    ⟨.req, OP_MEM_RD, 0, 0x7FF, BitVec.ofNat 4 f.pid, BitVec.ofNat 10 (0x100 + k), false, 0, 0, BitVec.ofNat 48 (f.line * 128), 0, 0⟩

/-- What a miss needs, or what it waits for: its HTE and its fill-buffer entry. -/
def Slice.missNeeds (s : Slice) (r : Req) (bk : Nat) (gr : Gr) : (Nat × Nat) ⊕ Wait :=
  let h := bk / 8
  match s.hteFor bk gr with
  | none => .inr .hte
  | some i => match s.freeFill h r.a.pid.toNat with
    | none => .inr .fill
    | some k => if s.fillAllowed h (s.reqClass r) then .inl (i, k) else .inr .allowance

/-- Every fill-buffer entry of a half is in use (R83). -/
def Slice.fillFull (s : Slice) (h : Nat) : Bool := decide (32 ≤ (s.fills.filter (fun f => f.1 / 32 = h)).length)

/-- The full fill buffer made a miss wait (R280). -/
def Slice.noteStarved (s : Slice) (h : Nat) (w : Wait) : Slice :=
  if w = .fill && s.fillFull h then s.setFillReg h { s.fillReg h with starved := true } else s

/-- A miss issues its fill, under an HTE in W_MEM of the kind given (R83, R137), or waits. -/
def Slice.miss (s : Slice) (r : Req) (bk line : Nat) (kind : HteKind) (gr : Gr) : Slice :=
  match s.missNeeds r bk gr with
  | .inr w => (s.noteStarved (bk / 8) w).wait r bk line w gr
  | .inl (i, k) =>
    let e := { (r.hte line .wMem 0 false) with kind := kind, req := if kind = .fill then none else some r, upgComp := false }
    let s := (s.setHte bk i e).pcEv 0x07 1 r.occ
    s.sendMemRd r.port (gr.g + 11) k
      ⟨line, r.lp, r.a.pid.toNat, s.reqClass r, .hte (bk * 16 + i), false, 0, false⟩

/-! ### Reads (R134 to R140) -/

/-- The requester as the core that may hold a copy (R119); none: served as non-caching. -/
def Slice.holder (s : Slice) (r : Req) : Option Nat :=
  if r.foreign then none
  else match s.coreOf r.a.src.toNat with
    | some c => if c / 32 < 24 then some c else none
    | none => none

/-- The request reads. -/
def isRead (op : BitVec 6) : Bool := op = OP_RD_S || op = OP_RD_X || op = OP_UPG || op = OP_RD_NC

/-- The grant of a read that finds the line in U (R136). -/
def Slice.readGrant (s : Slice) (r : Req) : Nat :=
  if (s.holder r).isNone || r.op = OP_RD_NC then 0
  else if r.op = OP_RD_S then (if !r.a.dclass && !(s.rdonly r.a.addr.toNat) then 3 else 2)
  else 4

/-- The directory after a grant to core c (R136). -/
def dirGrant (w1 : Word) (grant c : Nat) : Word :=
  if grant = 2 then addSharer w1 c else if grant = 0 then w1 else setOwner w1 c

/-- An internal sync operation met an uncorrectable word: DATA_ERR in SY_DBG_CMD for the actions of R216 and R217. -/
def Slice.stewardErr (s : Slice) (r : Req) : Slice :=
  if r.steward && (r.op = OP_SY_READ || r.op = OP_SY_SET || r.op = OP_SY_ALL) then
    (s.clearF SY_DBG_CMD SY_DBG_CMD_BUSY).setFld SY_DBG_CMD SY_DBG_CMD_RESULT 2
  else s

/-- The answer of a request; the slice's own walks have none (R93). (DEDUCED, log 8) -/
def Slice.answer (s : Slice) (r : Req) (due : Nat) (op : BitVec 6) : Slice :=
  if r.steward then s else s.sendRsp r.port due r.a op 0

/-- The answer of a request, kept until a continuation. -/
def Slice.keptComp (s : Slice) (r : Req) : List Answer :=
  if r.steward then [] else [⟨r.port, answerTo r.a .rsp RS_COMP 0 0, 17, s.classOf r.a.src.toNat, false⟩]

/-- The request is one of a maintenance walk. -/
def Slice.ofMaint (s : Slice) (r : Req) : Bool :=
  r.steward && s.walks.any (fun w => w.id % 1024 = r.a.txn.toNat && (match w.kind with
      | .maint _ _ _ _ _ => true
      | _ => false))

/-- A maintenance walk counts n lines that it writes back or invalidates (R94). -/
def Slice.noteWalk (s : Slice) (r : Req) (f : Fld) (n : Nat) : Slice := if s.ofMaint r then s.bump CZ_MAINT_STATUS f n else s

/-- DATA_ERR leaves in place of the answer (R138). -/
def Slice.failRead (s : Slice) (r : Req) (bk due : Nat) (gr : Gr) : Slice := (s.answer r due RS_DATA_ERR).doneOwn bk gr

/-- The event of a hit: 4 raw, 5 compressed, 6 a recall (R386). -/
def Slice.hitEvent (s : Slice) (l : Loc) : Nat :=
  match l with
  | .victim _ => 6
  | _ => if getF (s.locW0 l) T0_LAYOUT = 0 then 4 else 5

/-- The fc from the grant to the first beat of a line read at a location (R32). (DEDUCED, log 8) -/
def Slice.readOff (s : Slice) (l : Loc) : Nat :=
  match l with
  | .victim _ => 25
  | _ => if getF (s.locW0 l) T0_LAYOUT = 0 then 19 else 21

/-- The frame of a hit is touched (R77). -/
def Slice.touchLoc (s : Slice) (l : Loc) (line : Nat) : Slice :=
  match l with
  | .frame k => s.touch (lineSet line) (keyWay k)
  | _ => s

/-- The bytes that a read of a line returns: DEAD elements of an accumulation line read as zero. The Bool says that one was found (R156). -/
def Slice.readBytes (s : Slice) (pid line : Nat) (d : Line) : Line × Bool :=
  if s.accLine pid line then (deadAsZero (s.accFmt pid line) d, anyDead (s.accFmt pid line) d) else (d, false)

/-- The home supplies a line with a grant, from the directory word `base`; `comp` answers an UPG with COMP (R124, R136, R138). -/
def Slice.supply (s : Slice) (r : Req) (bk line : Nat) (l : Loc) (grant0 : Nat) (base : Word) (comp : Bool) (gr : Gr) : Slice :=
  let d := s.locData l line
  let off := s.readOff l
  let raw := getF (s.locW0 l) T0_LAYOUT = 0
  if s.locBad l line then (s.locRead l line).failRead r bk (gr.g + (if comp then 17 else off)) gr
  else
    let s1 := (s.locRead l line).pcEv (s.hitEvent l) 1 r.occ
    let moved : Slice × Relaid := if 3 ≤ grant0 && !raw then
        (match l with
         | .frame key => (let m := s1.relayout key r.lp line 0 d (s.accLine r.lp line); (m.1.moreSlots bk 1, m.2))
         | _ => (s1, .nowhere))
      else (s1.touchLoc l line, .done l)
    match moved.2 with
    | .wait k => s.wait r bk line k gr
    | _ =>
      let grant := if moved.2 = .nowhere then 0 else grant0
      let l2 := match moved.2 with
        | .done x => x
        | _ => l
      let s2 := match moved.2 with
        | .nowhere => s1.touchLoc l line
        | _ => moved.1
      match (if 3 ≤ grant then s2.epochPre r.lp line (getF base T1_EPST) d else some (s2, 0)) with
      | none => s.wait r bk line .shelf gr
      | some (s3, extra) =>
        let read := s3.readBytes r.lp line d
        let s3 := s3.deadReadIf read.2 r.lp r.occ
        let due := gr.g + extra + (if comp && grant = 4 then (if raw then 17 else 21) else off)
        let ans := fun (t : Slice) =>
          if comp && grant = 4 then t.sendRsp r.port due r.a RS_COMP 4
          else t.sendDat r.port due r.a DT_DATA (BitVec.ofNat 15 grant) (read.1.setWidth 1152)
        let vic := fun (t : Slice) => match l with
          | .victim e => t.recall e gr.g
          | _ => t
        if grant = 0 then (vic (ans (if base = s3.locW1 l2 then s3 else s3.setLocW1 l2 base))).doneOwn bk gr
        else match s3.hteFor bk gr with
          | none => s.wait r bk line .hte gr
          | some i =>
            let c := (s.holder r).getD 0
            let w1 := dirGrant base grant c
            let w1 := if 3 ≤ grant then s3.writtenW1 r.lp line w1 else w1
            let s4 := (s3.setLocW1 l2 w1).setHte bk i { (r.hte line .wAck grant true) with fin := true, gotAns := (s3.hte bk i).gotAns && gr.own.isSome,
                                                                                            gotAck := (s3.hte bk i).gotAck && gr.own.isSome }
            (vic (ans s4)).retire bk i

/-- The home forwards a request to a core that holds the line (R131, R136). -/
def Slice.forward (s : Slice) (r : Req) (bk line : Nat) (l : Loc) (op : BitVec 6) (grant c : Nat) (gr : Gr) : Slice :=
  match (if 3 ≤ grant then s.epochPre r.lp line (getF (s.locW1 l) T1_EPST) (s.locData l line) else some (s, 0)) with
  | none => s.wait r bk line .shelf gr
  | some (s1, extra) => match s1.hteFor bk gr with
    | none => s.wait r bk line .hte gr
    | some i =>
      let s2 := if 3 ≤ grant then s1.setLocW1 l (s1.writtenW1 r.lp line (s1.locW1 l)) else s1
      let s3 := s2.setHte bk i { (r.hte line .wFwd grant (grant != 0 && op != FW_FWD_CLEAN)) with peer := c, fin := op != FW_FWD_CLEAN }
      let e0 : BitVec 15 := if op = FW_FWD_CLEAN then 0 else r.a.txn.setWidth 15 ||| (BitVec.ofNat 15 grant <<< 10)
      let e1 : BitVec 16 := if op = FW_FWD_CLEAN then 0 else r.a.src.setWidth 16
      let s4 := s3.sendFwd r.port (gr.g + 11 + extra) op (bk * 16 + i) r.lp line r.a.dclass c e0 e1
      match l with
      | .victim e => s4.recall e gr.g
      | _ => s4.touchLoc l line

/-- INV to copies of a line on behalf of a request, which is performed again when PEND reaches 0 (R136). -/
def Slice.invalidate (s : Slice) (r : Req) (bk line : Nat) (cs : List Nat) (upg : Bool) (gr : Gr) : Slice :=
  match s.hteFor bk gr with
  | none => s.wait r bk line .hte gr
  | some i =>
    let s := s.setHte bk i { (r.hte line .wInv 0 false) with pend := cs.length, upgComp := upg }
    s.sendInvs r.port (gr.g + 11) FW_INV (bk * 16 + i) r.lp r.a.dclass (cs.map (fun c => (c, line)))

/-- The sectors of a raw frame at a location are all valid. -/
def Slice.wholeLine (s : Slice) (l : Loc) : Bool := getF (s.locW0 l) T0_LAYOUT != 0 || getF (s.locW0 l) T0_SV = 15

/-- A read is performed (R134, R136). -/
def Slice.serveRead (s : Slice) (r : Req) (gr : Gr) : Slice :=
  let line := lineNo r.a.addr.toNat
  let bk := bankKey (lineSet line)
  let q := s.holder r
  match s.tag r.lp line gr.own with
  | .held w => s.wait r bk line w gr
  | .lost l => (s.locRead l line).failRead r bk (gr.g + s.readOff l) gr
  | .found l =>
    let w1 := s.locW1 l
    let hs := if gr.clr then 0 else getF w1 T1_HSTATE
    let own := getF w1 T1_FWDPTR
    let isOwner := s.coreOf r.a.src.toNat = some own
    let base := if gr.clr || hs = 3 then clearDir w1 else w1
    let upg := match gr.own with
      | some i => (s.hte bk i).upgComp
      | none => false
    let nc := q.isNone || r.op = OP_RD_NC
    let comp := match l with
      | .victim _ => getF (s.locW0 l) T0_LAYOUT != 0
      | _ => false
    let give := fun (t : Slice) (grant : Nat) (b : Word) (u : Bool) =>
      match l with
      | .absent =>
        (match t.alloc line r.lp 0 with
         | .wait .way => t.wait r bk line .way gr
         | _ => t.miss r bk line .request gr)
      | .victim e =>
        if (comp && decide (3 ≤ grant) || !(t.wholeLine l)) && t.canRecall e then (t.recall e gr.g).wait r bk line .recall gr
        else if t.wholeLine l then t.supply r bk line l grant b u gr else t.miss r bk line .request gr
      | .frame _ => if t.wholeLine l then t.supply r bk line l grant b u gr else t.miss r bk line .request gr
    if hs = 3 && !isOwner then
      let grant := if nc then 0 else if r.op = OP_RD_S then 2 else 4
      if s.mapped own then s.forward r bk line l (if grant = 4 then FW_FWD_X else FW_FWD_S) grant own gr
      else give s grant base false
    else if hs = 0 || hs = 3 then give s (s.readGrant r) (if nc && hs = 3 then w1 else base) upg
    else if nc then give s 0 w1 false
    else if r.op = OP_RD_S then
      match (if r.a.dclass then s.nearest w1 (q.getD 0) else none) with
      | some c => if s.mapped c then s.forward r bk line l FW_FWD_S 2 c gr
                  else give s 2 (if hs = 1 then removeSharer w1 c else w1) false
      | none => give s 2 w1 false
    else
      let inPtr := r.op = OP_UPG && hs = 1 && (dirPtrs w1).contains (q.getD 0)
      match (s.copies w1).filter (fun c => some c != q) with
      | [] => give s 4 (clearDir w1) inPtr
      | cs => s.invalidate r bk line cs inPtr gr

/-! ### Writes (R72 to R75, R136, R141) -/

/-- What became of a write. -/
inductive Wrote where
  | done (extra : Nat)
  | wait (k : Wait)
  | fetch
  | recall (e : Nat)
  | memory (d : Line) (extra : Nat)
  | bad
  deriving DecidableEq, Repr

/-- Masked bytes of a line of PID p are written at the home, and its directory becomes `dir` of it (R72, R74, R75, R251, R257). -/
def Slice.writeLine (s : Slice) (p line : Nat) (l : Loc) (m : BitVec 128) (d : Line) (dir : Word → Word) (occ : Occ) : Slice × Wrote :=
  let x := lineSet line
  let w0 := s.locW0 l
  let w1 := s.locW1 l
  let sect := sectorsTouched m
  let new := fun (old : Line) => mergeLine (byteMask m) d old
  match l with
  | .frame key =>
    if getF w0 T0_LAYOUT = 0 then
      if sect &&& ~~~(BitVec.ofNat 4 (getF w0 T0_SV) ||| sectorsWhole m) != 0 then (s, .fetch)
      else match s.epochPre p line (getF w1 T1_EPST) (s.locData l line) with
        | none => (s, .wait .shelf)
        | some (s1, extra) =>
          let (s2, bad) := s1.putBytes key m d
          if bad then (s2, .bad)
          else
            let w0 := setF (setF w0 T0_SV (getF w0 T0_SV ||| sect.toNat)) T0_SD (getF w0 T0_SD ||| sect.toNat)
            (((s2.putTags key w0 (s2.writtenW1 p line (dir w1))).touch x (keyWay key)).pcEv 4 1 occ, .done extra)
    else if s.locBad l line then (s.locRead l line, .bad)
    else
      let old := s.locData l line
      match (s.locRead l line).relayout key p line sect.toNat (new old) (s.accLine p line) with
      | (_, .wait k) => (s, .wait k)
      | (_, .nowhere) => (match s.epochPre p line (getF w1 T1_EPST) old with
          | none => (s, .wait .shelf)
          | some (s1, extra) => ((s1.locRead l line).removeLine l line, .memory (new old) extra))
      | (s0, .done l2) => let s1 := s0.moreSlots (bankKey (lineSet line)) 1; (match s1.epochPre p line (getF w1 T1_EPST) old with
          | none => (s, .wait .shelf)
          | some (s2, extra) => ((s2.setLocW1 l2 (s2.writtenW1 p line (dir w1))).pcEv 5 1 occ, .done (extra + 4)))
  | .victim e =>
    if s.canRecall e then (s, .recall e)
    else if s.locBad l line then (s.locRead l line, .bad)
    else if getF w0 T0_LAYOUT = 0 && sect &&& ~~~(BitVec.ofNat 4 (getF w0 T0_SV) ||| sectorsWhole m) != 0 then (s, .fetch)
    else
      let old := s.locData l line
      match s.epochPre p line (getF w1 T1_EPST) old with
      | none => (s, .wait .shelf)
      | some (s1, extra) =>
        if getF w0 T0_LAYOUT = 0 then
          let w0 := setF (setF w0 T0_SV (getF w0 T0_SV ||| sect.toNat)) T0_SD (getF w0 T0_SD ||| sect.toNat)
          ((s1.putVictSectors e sect w0 (s1.writtenW1 p line (dir w1)) (new old)).pcEv 6 1 occ, .done extra)
        else (s1.removeLine l line, .memory (new old) extra)
  | .absent =>
    if m = 0 && !(s.needCapture p line (s.epstClean p)) then
      (match s.epochPre p line (s.epstClean p) 0 with
       | none => (s, .wait .shelf)
       | some (s1, extra) => (s1, .done extra))
    else if sect != sectorsWhole m || s.needCapture p line (s.epstClean p) then (s, .fetch)
    else match s.alloc line p 0 with
      | .wait k => (s, .wait k)
      | .nowhere => (match s.epochPre p line (s.epstClean p) 0 with
          | none => (s, .wait .shelf)
          | some (s1, extra) => (s1, .memory (d &&& byteMask m) extra))
      | .way w => (match s.epochPre p line (s.epstClean p) 0 with
          | none => (s, .wait .shelf)
          | some (s1, extra) =>
            let w1 := s1.writtenW1 p line (dir (setF (0 : Word) T1_EPST (s1.epstClean p)))
            ((((s1.vacate x w).putRaw x w ⟨rawW0 p line sect.toNat sect.toNat (s1.accLine p line), w1, d &&& byteMask m⟩).pcEv 7 1 occ),
              .done extra))

/-- The byte mask of a write request. -/
def Req.mask (r : Req) : BitVec 128 := if r.op = OP_WB then bytesOfSectors r.a.smask else r.a.wmask

/-- The data of a write request. -/
def Req.data (r : Req) : Line := if r.op = OP_WB then r.a.line else r.a.wdata

/-- The target of the push of a STASH (R141): none, not sent, or a core. A STASH of a core that R119 excludes is handled as a WR_NC, so its push
is not sent (R136). (DEDUCED, log 23, 65) -/
def Slice.pushTarget (s : Slice) (r : Req) : Option (Option Nat) :=
  if r.op != OP_STASH || !(r.a.hint.getLsbD 0) then none
  else
    let t := getF r.a.ext1 ⟨0, 10⟩
    let excluded := match s.coreOf r.a.src.toNat with
      | some c => decide (24 ≤ c / 32)
      | none => false
    some (if s.mapped t && decide (t / 32 < 24) && !excluded then some t else none)

/-- COMP to a request, `off` fc after its grant. -/
def Slice.comp (s : Slice) (r : Req) (gr : Gr) (off : Nat) : Slice := s.answer r (gr.g + off) RS_COMP

/-- A write goes to memory because no way can take it; its answer follows the MEM_ACK (R75). -/
def Slice.writeMem (s : Slice) (r : Req) (bk line i : Nat) (m : BitVec 4) (d : Line) (extra : Nat) (gr : Gr) : Slice :=
  let s := s.setHte bk i { (r.hte line .wMemAck 0 false) with ans := s.keptComp r }
  s.memWr r.port (gr.g + 11 + extra) 31 r.lp line m d (.wbHte bk i)

/-- A PUSH carries the line (R141), so the sectors that a pushed STASH neither writes whole nor finds valid are fetched first, unless the victim
entry of the line is to be recalled or no way can take the line. (DEDUCED, log 57) -/
def Slice.pushFetch (s : Slice) (r : Req) (line : Nat) (l : Loc) : Bool :=
  let w0 := s.locW0 l
  getF w0 T0_LAYOUT = 0 && BitVec.ofNat 4 (getF w0 T0_SV) ||| sectorsWhole r.mask != 15
    && (match l with
      | .frame _ => true
      | .victim e => !(s.canRecall e)
      | .absent => s.alloc line r.lp 0 != .nowhere)

/-- The write of a WR_NC or STASH, with the HTE it may use (R72, R75, R141). (DEDUCED, log 17, 57) -/
def Slice.finishWrite (s : Slice) (r : Req) (bk line : Nat) (l : Loc) (push : Option (Option Nat)) (hi : Option Nat) (gr : Gr) : Slice :=
  if (push.getD none).isSome && s.pushFetch r line l then s.miss r bk line .request gr
  else match s.writeLine r.lp line l r.mask r.data clearDir r.occ with
  | (_, .wait k) => s.wait r bk line k gr
  | (_, .fetch) => s.miss r bk line .request gr
  | (_, .recall e) => (s.recall e gr.g).wait r bk line .recall gr
  | (s1, .bad) => s1.failRead r bk (gr.g + 17) gr
  | (s1, .memory d extra) =>
    (match hi with
     | none => s.wait r bk line .hte gr
     | some i =>
       let s1 := if push.isSome then s1.bump CO_PUSH_CNT CO_PUSH_CNT_DECLINED 1 else s1
       s1.writeMem r bk line i (sectorsTouched r.mask) d extra gr)
  | (s1, .done extra) =>
    let s2 := s1.comp r gr (17 + extra)
    match push with
    | none => s2.doneOwn bk gr
    | some none => (s2.bump CO_PUSH_CNT CO_PUSH_CNT_DECLINED 1).doneOwn bk gr
    | some (some t) =>
      (match hi with
       | none => s.wait r bk line .hte gr
       | some i =>
         let l2 := s2.locate r.lp line
         let d := s2.locData l2 line
         if s2.locBad l2 line then (s1.locRead l2 line).failRead r bk (gr.g + 17 + extra) gr
         else
         let s3 := s2.setHte bk i { (r.hte line .wPush 0 false) with peer := t }
         s3.emit r.port (gr.g + 19 + extra) (s3.classOf r.a.src.toNat) true
           ⟨.fwd, FW_PUSH, 0, BitVec.ofNat 11 ((s3.nodeOf t).getD 0), BitVec.ofNat 4 r.lp, BitVec.ofNat 10 (bk * 16 + i), r.a.dclass, 0, 0,
             BitVec.ofNat 48 (line * 128), 0, d.setWidth 1152⟩)

/-- A WR_NC or STASH is performed (R136, R141). -/
def Slice.serveWrite (s : Slice) (r : Req) (gr : Gr) : Slice :=
  let line := lineNo r.a.addr.toNat
  let bk := bankKey (lineSet line)
  match s.tag r.lp line gr.own with
  | .held w => s.wait r bk line w gr
  | .lost l => (s.locRead l line).failRead r bk (gr.g + 17) gr
  | .found l =>
    match (if gr.clr then [] else s.copies (s.locW1 l)) with
    | c :: cs => s.invalidate r bk line (c :: cs) false gr
    | [] => s.finishWrite r bk line l (s.pushTarget r) (s.hteFor bk gr) gr

/-- A WB is performed (R136, R139): only the owner's data is written. -/
def Slice.serveWb (s : Slice) (r : Req) (gr : Gr) : Slice :=
  let line := lineNo r.a.addr.toNat
  let bk := bankKey (lineSet line)
  match s.tag r.lp line gr.own with
  | .held w => s.wait r bk line w gr
  | .lost l => (s.locRead l line).failRead r bk (gr.g + 17) gr
  | .found l =>
    let w1 := s.locW1 l
    match s.holder r with
    | none => s.comp r gr 17
    | some c =>
      if getF w1 T1_HSTATE = 3 && getF w1 T1_FWDPTR = c then
        match s.writeLine r.lp line l r.mask r.data clearDir r.occ with
        | (_, .wait k) => s.wait r bk line k gr
        | (_, .fetch) => s.miss r bk line .request gr
        | (_, .recall e) => (s.recall e gr.g).wait r bk line .recall gr
        | (s1, .bad) => s1.failRead r bk (gr.g + 17) gr
        | (s1, .memory _ _) => s1.comp r gr 17
        | (s1, .done extra) => (s1.comp r gr (17 + extra)).doneOwn bk gr
      else s.comp r gr 17

/-! ### Maintenance operations (R90, R91, R136) -/

/-- A line of a constant is placed raw, all sectors valid and dirty, replacing any copy: the result of ZERO_LINE and of PIN_DROP with AS = 1 (R90,
R157). `keep` says that the line's own raw frame may take it. (DEDUCED, log 66) -/
def Slice.placeWhole (s : Slice) (p line : Nat) (l : Loc) (d : Line) (keep touches : Bool) : Slice × Wrote :=
  let x := lineSet line
  let w1 := s.locW1 l
  let epst := if l = .absent then s.epstClean p else getF w1 T1_EPST
  let old := s.locData l line
  let acc := s.accLine p line
  let raw := getF (s.locW0 l) T0_LAYOUT = 0
  let word1 := fun (t : Slice) => t.writtenW1 p line (setF (0 : Word) T1_EPST epst)
  let w0 := rawW0 p line 15 15 acc
  if l = .absent && s.needCapture p line epst then (s, .fetch)
  else match s.epochPre p line epst old with
    | none => (s, .wait .shelf)
    | some (s1, extra) =>
      match l with
      | .frame key =>
        if keep && (raw || dropIdx (s.locW0 l) (line % 4) = 0) then
          let s2 := s1.putFrame key ⟨w0, word1 s1, d⟩
          (if touches then s2.touch x (keyWay key) else s2, .done extra)
        else match s1.alloc line p (1#16 <<< keyWay key) with
          | .wait k => (s, .wait k)
          | .nowhere => (s1.removeLine l line, .memory d extra)
          | .way w =>
            let s2 := ((s1.removeLine l line).vacate x w).putFrame (s1.fkey x w) ⟨w0, word1 s1, d⟩
            (if touches then s2.touch x w else s2, .done extra)
      | _ =>
        match s1.alloc line p 0 with
        | .wait k => (s, .wait k)
        | .nowhere => (s1.removeLine l line, .memory d extra)
        | .way w =>
          let s2 := ((s1.removeLine l line).vacate x w).putFrame (s1.fkey x w) ⟨w0, word1 s1, d⟩
          (if touches then s2.touch x w else s2, .done extra)

/-- A ZERO_LINE, or a PIN_DROP with AS = 1, is performed: every copy is invalidated, then the line is placed (R90, R136, R157). (DEDUCED, log 58) -/
def Slice.serveWhole (s : Slice) (r : Req) (d : Line) (gr : Gr) : Slice :=
  let line := lineNo r.a.addr.toNat
  let bk := bankKey (lineSet line)
  let tagged : Wait ⊕ (Loc × Bool) := match s.tag r.lp line gr.own with
    | .held w => .inl w
    | .lost l => .inr (l, true)
    | .found l => .inr (l, false)
  match tagged with
  | .inl w => s.wait r bk line w gr
  | .inr (l, lost) =>
    match (if gr.clr || lost then [] else s.copies (s.locW1 l)) with
    | c :: cs => s.invalidate r bk line (c :: cs) false gr
    | [] =>
      match s.placeWhole r.lp line l d (!lost) (r.op = OP_PIN_DROP) with
      | (_, .wait k) => s.wait r bk line k gr
      | (_, .fetch) => s.miss r bk line .request gr
      | (_, .recall e) => (s.recall e gr.g).wait r bk line .recall gr
      | (s1, .bad) => s1.failRead r bk (gr.g + 17) gr
      | (s1, .memory d extra) =>
        (match s1.hteFor bk gr with
         | none => s.wait r bk line .hte gr
         | some i => s1.writeMem r bk line i 15 d extra gr)
      | (s1, .done extra) =>
        (s1.comp r gr (17 + extra)).doneOwn bk gr

/-- The sectors of a line at a location that are dirty. -/
def Slice.dirty (s : Slice) (l : Loc) : BitVec 4 :=
  if getF (s.locW0 l) T0_LAYOUT = 0 && l != .absent then BitVec.ofNat 4 (getF (s.locW0 l) T0_SD) else 0

/-- SD of a raw line is cleared in the sectors written back (R137). -/
def Slice.cleanSd (s : Slice) (l : Loc) : Slice := s.setLocTags l (setF (s.locW0 l) T0_SD 0) (s.locW1 l)

/-- Departures in progress (R80). (DEDUCED, log 18) -/
def Slice.departing (s : Slice) : Nat := (s.victims.filter (fun v => v.2.depart.isSome)).length

/-- Answers kept until a continuation at grant g. -/
def Slice.sendAnswers (s : Slice) (l : List Answer) (g : Nat) : Slice :=
  l.foldl (fun t a => t.emit a.port (g + a.after) a.mclass a.payload a.msg) s

/-- Entry e has no answer outstanding: its dirty line is written back, or it is kept as a lost line (R80, R332); else it may free. -/
def Slice.departWrite (s : Slice) (e : Nat) (d : Depart) (due : Nat) : Slice :=
  let v := s.vict e
  let line := blockFrom v.setIdx (getF v.frame.w0 T0_TAG) * 4 + getF v.frame.w0 T0_LINE
  let sd : BitVec 4 := if getF v.frame.w0 T0_LAYOUT = 0 && !d.discards then BitVec.ofNat 4 (getF v.frame.w0 T0_SD) else 0
  if sd = 0 then s.setVict e { v with depart := some { d with pend := 0, writing := false } }
  else
    let s := s.noteReads 4 e 0 (fun w => decide (w < 16))
    if s.anyBad 4 e (fun w => decide (w < 16)) then
      let s := (s.setVict e { v with depart := none, lost := true }).setFld EC_STATUS EC_STATUS_VB_LOST (s.fld EC_STATUS EC_STATUS_VB_LOST + 1)
      d.ans.foldl (fun t a => t.emit a.port (t.fc + a.after + 3) a.mclass false { a.msg with cls := .rsp, op := RS_DATA_ERR, ext0 := 0, pl := 0 }) s
    else
      let s := if d.counted then s.bump CZ_MAINT_STATUS CZ_MAINT_STATUS_WRITTEN_BACK 1 else s
      (s.setVict e { v with depart := some { d with pend := 0, writing := true } }).memWr d.port due 31
        (getF v.frame.w0 T0_PID) line sd (s.victData e) (.wbVictim e)

/-- A departing entry with every answer and MEM_ACK sunk frees, and a FLUSH_LINE or INVAL_LINE is answered from a grant at g (R80, R91). -/
def Slice.victimFree (s : Slice) (e g : Nat) : Slice :=
  match (s.vict e).depart with
  | some d => if d.pend = 0 && !d.writing then (s.dropVict e).sendAnswers d.ans g else s
  | none => s

/-- The TXN of a departure that waits for one (R132). -/
abbrev NO_TXN : Nat := 1024

/-- Entry e starts to depart (R80): BINV of each line to each recorded sharer under one TXN, for which it may have to wait (R132), or the writeback at once. An
entry with neither frees in this fc. (DEDUCED, log 8, 15, 18) -/
def Slice.startDepart (s : Slice) (e : Nat) (p : Port) (due g : Nat) (discards counted : Bool) (ans : List Answer) : Slice :=
  let v := s.vict e
  let l := s.departList e
  if l = [] then (s.departWrite e ⟨NO_TXN, p, counted, 0, false, discards, ans⟩ due).victimFree e g
  else (s.setVict e { v with depart := some ⟨NO_TXN, p, counted, l.length, false, discards, ans⟩ }).originate
    ⟨s.fc, p, due, 31, false, ⟨.fwd, FW_BINV, 0, 0, 0, 0, false, 0, 0, 0, 0, 0⟩, .departInv e⟩

/-- A CLEAN_LINE is performed (R91, R136). -/
def Slice.serveClean (s : Slice) (r : Req) (gr : Gr) : Slice :=
  let line := lineNo r.a.addr.toNat
  let bk := bankKey (lineSet line)
  match s.tag r.lp line gr.own with
  | .held w => s.wait r bk line w gr
  | .lost l => (s.locRead l line).failRead r bk (gr.g + 17) gr
  | .found l =>
    let w1 := s.locW1 l
    if !gr.clr && getF w1 T1_HSTATE = 3 && s.mapped (getF w1 T1_FWDPTR) then s.forward r bk line l FW_FWD_CLEAN 0 (getF w1 T1_FWDPTR) gr
    else
      let s0 := if !gr.clr && getF w1 T1_HSTATE = 3 then s.setLocW1 l (clearDir w1) else s
      if s.dirty l = 0 then (s0.comp r gr 17).doneOwn bk gr
      else if s.locBad l line then (s0.locRead l line).failRead r bk (gr.g + 17) gr
      else match s0.hteFor bk gr with
        | none => s.wait r bk line .hte gr
        | some i => ((s0.locRead l line).noteWalk r CZ_MAINT_STATUS_WRITTEN_BACK 1).writeMem r bk line i (s.dirty l) (s.locData l line) 0 gr

/-- What precedes the discarding of a line: an INVAL_LINE is an epoch write (R251). None: it waits for a shelf frame. -/
def Slice.invalPre (s : Slice) (r : Req) (line : Nat) (l : Loc) : Option (Slice × Nat) :=
  if r.op = OP_INVAL_LINE then s.epochPre r.lp line (if l = .absent then s.epstClean r.lp else getF (s.locW1 l) T1_EPST) (s.locData l line) else some (s, 0)

/-- A FLUSH_LINE or INVAL_LINE is performed (R91, R136, R334). -/
def Slice.serveFlush (s : Slice) (r : Req) (gr : Gr) : Slice :=
  let line := lineNo r.a.addr.toNat
  let bk := bankKey (lineSet line)
  let inval := r.op = OP_INVAL_LINE
  match s.tag r.lp line gr.own with
  | .held w => s.wait r bk line w gr
  | .lost l =>
    if inval then
      (match s.invalPre r line l with
       | none => s.wait r bk line .shelf gr
       | some (s1, extra) => (((s1.removeLine l line).noteWalk r CZ_MAINT_STATUS_INVALIDATED 1).comp r gr (17 + extra)).doneOwn bk gr)
    else (s.locRead l line).failRead r bk (gr.g + 17) gr
  | .found l =>
    let w1 := s.locW1 l
    match l with
    | .absent =>
      if inval && s.needCapture r.lp line (s.epstClean r.lp) then s.miss r bk line .request gr
      else (match s.invalPre r line l with
        | none => s.wait r bk line .shelf gr
        | some (s1, extra) => (s1.comp r gr (17 + extra)).doneOwn bk gr)
    | .victim e =>
      if 4 ≤ s.departing then s.wait r bk line .departing gr
      else match s.invalPre r line l with
        | none => s.wait r bk line .shelf gr
        | some (s1, extra) =>
          ((s1.noteWalk r CZ_MAINT_STATUS_INVALIDATED (heldIdx (s.locW0 l)).length).startDepart e r.port (gr.g + 11 + extra) (gr.g + extra) inval (s.ofMaint r)
            (s.keptComp r)).doneOwn bk gr
    | .frame _ =>
      match (if gr.clr then [] else s.copies w1) with
      | c :: cs => s.invalidate r bk line (c :: cs) false gr
      | [] =>
        match s.invalPre r line l with
        | none => s.wait r bk line .shelf gr
        | some (s1, extra) =>
          if inval || s.dirty l = 0 then
            (((s1.removeLine l line).noteWalk r CZ_MAINT_STATUS_INVALIDATED 1).comp r gr (17 + extra)).doneOwn bk gr
          else if s.locBad l line then (s1.locRead l line).failRead r bk (gr.g + 17) gr
          else match s1.hteFor bk gr with
            | none => s.wait r bk line .hte gr
            | some i =>
              (((s1.locRead l line).noteWalk r CZ_MAINT_STATUS_INVALIDATED 1).noteWalk r CZ_MAINT_STATUS_WRITTEN_BACK 1).writeMem r bk line i (s.dirty l)
                (s.locData l line) extra gr

/-- A coherence or maintenance request is performed at a grant. -/
def Slice.serveHome (s : Slice) (r : Req) (gr : Gr) : Slice :=
  if isRead r.op then s.serveRead r gr
  else if r.op = OP_WB then s.serveWb r gr
  else if r.op = OP_ZERO_LINE then s.serveWhole r 0 gr
  else if r.op = OP_CLEAN_LINE then s.serveClean r gr
  else if r.op = OP_FLUSH_LINE || r.op = OP_INVAL_LINE then s.serveFlush r gr
  else s.serveWrite r gr

end Sys2Proof.Machine
end

