-- ==== Sys2Proof/Machine/HomeAnswers.lean ====
section
/-! DEFINITION. Answers and steps of the home (spec 03_cache.md R80, R81, R84; 05_coherence_home.md R133, R137, R141): fill data, answers
of cores and memory controllers, the victim buffer's recalls and departures. -/

namespace Sys2Proof.Machine

/-! ### Candidates of a bank (R27 to R29) -/

/-- The pseudo-opcode of fill data that waits at an input for its grant (R28). -/
abbrev OP_MEM_FILL : BitVec 6 := 0x38

/-- The fill data of a TXN waits at an input. -/
def Slice.fillWaits (s : Slice) (t : Txn) : Bool := s.inputs.any (fun q => q.op = OP_MEM_FILL && q.a.txn = t)

/-- A multi-frame operation: the check stage hands it to the step generators, and it is never a candidate itself (R102). (DEDUCED, log 60) -/
def isMulti (op : BitVec 6) (a : Arr) : Bool := op = OP_PIN_FILL || op = OP_PIN_COPY || (op = OP_PIN_DROP && !a.as)

/-- The bank at which a request is a candidate; register accesses, ACC_ANCHOR and multi-frame operations have none. -/
def reqBank (op : BitVec 6) (a : Arr) : Option Nat :=
  if isMulti op a then none else match spaceOf op a with
  | .regs => none
  | .desc => none
  | _ => some (bankKey (reqSet op a))

/-- The line that the fill data of an answer is for. -/
def Slice.fillLine (s : Slice) (a : Arr) : Option Nat := (s.fills.find? (fun f => f.1 + 0x100 = a.txn.toNat)).map (fun f => f.2.line)

/-- A request that waits at an input is for a bank. -/
def Req.atBank (r : Req) (bk : Nat) : Bool := reqBank r.op r.a = some bk

/-- A grant that has left the hold queue no longer than t found it stays in the tag stage for 5 fc (R126, R281). (DEDUCED, log 14) -/
def Slice.noteTags (s t : Slice) (bk g n pid : Nat) : Slice :=
  if (t.bank bk).holdq.length = n then
    t.modBank bk (fun b => { b with tags := b.tags.filter (fun x => decide (s.fc ≤ x.1)) ++ [(g + 5, pid)] })
  else t

/-- The fc in which a request is first offered: 3 fc after its arrival, and 2 fc later across the halves (R21, R32). -/
def Req.offerFc (r : Req) : Nat := r.t + 3 + crossing r.op r.a

/-- The requests that commands of the present fc will bring to the banks, once the check stage has admitted them (R51). (DESIGN CHOICE, log 51) -/
def Slice.comers (s : Slice) : List Req :=
  s.ahead.filterMap (fun c => match c with
    | .req op a => (match s.check op a with
      | .accepts lp foreign => some ⟨op, a, lp, foreign, false, s.fc⟩
      | _ => none)
    | _ => none)

/-- The fill data that commands of the present fc will bring to a bank. -/
def Slice.fillsComing (s : Slice) (bk : Nat) : List Arr :=
  s.ahead.filterMap (fun c => match c with
    | .fill a => (match s.fillLine a with
      | some n => if bankKey (lineSet n) = bk then some a else none
      | none => none)
    | _ => none)

/-- A command of the present fc is a grant of an internal requester in a bank. -/
def Slice.innerComing (s : Slice) (bk : Nat) : Bool :=
  s.ahead.any (fun c => match c with
    | .inner b => b = bk
    | .inners => true
    | _ => false)

/-! ### Which candidates are withheld (R26, R40, R126, R255, R281, R294) -/

/-- The level in effect of a partition (R291). -/
def Slice.levelOf (s : Slice) (p : Nat) : Nat := Tbl.at 0 s.gov.levels p

/-- The droop level in effect (R294, R295). -/
def Slice.droopNow (s : Slice) : Nat := if s.gov.clamp then s.gov.droopLevel else 0

/-- A candidate is withheld by a damper (R294); `own` is its lookup PID, none for an internal requester of no request. -/
def Slice.damped (s : Slice) (bk : Nat) (own : Option Nat) : Bool :=
  let b := s.bankNow bk
  (match own with
   | some p => s.levelOf p != 0 && decide (16 - s.levelOf p ≤ Tbl.at 0 b.grants p)
   | none => false) || (s.droopNow != 0 && decide (16 - s.droopNow ≤ b.grantsAll))

/-- The request's tag stage can place it in the hold queue (R126); a pinned read has no tag stage (R32). (DEDUCED, log 14) -/
def mayHold (op : BitVec 6) : Bool := op != OP_PIN_RD

/-- The header PIDs of the candidates that are in a bank's tag stage when the slot of the present fc is filled. -/
def Slice.inTags (s : Slice) (bk : Nat) : List Nat := ((s.bank bk).tags.filter (fun t => decide (s.slotFc < t.1))).map Prod.snd

/-- The bank's hold queue has a place for n candidates more (R126). (DEDUCED, log 14) -/
def Slice.room (s : Slice) (bk n : Nat) : Bool := decide ((s.bank bk).holdq.length + (s.inTags bk).length + n ≤ 32)

/-- A partition holds its share of a bank's hold queue (R281). (DEDUCED, log 14) -/
def Slice.shareFull (s : Slice) (bk : Nat) (p : Pid) : Bool :=
  decide (lim32 (s.fld (BW_PLIM p.toNat) BW_PLIM_HQ_MAX) ≤
    ((s.bank bk).holdq.filter (fun h => h.req.a.pid = p)).length + ((s.inTags bk).filter (fun t => t = p.toNat)).length)

/-- The launch fc of the partition's armed close is not after the slot of the present fc: grants from that slot on belong to the new epoch (R255).
(DEDUCED, log 29) -/
def Slice.closeDue (s : Slice) (p : Nat) : Bool :=
  s.epochs p && s.flag (EP_PSTATUS p) EP_PSTATUS_ARMED && decide ((s.reg (EP_PCLOSE p)).toNat ≤ (s.countAt s.slotFc).toNat)

/-- A bank grants nothing: its copy runs, or its half is not awake (R40, R345). -/
def Slice.bankShut (s : Slice) (bk : Nat) : Bool := s.sparing.contains (decide (bk / 8 = 1), bk % 8) || !(s.awake (bk / 8))

/-- A request stays at its input (R26, R40, R126, R255, R281, R294). (DEDUCED, log 14, 60) -/
def Slice.blocked (s : Slice) (r : Req) : Bool :=
  let bk := bankKey (reqSet r.op r.a)
  if r.op = OP_MEM_FILL then s.bankShut bk
  else s.flag ID_CTRL ID_CTRL_QUIESCE || (!(isMulti r.op r.a) && (s.bankShut bk || s.damped bk (some r.lp) || s.closeDue r.lp
    || (mayHold r.op && !(s.room bk 1)) || s.shareFull bk r.a.pid))

/-! ### The arbiter (R28, R29) -/

/-- The candidate of input i of a bank in the slot of the present fc: fill data first, else the head REQ (R28). (DESIGN CHOICE, log 75) -/
def headAt (l : List Req) (bk i slot : Nat) : Option Req :=
  let q := l.filter (fun r => r.atBank bk && inputOf (bk / 8) r.a.port = i && decide (r.offerFc ≤ slot))
  (q.find? (fun r => r.op = OP_MEM_FILL)).orElse (fun _ => q.head?)

/-- The requests that wait at the inputs, and those that arrive in the present fc. -/
def Slice.waiting (s : Slice) : List Req := s.inputs ++ s.comers

/-- Input i of a bank offers a candidate in the slot of the present fc. -/
def Slice.offers (s : Slice) (bk i : Nat) : Bool :=
  (match headAt s.waiting bk i s.slotFc with
    | some r => !(s.blocked r)
    | none => false)
  || (s.fillsComing bk).any (fun a => inputOf (bk / 8) a.port = i && a.port.val / 2 = bk / 8)

/-- No other candidate can take the bank's slot of the present fc: none waits, none arrives, and no walk goes on. Then the arbiter need not choose.
(DESIGN CHOICE, log 75) -/
def Slice.uncontended (s : Slice) (bk : Nat) : Bool :=
  (s.bank bk).slotFree s.slotFc && !(s.waiting.any (fun q => q.atBank bk)) && s.fillsComing bk = [] && !(s.innerComing bk) && s.walks = []
    && s.capture = none && s.patrols = [] && s.tdReq = none

/-- The candidates that the mesh inputs of a bank offer, out of a list of requests. -/
def Slice.headsIn (s : Slice) (l : List Req) (bk : Nat) : List Req :=
  [0, 1, 2].filterMap (fun i => (headAt l bk i s.slotFc).filter (fun r => !(s.blocked r)))

/-- A pinned read or write with SCHED = 1. -/
def Req.scheduled (r : Req) : Bool := r.a.sched && (r.op = OP_PIN_RD || r.op = OP_PIN_WR)

/-- A scheduled write of a frame of which a scheduled read is offered is demoted (R107, R109). -/
def Req.demoted (r : Req) (l : List Req) : Bool :=
  r.op = OP_PIN_WR && l.any (fun q => q.op = OP_PIN_RD && q.a.sched && q.lp = r.lp && q.a.addr.toNat / 128 = r.a.addr.toNat / 128)

/-- A scheduled pinned access is offered in a bank (R29, R107). -/
def Slice.schedOffered (s : Slice) (bk : Nat) : Bool := (s.headsIn s.waiting bk).any Req.scheduled

/-- The internal input's candidate of a bank is granted the slot of the present fc: no scheduled pinned access is offered, and the round robin reaches input 4
before the inputs that offer one (R29). -/
def Slice.innerWins (s : Slice) (bk : Nat) : Bool :=
  let b := s.bank bk
  b.slotFree s.slotFc && !(s.schedOffered bk) && arbChoose [s.offers bk 0, s.offers bk 1, s.offers bk 2, false, true] b.ptr = some 4

/-- A request takes its place at its input: in arrival order, and among those of one fc the lower-numbered port first (R21). -/
def insInput (r : Req) : List Req → List Req
  | [] => [r]
  | q :: t => if q.t = r.t && decide (r.a.port.val < q.a.port.val) then r :: q :: t else q :: insInput r t

/-! ### Unmatched answers (R39, R133) -/

/-- An RSP or DAT that matches no transaction is discarded and logged (R39). (DEDUCED, log 22) -/
def Slice.noteUnmatched (s : Slice) (a : Arr) : Slice := s.logErr 0x0D (log1Addr 0 a.src.toNat) a.pid.toNat

/-- The HTE that an answer's TXN names. -/
def Slice.hteByTxn (s : Slice) (t : Nat) : Option (Nat × Nat) :=
  if 256 ≤ t then none else if (s.hte (t / 16) (t % 16)).st = .free then none else some (t / 16, t % 16)

/-- An answer that the HTE does not expect in its state (R133). (DEDUCED, log 22) -/
def Slice.unexpected (s : Slice) (bk i : Nat) (a : Arr) : Slice := s.noteViol 1 a.src.toNat ((s.hte bk i).line * 128) a.pid.toNat

/-! ### Fill data (R84, R137) -/

/-- A fill-buffer entry frees. -/
def Slice.dropFill (s : Slice) (k : Nat) : Slice := { s with fills := Tbl.put Fill.none s.fills k Fill.none }

/-- The line written whole by a ZERO_LINE or by a PIN_DROP with AS = 1 (R90, R157). -/
def Slice.wholeData (s : Slice) (r : Req) (line : Nat) : Line := if r.op = OP_PIN_DROP then deadLine (s.accFmt r.lp line) else 0

/-- A fill is in its place: a read's directory is written, a write is applied, held operations are left to their replay (R72, R84, R124). (DEDUCED, log 17) -/
def Slice.fillPlaced (s : Slice) (k bk i : Nat) (l : Loc) (g : Nat) : Slice :=
  let s := s.dropFill k
  let e := s.hte bk i
  match e.req with
  | none => (s.modHte bk i (fun e => { e with fin := true })).retire bk i
  | some r =>
    if isRead r.op then
      let w1 := dirGrant (s.locW1 l) e.grant ((s.holder r).getD 0)
      let w1 := if 3 ≤ e.grant then s.writtenW1 e.pid e.line w1 else w1
      ((s.setLocW1 l w1).modHte bk i (fun e => { e with fin := true })).retire bk i
    else if r.op = OP_WR_NC || r.op = OP_STASH then s.serveWrite r (Gr.cont g i true false)
    else if r.op = OP_ZERO_LINE || r.op = OP_PIN_DROP then s.serveWhole r (s.wholeData r e.line) (Gr.cont g i true false)
    else s.pushCont bk (.hte i)

/-- The held operation for which a fill was issued (R163). -/
def Slice.heldFor (s : Slice) (bk : Nat) (e : Hte) : Option HoldEntry :=
  (s.bank bk).holdq.find? (fun h => h.req.a.src = e.rnode && h.req.a.txn = e.rtxn && h.req.op = e.op)

/-- The fill of entry k is placed at a grant (R84); it waits as a continuation for a way, a victim entry or a shelf frame. `way` is the way that its own
eviction has vacated, and `stalled` says that it has waited for a shelf frame. -/
def Slice.placeFillAt (s : Slice) (k bk i g : Nat) (way : Option Nat) (stalled : Bool) : Slice :=
  let f := Tbl.at Fill.none s.fills k
  let e := s.hte bk i
  match s.placeFill f.line f.pid f.data f.mayComp (s.accLine f.pid f.line) way with
  | (s1, .done l) => s1.fillPlaced k bk i l g
  | (s1, .evicted w) => s1.pushCont bk (.place k w)
  | (s1, .wait w) => s1.pushWait bk (some w) (.placeWait k)
  | (s1, .nowhere) =>
    match e.req with
    | none =>
      if (s1.heldFor bk e).isSome then (s1.modHte bk i (fun e => { e with arrived := true })).holdTill bk (fun h => h.wait = .line && h.line = e.line) (s1.offerFc bk)
      else ((s1.dropFill k).modHte bk i (fun e => { e with fin := true })).retire bk i
    | some r =>
      let gr := Gr.cont g i true stalled
      if isRead r.op then ((s1.dropFill k).modHte bk i (fun e => { e with fin := true })).retire bk i
      else if isFrameOp r.op then (s1.modHte bk i (fun e => { e with arrived := true })).pushCont bk (.hte i)
      else
        let whole := r.op = OP_ZERO_LINE || r.op = OP_PIN_DROP
        let d := if whole then s1.wholeData r f.line else mergeLine (byteMask r.mask) r.data f.data
        match s1.epochPre f.pid f.line (s1.epstClean f.pid) f.data with
        | none => (s1.stall f.pid .shelf gr).pushWait bk (some .shelf) (.placeWait k)
        | some (s2, extra) =>
          if r.op = OP_INVAL_LINE then ((s2.dropFill k).comp r gr (17 + extra)).doneOwn bk gr
          else
            let s2 := if (s2.pushTarget r).isSome then s2.bump CO_PUSH_CNT CO_PUSH_CNT_DECLINED 1 else s2
            (s2.dropFill k).writeMem r bk f.line i (if whole then 15 else sectorsTouched r.mask) d extra gr

/-- Fill data of a home transaction is used: a read is answered at `due`, then the fill is placed (R84, R137). -/
def Slice.finishFill (s : Slice) (k bk i due g : Nat) (stalled : Bool) : Slice :=
  let f := Tbl.at Fill.none s.fills k
  let e := s.hte bk i
  let l := s.locate f.pid f.line
  let part := l != .absent
  match e.req with
  | none => (s.setFill k { f with mayComp := false }).placeFillAt k bk i g none stalled
  | some r =>
    if !(isRead r.op) then (s.setFill k { f with mayComp := false }).placeFillAt k bk i g none stalled
    else
      let old := s.locData l f.line
      let d := if part then mergeLine (sectorMask (BitVec.ofNat 4 (getF (s.locW0 l) T0_SV))) old f.data else f.data
      let noWay := !part && s.alloc f.line f.pid 0 = .nowhere
      let grant := if noWay then 0 else s.readGrant r
      if part && s.locBad l f.line then ((s.locRead l f.line).dropFill k).failRead r bk due (Gr.cont g i false false)
      else match (if 3 ≤ grant then s.epochPre f.pid f.line (if part then getF (s.locW1 l) T1_EPST else s.epstClean f.pid) d else some (s, 0)) with
        | none => ((s.stall f.pid .shelf (Gr.cont g i false stalled)).setFill k { f with arrived := true }).pushWait bk (some .shelf) (.hte i)
        | some (s1, extra) =>
          let read := s1.readBytes f.pid f.line d
          let s2 := (s1.deadReadIf read.2 f.pid r.occ).sendDat r.port (due + extra) r.a DT_DATA (BitVec.ofNat 15 grant) (read.1.setWidth 1152)
          let s3 := s2.modHte bk i (fun e => { e with grant := grant, needAck := grant != 0, st := if grant = 0 then .wMem else .wAck })
          let mayComp := !(s3.accLine f.pid f.line) && decide (grant < 3)
          if noWay then ((s3.dropFill k).modHte bk i (fun e => { e with fin := true })).retire bk i
          else (s3.setFill k { f with arrived := true, mayComp := mayComp }).placeFillAt k bk i g none stalled

/-- The fills of an operation that has ended give up their fill-buffer entries. -/
def Slice.dropArrivals (s : Slice) (bk : Nat) (e : Hte) : Slice :=
  (List.range 16).foldl (fun t j =>
    let x := t.hte bk j
    if x.arrived && x.kind = .fill && x.rnode = e.rnode && x.rtxn = e.rtxn && x.op = e.op then
      let t := (match t.fillOf bk j with
        | some (k, _) => t.dropFill k
        | none => t)
      (t.modHte bk j (fun y => { y with arrived := false, fin := true, st := .wAck, needAck := false })).retire bk j
    else t) s

/-- MEM_DATA with ERR = 1: DATA_ERR to the requester, and nothing is allocated (R84, R163). -/
def Slice.fillError (s : Slice) (k bk i due : Nat) (a : Arr) : Slice :=
  let f := Tbl.at Fill.none s.fills k
  let e := s.hte bk i
  let s := ((s.logErr 0x05 (log1Addr (f.line * 128) a.src.toNat) f.pid).raise EC_STATUS EC_STATUS_MEM_ERR).dropFill k
  let s := match e.req with
    | some r => s.sendRsp r.port due r.a RS_DATA_ERR 0
    | none => match s.heldFor bk e with
      | some h => (((s.modBank bk (fun b => { b with holdq := b.holdq.filter (fun x => x.ord != h.ord) })).stewardErr h.req).answer h.req due
          RS_DATA_ERR).dropArrivals bk e
      | none => s
  (s.modHte bk i (fun e => { e with fin := true, needAck := false, st := .wAck })).retire bk i

/-- Fill data is written at a grant in its bank; its requester is answered 9 fc later, 12 fc after the data's arrival (R32, R84). -/
def Slice.grantFill (s : Slice) (k bk i : Nat) (a : Arr) : Slice :=
  let f := Tbl.at Fill.none s.fills k
  let (g, s) := s.grant bk s.slotFc 1 1 (some (inputOf (k / 32) a.port)) f.pid { Occ.none with pid := some f.pid, half := some (k / 32), addr := f.line * 128 }
  (s.setFill k { f with data := a.line, arrived := true }).finishFill k bk i (g + 9) g false

/-- MEM_DATA of a home transaction (R84): it takes its bank's slot unless it crosses the link or another candidate may have the slot, and then waits at
its input, ahead of every REQ of the input (R28). -/
def Slice.homeFill (s : Slice) (k bk i : Nat) (a : Arr) : Slice :=
  let h := k / 32
  let cross := if a.port.val / 2 = h then 0 else 2
  let f := Tbl.at Fill.none s.fills k
  let s := s.setFillReg h { s.fillReg h with sunk := (s.fillReg h).sunk + 1 }
  if a.ext0.getLsbD 0 then s.fillError k bk i (s.fc + 12 + cross) a
  else if cross = 0 && s.uncontended bk && s.awake h then s.grantFill k bk i a
  else
    { s.setFill k { f with data := a.line } with
      inputs := insInput ⟨OP_MEM_FILL, { a with addr := BitVec.ofNat 48 (f.line * 128) }, f.pid, false, false, s.fc⟩ s.inputs }

/-! ### Answers of cores (R137) -/

/-- The pseudo-opcodes of answers that wait for a shelf frame in the hold queue (R257). (DEDUCED, log 20) -/
abbrev OP_SNP_WAIT : BitVec 6 := 0x3E
abbrev OP_PUSH_WAIT : BitVec 6 := 0x3F

/-- An answer whose epoch write finds no shelf frame waits as a held request (R258). (DEDUCED, log 20) -/
def Slice.holdAnswer (s : Slice) (op : BitVec 6) (a : Arr) (pid bk line : Nat) : Slice :=
  let e : HoldEntry := ⟨⟨op, a, pid, false, false, s.fc⟩, line, .shelf, s.fresh, s.slotFc⟩
  ((s.shelfStall pid).holdEntry bk e).tick1

/-- Dirty sectors returned by a core are merged at a location (R137); a close recall leaves the line's EPST to its walk (R251, R256). None: it
waits for a shelf frame. (DEDUCED, log 20) -/
def Slice.mergeSnp (s : Slice) (l : Loc) (pid line : Nat) (m : BitVec 4) (d : Line) (close : Bool) : Option Slice :=
  if l = .absent || getF (s.locW0 l) T0_LAYOUT != 0 || m = 0 then some s
  else
    let w0 := setF (setF (s.locW0 l) T0_SV (getF (s.locW0 l) T0_SV ||| m.toNat)) T0_SD (getF (s.locW0 l) T0_SD ||| m.toNat)
    match (if close then some (s, 0) else s.epochPre pid line (getF (s.locW1 l) T1_EPST) (s.locData l line)) with
    | none => none
    | some (s1, _) =>
      let w1 := if close then s1.locW1 l else s1.writtenW1 pid line (s1.locW1 l)
      match l with
      | .frame key => some ((s1.putBytes key (bytesOfSectors m) d).1.putTags key w0 w1)
      | .victim e =>
        some (s1.putVictSectors e m w0 w1 d)
      | .absent => some s1

/-- Where the line of an HTE is: work on a whole frame names its frame, which may lie outside the ways of R68 by then. -/
def Slice.hteLoc (s : Slice) (e : Hte) : Loc :=
  match e.kind with
  | .walkFrame _ => .frame e.frame
  | .quarantine => .frame e.frame
  | _ => s.locate e.pid e.line

/-- PEND falls by one; at 0 the next step becomes a candidate (R127, R137). -/
def Slice.pendDown (s : Slice) (bk i : Nat) : Slice :=
  let s := s.modHte bk i (fun e => { e with pend := e.pend - 1 })
  if (s.hte bk i).pend = 0 then s.pushCont bk (.hte i) else s

/-- An answer of a departure's BINV: at the last one its TXN frees and the writeback follows (R80). -/
def Slice.departDown (s : Slice) (k e : Nat) : Slice :=
  match (s.vict e).depart with
  | none => s
  | some d =>
    let d := { d with pend := d.pend - 1 }
    let s := s.setVict e { s.vict e with depart := some d }
    if d.pend = 0 then (s.freeTxnAt k).departWrite e d s.fc else s

/-- The forwardee has answered: a FWD_CLEAN goes on to its writeback, another forward completes (R136, R137). -/
def Slice.fwdAnswered (s : Slice) (bk i : Nat) : Slice :=
  let s := s.modHte bk i (fun e => { e with gotAns := true })
  if (s.hte bk i).fin then s.retire bk i else s.pushCont bk (.hte i)

/-- The BINV transaction of a departure that a TXN names. -/
def Slice.departTxn (s : Slice) (t : Nat) : Option Nat :=
  match Tbl.at TxnUse.none s.txns t with
  | .departInv e => some e
  | _ => none

/-- INV_ACK (R137, R80). -/
def Slice.invAck (s : Slice) (a : Arr) : Slice :=
  match s.hteByTxn a.txn.toNat with
  | some (bk, i) =>
    let e := s.hte bk i
    if (e.st = .wInv || e.st = .wRecall) && e.pend != 0 then s.pendDown bk i else s.unexpected bk i a
  | none => match s.departTxn a.txn.toNat with
    | some e => s.departDown a.txn.toNat e
    | none => s.noteUnmatched a

/-- The line of an answer of a departure: the one line of a raw entry. -/
def Slice.victLine (s : Slice) (e : Nat) : Nat :=
  blockFrom (s.vict e).setIdx (getF (s.vict e).frame.w0 T0_TAG) * 4 + getF (s.vict e).frame.w0 T0_LINE

/-- The HTE belongs to a close recall, which leaves EPST to its walk (R256). -/
def Slice.closeHte (s : Slice) (e : Hte) : Bool :=
  match e.kind with
  | .walkLine w => s.walks.any (fun x => x.id % 1024 = w && (match x.kind with | .close _ => true | _ => false))
  | _ => false

/-- SNP_DATA (R137, R80). -/
def Slice.snpData (s : Slice) (a : Arr) : Slice :=
  match s.hteByTxn a.txn.toNat with
  | some (bk, i) =>
    let e := s.hte bk i
    let inv := (e.st = .wInv || e.st = .wRecall) && e.pend != 0
    if inv || (e.st = .wFwd && !e.gotAns) then
      match s.mergeSnp (s.hteLoc e) e.pid e.line a.smask a.line (s.closeHte e) with
      | none => s.holdAnswer OP_SNP_WAIT a e.pid bk e.line
      | some s1 => if inv then s1.pendDown bk i else s1.fwdAnswered bk i
    else s.unexpected bk i a
  | none => match s.departTxn a.txn.toNat with
    | some e =>
      let line := s.victLine e
      let pid := getF (s.vict e).frame.w0 T0_PID
      (match s.mergeSnp (.victim e) pid line a.smask a.line false with
       | none => s.holdAnswer OP_SNP_WAIT a pid (bankKey (s.vict e).setIdx) line
       | some s1 => s1.departDown a.txn.toNat e)
    | none => s.noteUnmatched a

/-- FWD_ACK (R137). -/
def Slice.fwdAck (s : Slice) (a : Arr) : Slice :=
  match s.hteByTxn a.txn.toNat with
  | some (bk, i) =>
    let e := s.hte bk i
    if e.st = .wFwd && !e.gotAns then s.fwdAnswered bk i else s.unexpected bk i a
  | none => s.noteUnmatched a

/-- NACK_GONE (R137): counted; the home's supply becomes a candidate. -/
def Slice.nackGone (s : Slice) (a : Arr) : Slice :=
  match s.hteByTxn a.txn.toNat with
  | some (bk, i) =>
    let e := s.hte bk i
    if e.st = .wFwd && !e.gotAns then
      let s := (s.bump CO_NACK_CNT CO_NACK_CNT_COUNT 1).pcEv 0x0E 1 { Occ.none with pid := some e.pid, half := some (bk / 8) }
      (s.modHte bk i (fun e => { e with gotAns := true, gone := true })).pushCont bk (.hte i)
    else s.unexpected bk i a
  | none => s.noteUnmatched a

/-- The continuation of a NACK_GONE: the forwardee leaves the directory and the home supplies the line itself (R137). -/
def Slice.nackSupply (s : Slice) (r : Req) (bk i g : Nat) : Slice :=
  let e := s.hte bk i
  let l := s.locate e.pid e.line
  let w1 := s.locW1 l
  let base := match getF w1 T1_HSTATE with
    | 1 => removeSharer w1 e.peer
    | 3 => clearDir w1
    | _ => w1
  let s := s.setLocW1 l base
  if e.fin then s.supply r bk e.line l e.grant base false (Gr.cont g i false false)
  else s.serveClean r (Gr.cont g i true false)

/-- PUSH_ACK: the core holds the line in E, which is an epoch write (R137, R141, R251). -/
def Slice.pushAck (s : Slice) (a : Arr) : Slice :=
  match s.hteByTxn a.txn.toNat with
  | some (bk, i) =>
    let e := s.hte bk i
    if e.st = .wPush then
      let l := s.locate e.pid e.line
      match s.epochPre e.pid e.line (getF (s.locW1 l) T1_EPST) (s.locData l e.line) with
      | none => s.holdAnswer OP_PUSH_WAIT a e.pid bk e.line
      | some (s1, _) =>
        let s1 := (s1.setLocW1 l (s1.writtenW1 e.pid e.line (setOwner (s1.locW1 l) e.peer))).bump CO_PUSH_CNT CO_PUSH_CNT_ACCEPTED 1
        (s1.modHte bk i (fun e => { e with fin := true })).retire bk i
    else s.unexpected bk i a
  | none => s.noteUnmatched a

/-- PUSH_DECLINE: the directory is cleared (R137, R141). -/
def Slice.pushDecline (s : Slice) (a : Arr) : Slice :=
  match s.hteByTxn a.txn.toNat with
  | some (bk, i) =>
    let e := s.hte bk i
    if e.st = .wPush then
      let l := s.locate e.pid e.line
      let s := (s.setLocW1 l (clearDir (s.locW1 l))).bump CO_PUSH_CNT CO_PUSH_CNT_DECLINED 1
      (s.modHte bk i (fun e => { e with fin := true })).retire bk i
    else s.unexpected bk i a
  | none => s.noteUnmatched a

/-- The HTE that awaits a COMP_ACK from a node with a TXN (R131). -/
def Slice.ackHte (s : Slice) (a : Arr) : Option (Nat × Nat) :=
  (List.range 256).findSome? (fun n =>
    let e := s.hte (n / 16) (n % 16)
    if (e.st = .wAck || e.st = .wFwd) && e.needAck && !e.gotAck && e.rnode = a.src && e.rtxn = a.txn then some (n / 16, n % 16) else none)

/-- The HTE of a request of a node with a TXN, whatever its state (R131). -/
def Slice.reqHte (s : Slice) (a : Arr) : Option (Nat × Nat) :=
  (List.range 256).findSome? (fun n =>
    let e := s.hte (n / 16) (n % 16)
    if e.st != .free && e.rnode = a.src && e.rtxn = a.txn && e.req.isSome then some (n / 16, n % 16) else none)

/-- COMP_ACK (R131, R137): one that its request's HTE does not expect is a violation (R133). -/
def Slice.compAck (s : Slice) (a : Arr) : Slice :=
  match s.ackHte a with
  | some (bk, i) => (s.modHte bk i (fun e => { e with gotAck := true })).retire bk i
  | none => match s.reqHte a with
    | some (bk, i) => s.unexpected bk i a
    | none => s.noteUnmatched a

/-! ### Memory acknowledgements (R75, R80, R137) -/

/-- MEM_ACK with ERR = 1 is logged and sets MEM_ERR; no requester is told (R82). -/
def Slice.ackError (s : Slice) (a : Arr) (line pid : Nat) : Slice :=
  if a.ext0.getLsbD 0 then (s.logErr 0x06 (log1Addr (line * 128) a.src.toNat) pid).raise EC_STATUS EC_STATUS_MEM_ERR else s

/-- The MEM_ACK of a home transaction's writeback: SD clears, a flushed line is invalidated, and the answer becomes a candidate (R75, R91). -/
def Slice.homeAck (s : Slice) (bk i : Nat) (a : Arr) : Slice :=
  let e := s.hte bk i
  let l := s.locate e.pid e.line
  let s := s.ackError a e.line e.pid
  let s := if e.leader != 0 then s
    else if e.op = OP_CLEAN_LINE then s.cleanSd l
    else if e.op = OP_FLUSH_LINE then s.removeLine l e.line else s
  if e.leader != 0 then
    let s := s.modHte bk (e.leader - 1) (fun e => { e with acks := e.acks - 1 })
    let s := if e.leader - 1 = i then s else (s.modHte bk i (fun e => { e with fin := true })).retire bk i
    if (s.hte bk (e.leader - 1)).acks = 0 then s.pushCont bk (.hte (e.leader - 1)) else s
  else s.pushCont bk (.hte i)

/-- Requests held for a departing entry of a set are candidates 3 fc after the answer that lets it free (R127). -/
def Slice.departTill (s : Slice) (x : Nat) : Slice :=
  s.holdTill (bankKey x) (fun h => h.wait = .departing && decide (lineSet h.line = x)) (s.offerFc (bankKey x))

/-- The MEM_ACK of a departing victim entry (R80). -/
def Slice.victimAck (s : Slice) (e : Nat) (a : Arr) : Slice :=
  let v := s.vict e
  let s := s.ackError a (s.victLine e) (getF v.frame.w0 T0_PID)
  (s.setVict e { v with frame := { v.frame with w0 := setF v.frame.w0 T0_SD 0 },
                        depart := v.depart.map (fun d => { d with writing := false }) }).departTill v.setIdx

/-- The continuation of a MEM_ACK: the answer leaves and the entry may free (R75). -/
def Slice.ackCont (s : Slice) (bk i g : Nat) : Slice :=
  let e := s.hte bk i
  ((s.sendAnswers e.ans g).modHte bk i (fun e => { e with fin := true, ans := [] })).retire bk i

/-! ### Victim buffer (R79 to R81) -/

/-- Some work waits for a victim entry (R79). -/
def Slice.victimWaited (s : Slice) : Bool :=
  (List.range 16).any (fun bk => (s.bank bk).holdq.any (fun h => h.wait = .victim) || (s.bank bk).conts.any (fun c => c.wait = some .victim))
    && s.freeVict = none

/-- The entries that may start to depart. (DEDUCED, log 18) -/
def Slice.mayDepart (s : Slice) : List (Nat × Victim) :=
  s.victims.filter (fun v => v.2.depart.isNone && !v.2.recalling && !v.2.lost
    && !((heldIdx v.2.frame.w0).any (fun k => s.transient (blockFrom v.2.setIdx (getF v.2.frame.w0 T0_TAG) * 4 + k))))

/-- The oldest of some entries. -/
def oldestVict (l : List (Nat × Victim)) : Option Nat :=
  (l.foldl (fun (b : Option (Nat × Victim)) v => match b with
    | none => some v
    | some m => if v.2.ord < m.2.ord then some v else some m) none).map Prod.fst

/-- The oldest entry that is not departing starts to depart (R80). -/
def Slice.victimDepart (s : Slice) : Slice :=
  if (decide (min 32 (s.fld CZ_CTRL CZ_CTRL_VB_HIGH) < s.victCount) || s.victimWaited) && decide (s.departing < 4) then
    match oldestVict s.mayDepart with
    | some e => s.startDepart e (evenPort (halfOfSet (s.vict e).setIdx)) s.fc s.slotFc false false []
    | none => s
  else s

end Sys2Proof.Machine
end

