-- ==== Sys2Proof/Machine/Cairn.lean ====
section
/-! DEFINITION. Cairn digests (spec 09_determinism.md R242 to R245): the hash, absorption, and the capture walk. -/

namespace Sys2Proof.Machine

/-- The modulus P of R243. -/
abbrev cairnP : Nat := 2 ^ 61 - 1

/-- The limbs of a line: the two halves of u, then its 32 words of 4 bytes (R243). -/
def cairnLimbs (tag idx : Nat) (d : Line) : List Nat :=
  let u := tag * 2 ^ 48 + idx
  (u % 2 ^ 32) :: (u / 2 ^ 32 % 2 ^ 32) :: (List.range 32).map (fun i => bytesAt d (4 * i) 4)

/-- cairn_hash of R243: Horner's rule from the last limb. -/
def cairnHash (tag idx : Nat) (d : Line) (k : Nat) : Nat :=
  (cairnLimbs tag idx d).foldr (fun l h => (h + l) * k % cairnP) 0

/-- absorb of R243: each lane of p gains the hash under its key. -/
def Slice.absorb (s : Slice) (p tag idx : Nat) (d : Line) : Slice :=
  (List.range 4).foldl (fun s j => if s.wroteNow (DG_LANE p j) then s else
    s.setFld (DG_LANE p j) DG_LANE_VALUE ((s.fld (DG_LANE p j) DG_LANE_VALUE % cairnP
      + cairnHash tag idx d (s.fld (DG_KEY p j) DG_KEY_KEY % cairnP)) % cairnP)) s

/-- Digested-region entry r holds a line of a PID and kind (R242). -/
def Slice.dgHolds (s : Slice) (r p kind line : Nat) : Bool :=
  s.flag (DG_REG_LO r) DG_REG_LO_VALID && s.fld (DG_REG_LO r) DG_REG_LO_KIND = kind && s.fld (DG_REG_LO r) DG_REG_LO_PID = p
    && decide (s.fld (DG_REG_LO r) DG_REG_LO_BASE ≤ line) && decide (line ≤ s.fld (DG_REG_HI r) DG_REG_HI_LIMIT)

/-- The lowest-numbered entry that holds a line (R242). -/
def Slice.dgEntry (s : Slice) (p kind line : Nat) : Option Nat := firstBelow 16 (fun r => s.dgHolds r p kind line)

/-- A finalize answer of a digested region is absorbed (R244). The number is the fc by which a full hash queue delays the answer. -/
def Slice.absorbFin (s : Slice) (p kind line : Nat) (d : Line) : Slice × Nat :=
  match s.dgEntry p kind line with
  | some r =>
    if s.flag (DG_REG_LO r) DG_REG_LO_FEED_FIN then
      let start := max s.hashFree s.fc
      ({ s.absorb p (s.fld (DG_REG_HI r) DG_REG_HI_TAG) (line - s.fld (DG_REG_LO r) DG_REG_LO_BASE) d with hashFree := start + 1 },
        start - s.fc - 15)
    else (s, 0)
  | none => (s, 0)

/-! ### The capture walk (R245) -/

/-- A capture walk starts, or MISSED is set while one is busy (R235, R248). -/
def Slice.startCapture (s : Slice) (p : Pid) : Slice :=
  if s.flag DG_CAP_STATUS DG_CAP_STATUS_BUSY then s.raise DG_CAP_STATUS DG_CAP_STATUS_MISSED
  else
    let s := ((s.clearF DG_CAP_STATUS DG_CAP_STATUS_ERR).clearF DG_CAP_STATUS DG_CAP_STATUS_LINES).raise DG_CAP_STATUS DG_CAP_STATUS_BUSY
    { s with capture := some ⟨p, 0, 0, none⟩ }

/-- The walk goes on to the next line of its entry, or to the next entry. -/
def Slice.captureNext (s : Slice) : Slice :=
  match s.capture with
  | none => s
  | some c =>
    let n := s.fld (DG_REG_HI c.entry) DG_REG_HI_LIMIT - s.fld (DG_REG_LO c.entry) DG_REG_LO_BASE
    { s with capture := some (if c.idx < n then ⟨c.pid, c.entry, c.idx + 1, none⟩ else ⟨c.pid, c.entry + 1, 0, none⟩) }

/-- The walk skips the rest of its entry. -/
def Slice.captureSkip (s : Slice) : Slice := { s with capture := s.capture.map (fun c => ⟨c.pid, c.entry + 1, 0, none⟩) }

/-- The walk's line has been read: it waits for the hash unit. -/
def Slice.captureTake (s : Slice) (d : Line) : Slice := { s with capture := s.capture.map (fun c => { c with got := some d }) }

/-- The hash unit takes the walk's line in an fc in which it absorbs no finalize answer, and the walk goes on (R244). (DESIGN CHOICE, log 21) -/
def Slice.captureHash (s : Slice) : Slice :=
  match s.capture with
  | none => s
  | some c => match c.got with
    | none => s
    | some d =>
      if s.fc < s.hashFree then s
      else ((s.absorb c.pid.toNat (s.fld (DG_REG_HI c.entry) DG_REG_HI_TAG) c.idx d).bump DG_CAP_STATUS DG_CAP_STATUS_LINES 1).captureNext

/-- The walk's line is skipped as uncorrectable or as a failed fill. -/
def Slice.captureErr (s : Slice) : Slice := (s.raise DG_CAP_STATUS DG_CAP_STATUS_ERR).captureNext

/-- A present line of the walk is read as stored (R245). -/
def Slice.captureRead (s : Slice) (c : Capture) (line : Nat) (l : Loc) : Slice :=
  if s.locBad l line then (s.locRead l line).captureErr
  else (s.locRead l line).captureTake (s.readBytes c.pid.toNat line (s.locData l line)).1

/-- The pseudo-opcode of a line of the capture walk that waits in the hold queue (R126). -/
abbrev OP_CAPTURE : BitVec 6 := 0x37

/-- A request of the slice's own on a line, which is not answered; `id` names what made it. (DESIGN CHOICE, log 21) -/
def ownReq (op : BitVec 6) (id pid line fc : Nat) : Req :=
  ⟨op, ⟨0, 0x7FF, 0x7FF, BitVec.ofNat 4 pid, BitVec.ofNat 10 id, false, 0, 0, BitVec.ofNat 48 (line * 128), 0, 0⟩, pid, false, true, fc⟩

/-- FWD_CLEAN to the owner of the walk's line, under an HTE (R245). -/
def Slice.captureForward (s : Slice) (r : Req) (line owner : Nat) (gr : Gr) : Slice :=
  let bk := bankKey (lineSet line)
  match s.freeHte bk with
  | none => s.wait r bk line .hte gr
  | some i =>
    (s.setHte bk i { Hte.none with st := .wFwd, kind := .capture, pid := r.lp, line := line, cover := 1 <<< (line % 4), peer := owner }).sendFwd
      (evenPort (bk / 8)) (gr.g + 11) FW_FWD_CLEAN (bk * 16 + i) r.lp line false owner 0 0

/-- A fill-buffer entry of a half that is not in use. -/
def Slice.anyFill (s : Slice) (h : Nat) : Option Nat := (firstBelow 32 (fun i => !(s.fills.any (fun f => f.1 = h * 32 + i)))).map (· + h * 32)

/-- MEM_RD for an absent line of the walk, which waits for an entry and an allowance (R245, R279). -/
def Slice.captureFetch (s : Slice) (r : Req) (c : Capture) (line : Nat) (gr : Gr) : Slice :=
  let bk := bankKey (lineSet line)
  match s.anyFill (bk / 8) with
  | none => (s.noteStarved (bk / 8) .fill).wait r bk line .fill gr
  | some k =>
    if s.fillAllowed (bk / 8) 31 then
      s.sendMemRd (evenPort (bk / 8)) (gr.g + 11) k ⟨line, c.pid.toNat, 16, 31, .capture c.entry c.idx, false, 0, false⟩
    else s.wait r bk line .allowance gr

/-- The walk reads a physical line at a grant, or the line waits (R245). -/
def Slice.serveCapture (s : Slice) (r : Req) (gr : Gr) : Slice :=
  match s.capture with
  | none => s
  | some c =>
    let line := lineNo r.a.addr.toNat
    match s.tag r.lp line none with
    | .held w => s.wait r (bankKey (lineSet line)) line w gr
    | .lost l => (s.locRead l line).captureErr
    | .found .absent => s.captureFetch r c line gr
    | .found l =>
      let w1 := s.locW1 l
      if getF w1 T1_HSTATE = 3 && s.mapped (getF w1 T1_FWDPTR) then s.captureForward r line (getF w1 T1_FWDPTR) gr
      else if !(s.wholeLine l) then s.captureFetch r c line gr
      else s.captureRead c line l

/-- The walk reads a pinned frame at a grant; a dead frame is hashed as zero and counts no dead read (R245). -/
def Slice.capturePinned (s : Slice) (key : Nat) : Slice :=
  if s.anyBad 0 key (fun _ => true) then (s.noteReads 0 key 0 (fun _ => true)).captureErr
  else (s.noteReads 0 key 0 (fun _ => true)).captureTake (if (s.frame key).w0.getLsbD 0 then 0 else (s.frame key).data)

/-- The line that a capture walk has reached. -/
def Slice.captureLine (s : Slice) (c : Capture) : Nat := s.fld (DG_REG_LO c.entry) DG_REG_LO_BASE + c.idx

/-- The walk's entry holds pinned frames. -/
def Slice.capturesBuf (s : Slice) (c : Capture) : Bool := s.flag (DG_REG_LO c.entry) DG_REG_LO_KIND

/-- The walk has to skip the rest of its entry. -/
def Slice.capturePast (s : Slice) (c : Capture) : Bool :=
  !(s.flag (DG_REG_LO c.entry) DG_REG_LO_VALID) || s.fld (DG_REG_LO c.entry) DG_REG_LO_PID != c.pid.toNat
    || decide (s.fld (DG_REG_HI c.entry) DG_REG_HI_LIMIT < s.captureLine c)

/-- The walk skips its line: another entry takes it, or it lies in no buffer or at another home (R242, R245). -/
def Slice.capturePasses (s : Slice) (c : Capture) : Bool :=
  let line := s.captureLine c
  s.dgEntry c.pid.toNat (b2n (s.capturesBuf c)) line != some c.entry
    || (if s.capturesBuf c then decide (s.bufBytes c.pid.toNat ≤ line * 128) else s.homeOf (line * 128) != s.id)

/-- A line of the walk is under way: in the hold queue, under an HTE, in the fill buffer, or on its way to the hash unit. -/
def Slice.captureBusy (s : Slice) (c : Capture) : Bool :=
  c.got.isSome || s.fills.any (fun f => match f.2.use with
      | .capture _ _ => true
      | _ => false)
    || s.banks.any (fun b => b.2.htes.any (fun e => e.2.kind = .capture) || b.2.holdq.any (fun h => h.req.op = OP_CAPTURE))

/-- The walk passes over what it does not read. (DESIGN CHOICE, log 21) -/
def Slice.captureMove (s : Slice) : Slice :=
  match s.capture with
  | none => s
  | some c =>
    if 16 ≤ c.entry || s.captureBusy c then s
    else if s.capturePast c then s.captureSkip
    else if s.capturePasses c then s.captureNext
    else s

/-- The set at which the walk's next line is a candidate. -/
def Slice.captureAt (s : Slice) : Option Nat :=
  match s.capture with
  | none => none
  | some c =>
    if 16 ≤ c.entry || s.captureBusy c || s.capturePast c || s.capturePasses c then none
    else some (if s.capturesBuf c then bufSet (s.captureLine c * 128) else lineSet (s.captureLine c))

/-- The walk's line is granted a slot of its bank: MAINT, and activity of PID 0 (R229, R245, R304). -/
def Slice.captureGrant (s : Slice) (x : Nat) : Slice :=
  match s.capture with
  | none => s
  | some c =>
    let (g, s) := s.grant (bankKey x) s.slotFc 1 1 (some 4) 16 { Occ.none with half := some (halfOfSet x) }
    let s := s.tevt TV_MAINT
    if s.capturesBuf c then s.capturePinned (s.bufKey c.pid.toNat (s.captureLine c * 128))
    else s.serveCapture (ownReq OP_CAPTURE 0 c.pid.toNat (s.captureLine c) s.fc) (Gr.new g)

/-- Fill data of the walk: hashed under the sectors the slice holds, and discarded (R245). -/
def Slice.captureFill (s : Slice) (k : Nat) (a : Arr) : Slice :=
  let f := Tbl.at Fill.none s.fills k
  let h := k / 32
  let s := (s.setFillReg h { s.fillReg h with sunk := (s.fillReg h).sunk + 1 }).dropFill k
  if s.capture = none then s
  else if a.ext0.getLsbD 0 then
      ((s.logErr 0x05 (log1Addr (f.line * 128) a.src.toNat) f.pid).raise EC_STATUS EC_STATUS_MEM_ERR).captureErr
  else
      let l := s.locate f.pid f.line
      let d := if l = .absent then a.line else mergeLine (sectorMask (BitVec.ofNat 4 (getF (s.locW0 l) T0_SV))) (s.locData l f.line) a.line
      s.captureTake (s.readBytes f.pid f.line d).1

/-- The answer of a capture's FWD_CLEAN has come: the line is read (R245). -/
def Slice.captureCont (s : Slice) (bk i : Nat) : Slice :=
  let e := s.hte bk i
  let l := s.locate e.pid e.line
  let s := if e.gone then s.setLocW1 l (clearDir (s.locW1 l)) else s
  let s := s.setHte bk i Hte.none
  match s.capture with
  | some c => s.captureRead c e.line l
  | none => s

/-- The walk has ended: DONE is set and BUSY clears (R245). -/
def Slice.captureDone (s : Slice) : Slice :=
  match s.capture with
  | some c =>
    if 16 ≤ c.entry then
      { (s.raise DG_CAP_STATUS DG_CAP_STATUS_DONE).clearF DG_CAP_STATUS DG_CAP_STATUS_BUSY with capture := none }
    else s
  | none => s

end Sys2Proof.Machine
end

