-- ==== Sys2Proof/Machine/Sync.lean ====
section
/-! DEFINITION. What a synchronisation request does to its object and to the waiter table (spec 08_sync_objects.md R200 to R217), and the
order-decision counter (07_line_operations.md R189, R190). -/

namespace Sys2Proof.Machine

/-! ### Order decisions (R189, R190, R214) -/

/-- Decisions are counted, and the first one captured (R190). -/
def Slice.noteOdc (s : Slice) (pid n : Nat) (pin : Bool) (line eop esrc lop lsrc : Nat) (o : Occ) : Slice :=
  if n = 0 then s
  else
    let s := (s.bump (SY_ODC pid) SY_ODC_COUNT n).pcEv 0x18 n o
    if s.flag SY_ODC_REF SY_ODC_REF_VALID then s
    else
      (s.latch SY_ODC_REF (setF (setF (setF (setF (0 : Word) SY_ODC_REF_VALID 1) SY_ODC_REF_PID pid) SY_ODC_REF_PIN (b2n pin))
        SY_ODC_REF_LINE line)).setReg SY_ODC_NODES
        (setF (setF (setF (setF (0 : Word) SY_ODC_NODES_LATER_OP lop) SY_ODC_NODES_LATER_SRC lsrc) SY_ODC_NODES_EARLIER_OP eop)
          SY_ODC_NODES_EARLIER_SRC esrc)

/-- The operation returns a value that depends on its order (R189, R214). -/
def isReturning (op : BitVec 6) (a : Arr) : Bool :=
  op = OP_FETCH_OP || op = OP_SWAP || op = OP_CAS || isFin op || op = OP_SY_READ || ((op = OP_SY_WAIT || op = OP_SY_ACQ) && !a.wait)

/-- The operation is modifying (R189, R214). -/
def isModifying (op : BitVec 6) (a : Arr) : Bool :=
  isLop op || op = OP_ACC_ADD || op = OP_ACC_ADD_S || op = OP_ACC_MERGE || op = OP_EXPMAX || (isFin op && a.zero)
    || op = OP_SY_ACQ || op = OP_SY_ADD || op = OP_SY_ARRIVE || op = OP_SY_INIT

/-- The target frames of a frame operation: line or frame numbers. -/
def targetsOf (op : BitVec 6) (a : Arr) : List Nat := (List.range (spanFrames op a)).map (fun j => a.addr.toNat / 128 + j)

/-- The bank of a target. -/
def targetBankKey (a : Arr) (n : Nat) : Nat := bankKey (if a.pin then bufSet (n * 128) else lineSet n)

/-- Two operations meet in a bank by the pair rule of R189 and R214. -/
def odcPair (bk : Nat) (op1 : BitVec 6) (a1 : Arr) (lp1 : Nat) (op2 : BitVec 6) (a2 : Arr) (lp2 : Nat) : Bool :=
  (a1.src != a2.src || a1.txn != a2.txn) && a1.pin = a2.pin && lp1 = lp2
    && (targetsOf op1 a1).any (fun n => targetBankKey a1 n = bk && (targetsOf op2 a2).contains n)
    && (isReturning op1 a1 || isReturning op2 a2) && (isModifying op1 a1 || isModifying op2 a2)
    && (!(isSy op1 && isSy op2) || a1.addr.toNat / 16 = a2.addr.toNat / 16)

/-- The operations pending in a bank at a grant in fc g, each with the fc in which it was first offered and its input: the held ones, and the candidates of the
inputs, those that arrive in the present fc among them (R189). (DESIGN CHOICE, log 51) -/
def Slice.odcPending (s : Slice) (bk g : Nat) : List Req :=
  let offered := fun (b i : Nat) => (headAt s.waiting b i g).toList
  (((s.bank bk).holdq.map HoldEntry.req) ++ (List.range 16).flatMap (fun b => [0, 1, 2].flatMap (offered b))).filter (fun x => isFrameOp x.op)

/-- Operation x was offered before y, or in the same fc on a lower-numbered input of a half (R190). -/
def offeredBefore (h : Nat) (x y : Req) : Bool :=
  decide (x.offerFc < y.offerFc) || (x.offerFc = y.offerFc && decide (inputOf h x.a.port < inputOf h y.a.port))

/-- The operation of a list that was offered first (R190). -/
def firstOffered (h : Nat) : List Req → Option Req
  | [] => none
  | x :: l => match firstOffered h l with
    | some y => if offeredBefore h y x then some y else some x
    | none => some x

/-- The decisions of a performing grant in a bank (R189). -/
def Slice.odc (s : Slice) (r : Req) (bk g : Nat) : Slice :=
  if r.steward then s
  else
    let l := (s.odcPending bk g).filter (fun x => !x.steward && odcPair bk r.op r.a r.lp x.op x.a x.lp)
    match firstOffered (bk / 8) l with
    | none => s
    | some x =>
      let line := ((targetsOf r.op r.a).find? (fun n => targetBankKey r.a n = bk && (targetsOf x.op x.a).contains n)).getD 0
      s.noteOdc r.lp l.length r.a.pin line r.op.toNat r.a.src.toNat x.op.toNat x.a.src.toNat r.occ

/-! ### The waiter table (R211, R212) -/

/-- An entry that is not in use. -/
def Waiter.none : Waiter := ⟨0, false, 0, false, 0, 0, 0, false, false, 0, 0, 0, 0, 0⟩

/-- Waiter-table entry i. -/
def Slice.waiter (s : Slice) (i : Nat) : Waiter := Tbl.at Waiter.none s.waiters i

/-- Store a waiter-table entry. -/
def Slice.setWaiter (s : Slice) (i : Nat) (w : Waiter) : Slice := { s with waiters := Tbl.put Waiter.none s.waiters i w }

/-- A free waiter-table entry. -/
def Slice.freeWaiter (s : Slice) : Option Nat := firstBelow 64 (fun i => !(s.waiters.any (fun w => w.1 = i)))

/-- The entry has been released and waits to leave. -/
def Slice.leaving (s : Slice) (i : Nat) : Bool :=
  s.releases.any (fun r => r.slot = i) || s.egress.any (fun o => match o.rel with
    | some x => x.1 = i
    | none => false)

/-- Entries in park order. -/
def insWaiter (x : Nat × Waiter) : List (Nat × Waiter) → List (Nat × Waiter)
  | [] => [x]
  | y :: t => if x.2.ord < y.2.ord then x :: y :: t else y :: insWaiter x t

/-- The entries that wait on an object, in park order. -/
def Slice.waitersOn (s : Slice) (pin : Bool) (pid obj : Nat) : List (Nat × Waiter) :=
  (s.waiters.filter (fun w => w.2.obj = obj && w.2.pin = pin && w.2.pid.toNat = pid && !(s.leaving w.1))).foldr insWaiter []

/-- A drain-tracker entry that is not in use. -/
def Drain.none : Drain := ⟨0, false, 0, 0, 0, 0, false, 0⟩

/-- A free drain-tracker entry. -/
def Slice.freeDrain (s : Slice) : Option Nat := firstBelow 8 (fun i => !(Tbl.at Drain.none s.drains i).busy)

/-- Store a drain-tracker entry. -/
def Slice.setDrain (s : Slice) (i : Nat) (d : Drain) : Slice := { s with drains := Tbl.put Drain.none s.drains i d }

/-- The half of an object. -/
def objHalf (pin : Bool) (obj : Nat) : Nat := halfOfSet (if pin then bufSet (obj * 16) else lineSet (obj / 8))

/-- The port parity of a waiter as a port. -/
def Waiter.port (w : Waiter) : Port := outPort (objHalf w.pin w.obj) (if w.parity then 1 else 0)

/-- A SYNC_DATA to a waiter (R200). -/
def Waiter.msg (w : Waiter) (gen status : Nat) (tick : Word) : Msg :=
  ⟨.dat, DT_SYNC_DATA, 0, w.src, w.hpid, w.txn, w.dclass, 0, 0, 0, 0, syncData gen status false false tick⟩

/-- A waiter is released by a grant: its answer enters the release sequencer (R212). -/
def Slice.release (s : Slice) (i gen status : Nat) (tick : Word) (dr : Option Nat) (g : Nat) : Slice :=
  let w := s.waiter i
  let due := match s.releases.getLast? with
    | some r => max (g + 22) (r.due + 1)
    | none => max (g + 22) (s.relLast + 1)
  { s with releases := s.releases ++ [⟨w.port, due, s.classOf w.src.toNat, w.msg gen status tick, i, dr, tick.toNat⟩] }

/-- The answer of a sync request: a status with its generation and flags. -/
structure SyAns where
  gen : Nat
  status : Nat
  ovf : Bool
  unf : Bool
  tick : Word
  deriving DecidableEq, Repr

/-- An answer of a status alone. -/
def SyAns.st (status : Nat) : SyAns := ⟨0, status, false, false, 0⟩

/-- An answer of a status for a generation. -/
def SyAns.gen' (status gen : Nat) : SyAns := ⟨gen, status, false, false, 0⟩

/-- WT_FULL is counted (R211). -/
def Slice.noteWtFull (s : Slice) (pid : Nat) : Slice :=
  (s.raise SY_STATUS SY_STATUS_WTFULL).bump (SY_PCNT pid) SY_PCNT_WTFULL 1

/-- A misuse is counted (R207). -/
def Slice.noteMisuse (s : Slice) (pid : Nat) : Slice :=
  (s.raise SY_STATUS SY_STATUS_MISUSE).bump (SY_PCNT pid) SY_PCNT_MISUSE 1

/-- The request parks or is held, if an entry is free (R211). -/
def Slice.park (s : Slice) (r : Req) (o : SyObj) (kind st : Nat) : Option (Slice × SyObj) :=
  match s.freeWaiter with
  | none => none
  | some i =>
    let arg := if kind = 1 || kind = 3 then r.a.sArg1 else r.a.sArg
    let s := (s.setWaiter i ⟨r.a.addr.toNat / 16, r.a.dclass, BitVec.ofNat 4 r.lp, r.a.pin, r.a.cmp, kind, st, r.a.wait,
      decide (r.a.port.val % 2 = 1), r.a.txn, r.a.src, arg, s.fresh + 1, r.a.pid⟩).tick1
    some (s.pcEv 0x1A 1 r.occ, setF o SO_WAITERS (getF o SO_WAITERS + 1))

/-- The object loses n of its WAITERS. -/
def fewer (o : SyObj) (n : Nat) : SyObj := setF o SO_WAITERS (getF o SO_WAITERS - n)

/-! ### Release of waiters (R205, R206, R208) -/

/-- Every waiter of a counter whose test holds is released, in park order (R205). -/
def Slice.wakeCounter (s : Slice) (pin : Bool) (pid obj g : Nat) (o : SyObj) : Slice × SyObj :=
  (s.waitersOn pin pid obj).foldl (fun (t : Slice × SyObj) w =>
    if w.2.kind = 2 && cmpHolds w.2.cmp (getF t.2 SO_VALUE) w.2.arg then (t.1.release w.1 0 ST_RELEASED 0 none g, fewer t.2 1) else t) (s, o)

/-- The acquirers parked on a semaphore are released from the front while VALUE suffices; a release that leaves another acquirer of another
transaction parked is an order decision (R206, R214). -/
def Slice.wakeSem (s : Slice) (pin : Bool) (pid obj g : Nat) (o : SyObj) : List (Nat × Waiter) → Slice × SyObj
  | [] => (s, o)
  | w :: rest =>
    if getF o SO_VALUE < w.2.arg then (s, o)
    else
      let o := fewer (setF o SO_VALUE (getF o SO_VALUE - w.2.arg)) 1
      let s := s.release w.1 0 ST_RELEASED 0 none g
      let s := match rest.find? (fun x => x.2.src != w.2.src || x.2.txn != w.2.txn) with
        | some x => s.noteOdc pid 1 pin (obj / 8) OP_SY_ACQ.toNat w.2.src.toNat OP_SY_ACQ.toNat x.2.src.toNat
            { Occ.none with pid := some pid, half := some (objHalf pin obj), pin := pin, addr := obj / 8 * 128 }
        | none => s
      Slice.wakeSem s pin pid obj g o rest

/-- Waiters are evaluated after VALUE has changed (R205, R206). -/
def Slice.wake (s : Slice) (pin : Bool) (pid obj g : Nat) (o : SyObj) : Slice × SyObj :=
  match getF o SO_TYPE with
  | 1 => s.wakeCounter pin pid obj g o
  | 2 => Slice.wakeSem s pin pid obj g o ((s.waitersOn pin pid obj).filter (fun w => w.2.kind = 0))
  | _ => (s, o)

/-- RELEASE_TICK of a completion granted at g (R208). -/
def Slice.relTick (s : Slice) (pid g : Nat) : Word :=
  if s.flag (PT_CTRL pid) PT_CTRL_DET_MODE then s.countAt g + BitVec.ofNat 64 (s.fld SY_CTRL SY_CTRL_REL_LEAD) else 0

/-- Generation a completes: the object, the drain tracker t and the releases (R208). -/
def Slice.complete (s : Slice) (pin : Bool) (pid obj src g t : Nat) (o : SyObj) : Slice × SyObj × SyAns :=
  let a := getF o SO_GEN
  let tick := s.relTick pid g
  let ws := (s.waitersOn pin pid obj).filter (fun w => (w.2.kind = 1 || w.2.kind = 3) && w.2.st = 0 && w.2.arg = a)
  let s := ws.foldl (fun s w => s.release w.1 a ST_RELEASED tick (some t) g) s
  let s := s.setDrain t ⟨obj, pin, BitVec.ofNat 4 pid, a, tick.toNat, ws.length, true, g + 2⟩
  let s := (s.waitersOn pin pid obj).foldl (fun s w =>
    if w.2.kind = 3 && w.2.st = 2 && w.2.arg = (a + 1) % 65536 then s.setWaiter w.1 { w.2 with st := 0 } else s) s
  let o := setF (setF (setF (setF (fewer o ws.length) SO_VALUE 0) SO_GEN ((a + 1) % 65536)) SO_DRAIN 1) SO_LAST src
  (s, o, ⟨a, ST_RELEASED, false, false, tick⟩)

/-! ### The operations -/

/-- SY_ADD (R204, R206). (DEDUCED, log 19) -/
def Slice.syAdd (s : Slice) (r : Req) (g : Nat) (o : SyObj) : Slice × SyObj × Option SyAns :=
  let ty := getF o SO_TYPE
  let d := sext 32 r.a.sArg
  if ty = 3 then (s, o, some (.st ST_TYPE))
  else if ty = 2 && d < 1 then (s, o, some (.st ST_BADARG))
  else
    let sat := satSum (getF o SO_VALUE) d
    let o1 := addValue o d r.a.src.toNat
    let w := if ty = 1 && getF o1 SO_VALUE = getF o SO_VALUE then (s, o1) else s.wake r.a.pin r.lp (r.a.addr.toNat / 16) g o1
    (w.1, w.2, some ⟨0, ST_OK, sat.2.1, sat.2.2, 0⟩)

/-- SY_ACQ (R206). (DEDUCED, log 19) -/
def Slice.syAcq (s : Slice) (r : Req) (o : SyObj) : Slice × SyObj × Option SyAns :=
  let n := r.a.sArg
  let parked := (s.waitersOn r.a.pin r.lp (r.a.addr.toNat / 16)).any (fun w => w.2.kind = 0)
  if getF o SO_TYPE != 2 then (s, o, some (.st ST_TYPE))
  else if n = 0 then (s, o, some (.st ST_BADARG))
  else if !parked && decide (n ≤ getF o SO_VALUE) then
    (s, setF (setF o SO_VALUE (getF o SO_VALUE - n)) SO_LAST r.a.src.toNat, some (.st ST_RELEASED))
  else if r.a.wait then
    match s.park r o 0 0 with
    | some (s1, o1) => (s1, o1, none)
    | none => (s.noteWtFull r.lp, o, some (.st ST_WT_FULL))
  else (s, o, some (.st ST_FAILED))

/-- A request is held as misuse for the next generation, a wait only if its WAIT is 1, or answered MISUSE (R207, R209). -/
def Slice.syMisuse (s : Slice) (r : Req) (o : SyObj) (d kind : Nat) : Slice × SyObj × Option SyAns :=
  let o1 := setF o SO_MISUSE 1
  if d = 1 && (kind = 1 || r.a.wait) then
    match s.park r o1 kind 2 with
    | some (s1, o2) => (s1.noteMisuse r.lp, o2, none)
    | none => (s.noteWtFull r.lp, o, some (.gen' ST_WT_FULL r.a.sArg1))
  else (s.noteMisuse r.lp, o1, some (.gen' ST_MISUSE r.a.sArg1))

/-- SY_ARRIVE (R207, R208, R211). -/
def Slice.syArrive (s : Slice) (r : Req) (g : Nat) (o : SyObj) : Slice × SyObj × Option SyAns :=
  let a := r.a.sArg1
  let d := genDist o a
  let obj := r.a.addr.toNat / 16
  if getF o SO_TYPE != 3 then (s, o, some (.st ST_TYPE))
  else if d != 0 then s.syMisuse r o d 1
  else if getF o SO_DRAIN = 1 then
    match s.park r (setF o SO_EARLY 1) 1 1 with
    | some (s1, o1) => (s1.bump (SY_PCNT r.lp) SY_PCNT_EARLY 1, o1, none)
    | none => (s.noteWtFull r.lp, o, some (.gen' ST_WT_FULL a))
  else if getF o SO_VALUE + 1 = getF o SO_PCOUNT then
    match s.freeDrain with
    | none => (s.noteWtFull r.lp, o, some (.gen' ST_WT_FULL a))
    | some t => let c := s.complete r.a.pin r.lp obj r.a.src.toNat g t o; (c.1, c.2.1, some c.2.2)
  else
    let o1 := setF (setF o SO_VALUE (getF o SO_VALUE + 1)) SO_LAST r.a.src.toNat
    if r.a.wait then
      match s.park r o1 1 0 with
      | some (s1, o2) => (s1, o2, none)
      | none => (s, o1, some (.gen' ST_NOPARK a))
    else (s, o1, some (.gen' ST_OK a))

/-- SY_WAIT (R205, R209). -/
def Slice.syWait (s : Slice) (r : Req) (o : SyObj) : Slice × SyObj × Option SyAns :=
  let parkOr := fun (kind gen : Nat) =>
    if r.a.wait then
      match s.park r o kind 0 with
      | some (s1, o1) => (s1, o1, none)
      | none => (s.noteWtFull r.lp, o, some (SyAns.gen' ST_WT_FULL gen))
    else (s, o, some (SyAns.gen' ST_FAILED gen))
  match getF o SO_TYPE with
  | 1 => if cmpHolds r.a.cmp (getF o SO_VALUE) r.a.sArg then (s, o, some (.st ST_RELEASED)) else parkOr 2 0
  | 3 =>
    let a := r.a.sArg1
    let d := genDist o a
    if d = 0 || (d = 65535 && getF o SO_DRAIN = 1) then parkOr 3 a
    else if d = 1 || d < 32768 then s.syMisuse r o d 3
    else (s, o, some (.gen' ST_RELEASED a))
  | _ => (s, o, some (.st ST_TYPE))

/-! ### Drain, re-evaluation and manual set (R208, R217, R219) -/

/-- The entry is an arrival that has become applicable. -/
def applicable (o : SyObj) (w : Waiter) : Bool :=
  w.kind = 1 && w.st != 0 && getF o SO_TYPE = 3 && getF o SO_DRAIN = 0 && genDist o w.arg = 0

/-- A held arrival is applied (R207): the object, and its answer at the grant if it is not parked. -/
def Slice.applyHeld (s : Slice) (i g : Nat) (o : SyObj) : Slice × SyObj × Option SyAns :=
  let w := s.waiter i
  let drop := fun (t : Slice) => t.setWaiter i Waiter.none
  if getF o SO_VALUE + 1 = getF o SO_PCOUNT then
    match s.freeDrain with
    | none => (drop (s.noteWtFull w.pid.toNat), fewer o 1, some (.gen' ST_WT_FULL w.arg))
    | some t =>
      let c := (drop s).complete w.pin w.pid.toNat w.obj w.src.toNat g t (fewer o 1)
      (c.1, c.2.1, some c.2.2)
  else
    let o1 := setF (setF o SO_VALUE (getF o SO_VALUE + 1)) SO_LAST w.src.toNat
    if w.wait then (s.setWaiter i { w with st := 0 }, o1, none)
    else (drop s, fewer o1 1, some (.gen' ST_OK w.arg))

/-- The answer to a waiter-table entry leaves at once, 21 fc after the grant (R208). -/
def Slice.answerWaiter (s : Slice) (w : Waiter) (g : Nat) (x : Option SyAns) : Slice :=
  match x with
  | none => s
  | some x => s.emit w.port (g + 21) (s.classOf w.src.toNat) true (w.msg x.gen x.status x.tick)

/-- The oldest held arrival that has become applicable. -/
def Slice.nextApplicable (s : Slice) (pin : Bool) (pid obj : Nat) (o : SyObj) : Option Nat :=
  ((s.waitersOn pin pid obj).find? (fun w => applicable o w.2)).map Prod.fst

/-- The drain continuation of tracker entry t (R208): DRAIN clears, waits for the drained generation are released, the oldest applicable arrival is
applied, and a further one gets its own continuation. -/
def Slice.syDrainEnd (s : Slice) (t g : Nat) (o : SyObj) : Slice × SyObj :=
  let d := Tbl.at Drain.none s.drains t
  let pid := d.pid.toNat
  let s := s.setDrain t Drain.none
  let ws := (s.waitersOn d.pin pid d.obj).filter (fun w => w.2.kind = 3 && w.2.st = 0 && w.2.arg = d.gen)
  let s := ws.foldl (fun s w => s.release w.1 d.gen ST_RELEASED 0 none g) s
  let o := fewer (setF o SO_DRAIN 0) ws.length
  match s.nextApplicable d.pin pid d.obj o with
  | none => (s, o)
  | some i =>
    let w := s.waiter i
    let r := s.applyHeld i g o
    let s := r.1.answerWaiter w g r.2.2
    match s.nextApplicable d.pin pid d.obj r.2.1 with
    | none => (s, r.2.1)
    | some j => (s.pushCont (bankKey (if d.pin then bufSet (d.obj * 16) else lineSet (d.obj / 8))) (.restored j), r.2.1)

/-- A restored or further held entry is re-evaluated (R208, R219). -/
def Slice.syRecheck (s : Slice) (i g : Nat) (o : SyObj) : Slice × SyObj :=
  let w := s.waiter i
  let pid := w.pid.toNat
  if w = Waiter.none || s.leaving i then (s, o)
  else if applicable o w then
    let r := s.applyHeld i g o
    let s := r.1.answerWaiter w g r.2.2
    match s.nextApplicable w.pin pid w.obj r.2.1 with
    | none => (s, r.2.1)
    | some j => (s.pushCont (bankKey (if w.pin then bufSet (w.obj * 16) else lineSet (w.obj / 8))) (.restored j), r.2.1)
  else if w.kind = 2 && getF o SO_TYPE = 1 && cmpHolds w.cmp (getF o SO_VALUE) w.arg then (s.release i 0 ST_RELEASED 0 none g, fewer o 1)
  else if w.kind = 0 && getF o SO_TYPE = 2 then
    Slice.wakeSem s w.pin pid w.obj g o ((s.waitersOn w.pin pid w.obj).filter (fun x => x.2.kind = 0))
  else if (w.kind = 3 || (w.kind = 1 && w.st = 0)) && getF o SO_TYPE = 3 then
    let d := genDist o w.arg
    if 32768 ≤ d && !(d = 65535 && getF o SO_DRAIN = 1) then (s.release i w.arg ST_RELEASED 0 none g, fewer o 1)
    else if d = 0 && w.kind = 3 then (s.setWaiter i { w with st := 0 }, o)
    else (s, o)
  else (s, o)

/-- SET_VALUE (R217). -/
def Slice.sySet (s : Slice) (pin : Bool) (pid obj g v : Nat) (o : SyObj) : Slice × SyObj :=
  let o1 := setF (setF (setF o SO_VALUE v) SO_MANUAL 1) SO_LAST 0x7FF
  if getF o SO_TYPE = 3 then
    if getF o SO_PCOUNT ≤ v then
      match s.freeDrain with
      | some t => let c := s.complete pin pid obj 0x7FF g t o1; (c.1, c.2.1)
      | none => (s, o1)
    else (s, o1)
  else
    let w := s.wake pin pid obj g o1
    (w.1, setF w.2 SO_LAST 0x7FF)

/-- RELEASE_ALL: every entry of the object is answered FORCED (R217), a barrier's with the generation it waits for (R200). (DEDUCED, log 61) -/
def Slice.syReleaseAll (s : Slice) (pin : Bool) (pid obj g : Nat) (o : SyObj) : Slice × SyObj :=
  let s := (s.waitersOn pin pid obj).foldl (fun s w => s.release w.1 (if w.2.kind = 1 || w.2.kind = 3 then w.2.arg else 0) ST_FORCED 0 none g) s
  (s, setF (setF (setF o SO_WAITERS 0) SO_MANUAL 1) SO_LAST 0x7FF)

/-- A SYNC_DATA payload of an answer. -/
def SyAns.payload (x : SyAns) : Payload := syncData x.gen x.status x.ovf x.unf x.tick

/-- What a sync request does to its object at a grant (R202): the slice, the object after it, and the answer: none for a parked request,
else the DAT opcode and payload. -/
def Slice.syPerform (s : Slice) (r : Req) (g : Nat) (o : SyObj) : Slice × SyObj × Option (BitVec 6 × Payload) :=
  let obj := r.a.addr.toNat / 16
  let wrap := fun (x : Slice × SyObj × Option SyAns) => (x.1, x.2.1, x.2.2.map (fun y => (DT_SYNC_DATA, y.payload)))
  if r.op = OP_SY_DRAIN then let x := s.syDrainEnd r.a.txn.toNat g o; (x.1, x.2, none)
  else if r.op = OP_SY_AGAIN then let x := s.syRecheck r.a.txn.toNat g o; (x.1, x.2, none)
  else if r.op = OP_SY_READ then
    if r.steward then
      (((((s.setReg SY_DBG_OBJ0 (o.extractLsb' 0 64)).setReg SY_DBG_OBJ1 (o.extractLsb' 64 64)).clearF SY_DBG_CMD SY_DBG_CMD_BUSY).setFld
        SY_DBG_CMD SY_DBG_CMD_RESULT 0), o, none)
    else (s, o, some (DT_SYNC_OBJ, o.setWidth 1152))
  else if r.op = OP_SY_SET || r.op = OP_SY_ALL then
    let s := s.clearF SY_DBG_CMD SY_DBG_CMD_BUSY
    if getF o SO_TYPE = 0 then (s.setFld SY_DBG_CMD SY_DBG_CMD_RESULT 3, o, none)
    else
      let x := if r.op = OP_SY_SET then s.sySet r.a.pin r.lp obj g r.a.sArg o else s.syReleaseAll r.a.pin r.lp obj g o
      (x.1.setFld SY_DBG_CMD SY_DBG_CMD_RESULT 0, x.2, none)
  else if r.op = OP_SY_INIT then
    let x := Machine.syInit o r.lp r.a.sType r.a.sArg r.a.sArg1 r.a.src.toNat
    wrap (s, x.2, some (.st x.1))
  else
    match syCheck o r.lp true with
    | some st => wrap (s, o, some (.st st))
    | none =>
      if r.op = OP_SY_ADD then wrap (s.syAdd r g o)
      else if r.op = OP_SY_ACQ then wrap (s.syAcq r o)
      else if r.op = OP_SY_ARRIVE then wrap (s.syArrive r g o)
      else wrap (s.syWait r o)

/-- One release goes from the sequencer to egress, in an fc after the one before it (R212). -/
def Slice.releaseSend (s : Slice) : Slice :=
  match s.releases with
  | [] => s
  | x :: rest =>
    let due := max (max x.due s.fc) (s.relLast + 1)
    let o : Out := ⟨x.port, due, s.fresh, x.mclass, true, { x.msg with src := s.node x.port }, some (x.slot, x.drain, x.tick)⟩
    ({ s with releases := rest, relLast := due, egress := s.egress ++ [o], fresh := s.fresh + 1 }).pcEv 0x1B 1
      { Occ.none with pid := some x.msg.pid.toNat, half := some (x.port.val / 2), port := x.port.val, cls := 3, op := DT_SYNC_DATA.toNat }

/-- The head of a release leaves: its entry frees, and the last release of a barrier that leaves after RELEASE_TICK is late (R208, R212). -/
def Slice.releaseLeft (s : Slice) (slot : Nat) (drain : Option Nat) (tick : Nat) : Slice :=
  let w := s.waiter slot
  let s := s.setWaiter slot Waiter.none
  match drain with
  | none => s
  | some t =>
    let d := Tbl.at Drain.none s.drains t
    if !d.busy then s
    else
      let s := s.setDrain t { d with left := d.left - 1, since := s.fc + 1 }
      if d.left = 1 && tick != 0 && decide (tick < s.count.toNat) then
        let s := (s.raise SY_STATUS SY_STATUS_LATE).bump (SY_PCNT w.pid.toNat) SY_PCNT_LATE 1
        s.tevt TV_LATE
      else s

end Sys2Proof.Machine
end

