-- ==== Sys2Proof/Machine/FrameOps.lean ====
section
/-! DEFINITION. Operations that read a frame and write it back in one grant: accumulation, finalize, EXPMAX, line operations, atomics and
sync requests (spec 06_exact_accumulation.md R151 to R170, 07_line_operations.md R180 to R191, 08_sync_objects.md R202). What an operation
computes from the frames it reads is one function; where the frames lie, what must be in place first and how they are written is said once for
physical lines and once for pinned frames. -/

namespace Sys2Proof.Machine

/-! ### What an operation computes -/

/-- A frame as the read slot finds it: its bytes, a dead pinned frame, and an uncorrectable read. -/
structure FrameIn where
  data : Line
  dead : Bool
  bad : Bool
  deriving DecidableEq, Repr

/-- What an operation leaves: for each frame the sectors written with the new bytes, or nothing; the answer (payload class, opcode, EXT0 and
payload; none for a parked request); the fc that the answer is later for MXFP8 or a full hash queue. -/
structure Effect where
  writes : List (Option (BitVec 4 × Line))
  ans : Option (Bool × BitVec 6 × BitVec 15 × Payload)
  extra : Nat
  deriving DecidableEq, Repr

/-- The sector of a byte address. (DEDUCED, log 24) -/
def sectorOf (addr : Nat) : BitVec 4 := 1#4 <<< (addr % 128 / 32)

/-- The sectors that an operation covers (R186). (DEDUCED, log 24) -/
def coveredSectors (op : BitVec 6) (a : Arr) : BitVec 4 :=
  if op = OP_LINE_OP || usesDesc op then 15 else sectorOf a.addr.toNat

/-- The conversions of the contributions of ACC_ADD or ACC_ADD_S (R149, R160). -/
def contribs (op : BitVec 6) (a : Arr) : List Conv :=
  (List.range (spanCount op a)).map (fun i =>
    convert (bytesAt a.pl (inBytes a.fmt3 * i) (inBytes a.fmt3)) a.fmt3 (axaOf a.format) a.anchor)

/-- Contributions update the elements of a line in order (R151). -/
def addLine (x : AxaFmt) (l : Line) (cs : List Conv) : Line :=
  ((List.range cs.length).zip cs).foldl (fun l ic => setEl x l ic.1 ((elAt x l ic.1).update x ic.2.q (b2n ic.2.counted) ic.2.nf)) l

/-- A line of partials is merged into a line (R152). -/
def mergeEls (x : AxaFmt) (l p : Line) : Line :=
  (List.range x.perLine).foldl (fun l i => setEl x l i ((elAt x l i).merge x (elAt x p i))) l

/-- Some element of a line is in a class. -/
def anyClass (x : AxaFmt) (l : Line) (c : ElClass) : Bool := (List.range x.perLine).any (fun i => (elAt x l i).cls x = c)

/-- The descriptor that covers the span of an accumulation request. -/
def Slice.spanDesc (s : Slice) (op : BitVec 6) (a : Arr) : Option Nat :=
  s.descOf a.pid.toNat (if a.pin then 1 else 0) (a.addr.toNat / 512) ((a.addr.toNat + spanBytes op a - 1) / 512)

/-- The flags of R153 are set in AX_STATUS of a descriptor. -/
def Slice.noteAxStatus (s : Slice) (d : Option Nat) (sat : Nat) (cnt nf : Bool) : Slice :=
  match d with
  | none => s
  | some d =>
    let s := if sat = 0 then s else (s.raise (AX_STATUS d) AX_STATUS_SAT).bump (AX_STATUS d) AX_STATUS_SAT_CNT sat
    let s := if cnt then s.raise (AX_STATUS d) AX_STATUS_CNT else s
    if nf then s.raise (AX_STATUS d) AX_STATUS_NF else s

/-- One dead read for each frame that is dead or, for accumulation, holds a DEAD element (R106, R156). -/
def Slice.noteDeads (s : Slice) (r : Req) (fr : List FrameIn) : Slice :=
  fr.foldl (fun s f =>
    s.deadReadIf (!f.bad && (f.dead || (usesDesc r.op && anyDead (axaOf r.a.format) f.data))) r.lp r.occ) s

/-- EXT0 of a COMP with SAT and NFIN (R159). -/
def accComp (sat nf : Bool) : BitVec 15 := BitVec.ofNat 15 (8 * b2n sat + 16 * b2n nf)

/-- ACC_ADD, ACC_ADD_S and ACC_MERGE (R151 to R153). -/
def Slice.effectAcc (s : Slice) (r : Req) (fr : List FrameIn) : Slice × Effect :=
  let x := axaOf r.a.format
  let cs := if r.op = OP_ACC_MERGE then [] else contribs r.op r.a
  let new := (List.range fr.length).zip fr |>.map (fun jf =>
    if r.op = OP_ACC_MERGE then mergeEls x jf.2.data r.a.line
    else addLine x jf.2.data ((cs.drop (jf.1 * x.perLine)).take x.perLine))
  let nf := if r.op = OP_ACC_MERGE then (List.range x.perLine).any (fun i => (elAt x r.a.line i).partialNf) else cs.any (fun c => c.nf)
  let sat := (cs.filter (fun c => c.sat)).length
  let good := (fr.zip new).filter (fun p => !p.1.bad)
  let cnt := good.any (fun p => anyClass x p.2 .ceiling)
  let s := s.noteAxStatus (s.spanDesc r.op r.a) sat cnt nf
  let s := (s.pcEv 0x13 (good.length * x.perLine) r.occ).pcEv 0x15 sat r.occ
  (s, ⟨(fr.zip new).map (fun p => if p.1.bad then none else some (15, p.2)), some (false, RS_COMP, accComp (sat != 0) nf, 0), 0⟩)

/-- The second operand of element i of a fused finalize (R167, R168). -/
def fuseOperand (r : Req) (i : Nat) : Option (FpVal × Bool) :=
  if r.op = OP_ACC_FIN_FUSE then
    some (fpDecode (fpOf r.a.fuseFmt) (bytesAt r.a.pl (inBytes r.a.fuseFmt * i) (inBytes r.a.fuseFmt)), r.a.fop)
  else none

/-- ACC_FIN and ACC_FIN_FUSE (R167 to R170); the answer of a digested region is absorbed (R244). -/
def Slice.effectFin (s : Slice) (r : Req) (fr : List FrameIn) : Slice × Effect :=
  let x := axaOf r.a.format
  let els := fr.flatMap (fun f => (List.range x.perLine).map (elAt x f.data))
  let ws := ((List.range els.length).zip els).map (fun ie => finValue x r.a.anchor ie.2 r.a.strict (fuseOperand r ie.1))
  let pl := finPayload r.a.fmt3 ws
  let any := fun (c : ElClass) => els.any (fun e => e.cls x = c)
  let dead := any .dead || fr.any (fun f => f.dead)
  let e0 : BitVec 15 := BitVec.ofNat 15 (b2n (any .nf) + 2 * b2n (any .ceiling) + 4 * b2n dead)
  let bad := fr.any (fun f => f.bad)
  let h := if bad then (s, 0) else s.absorbFin r.lp (if r.a.pin then 1 else 0) (r.a.addr.toNat / 128) (pl.extractLsb' 0 1024)
  (h.1.pcEv 0x14 els.length r.occ,
    ⟨fr.map (fun f => if r.a.zero && !f.bad then some (15, 0) else none), some (true, DT_ACC_DATA, e0, pl),
      h.2 + (if 3 ≤ r.a.fmt3 then 2 else 0)⟩)

/-- The largest exponent of the inputs of EXPMAX, and NFIN (R166). -/
def expMaxOf (a : Arr) : Option Int × Bool :=
  (List.range (128 / inBytes a.fmt3)).foldl (fun (m : Option Int × Bool) i =>
    match expOf (bytesAt a.pl (inBytes a.fmt3 * i) (inBytes a.fmt3)) a.fmt3 with
    | none => m
    | some (e, nf) => (some (match m.1 with
        | none => e
        | some y => max y e), m.2 || nf)) (none, false)

/-- A line with one element of n bytes replaced. -/
def setBytes (l : Line) (start n v : Nat) : Line := setF l ⟨8 * start, 8 * n⟩ v

/-- EXPMAX on a line (R166): the word's sector is written. (DEDUCED, log 24) -/
def effectExpmax (a : Arr) (l : Line) : Line × Bool :=
  let o := a.addr.toNat % 128 / 4 * 4
  let m := expMaxOf a
  let word := sext 32 (bytesAt l o 4)
  (setBytes l o 4 (wrapN 32 (match m.1 with
    | none => word
    | some e => max word e)), m.2)

/-- FETCH_OP, SWAP and CAS on a line (R183): the element's new value if it is written, OLD, and CAS_OK. -/
def atomicOf (op : BitVec 6) (a : Arr) (old : Nat) : Option Nat × Bool :=
  let n := widthBytes a.width
  let opnd := bytesAt a.pl 0 n
  if op = OP_FETCH_OP then (some (elemOp a.lop n (fminFmt a.width a.bf) old opnd), false)
  else if op = OP_SWAP then (some opnd, false)
  else if old = bytesAt a.pl 8 n then (some opnd, true) else (none, false)

/-- What an operation computes from its frames at a grant. -/
def Slice.opEffect (s : Slice) (r : Req) (g : Nat) (fr : List FrameIn) : Slice × Effect :=
  let f := fr.headD ⟨0, false, false⟩
  let a := r.a
  let keep := fun (w : Option (BitVec 4 × Line)) => if f.bad then [none] else [w]
  if isFin r.op then s.effectFin r fr
  else if usesDesc r.op then s.effectAcc r fr
  else if r.op = OP_EXPMAX then
    let e := effectExpmax a f.data
    (s.pcEv 0x16 1 r.occ, ⟨keep (some (sectorOf a.addr.toNat, e.1)), some (false, RS_COMP, accComp false e.2, 0), 0⟩)
  else if r.op = OP_LINE_OP then
    (s.pcEv 0x16 1 r.occ, ⟨keep (some (15, lineOpData a.lop a.width a.bf f.data a.line)), some (false, RS_COMP, 0, 0), 0⟩)
  else if isLop r.op then
    let o := a.addr.toNat % 128
    let n := widthBytes a.width
    let old := bytesAt f.data o n
    let x := atomicOf r.op a old
    (s.pcEv 0x17 1 r.occ, ⟨keep (x.1.map (fun v => (sectorOf a.addr.toNat, setBytes f.data o n v))),
      some (true, DT_ATOM_DATA, BitVec.ofNat 15 (b2n x.2), BitVec.ofNat 1152 old), 0⟩)
  else if f.bad then (s.pcEv 0x19 1 r.occ, ⟨[none], some (true, DT_SYNC_DATA, 0, 0), 0⟩)
  else
    let k := a.addr.toNat % 128 / 16
    let o := objAt f.data k
    let p := s.syPerform r g o
    ((if isSyInternal r.op then p.1 else p.1.pcEv 0x19 1 r.occ),
      ⟨[if p.2.1 = o then none else some (sectorOf a.addr.toNat, setObj f.data k p.2.1)], p.2.2.map (fun x => (true, x.1, 0, x.2)), 0⟩)

/-! ### Answers -/

/-- The bank holds further slots after a grant (R35, R188). -/
def Slice.holdBank (s : Slice) (bk g n : Nat) : Slice := s.modBank bk (fun b => b.takeFrom (g + 1) n)

/-- The slots that an operation of f frames takes in one bank (R162, R188). -/
def opSlots (op : BitVec 6) (a : Arr) (f : Nat) : Nat := if isFin op && !a.zero then f else 2 * f

/-- The answer of an operation as a message with its offset from the performing grant: `rd` fc later for payloads, and DATA_ERR in its place (R163,
R164, R191). -/
def Slice.opAnswer (s : Slice) (r : Req) (e : Effect) (bad : Bool) (rd : Nat) : List Answer :=
  if r.steward then []
  else match e.ans with
    | none => []
    | some (dat, op, e0, pl) =>
      let after := if dat then 21 + rd + e.extra else 17
      let m := if bad then answerTo r.a .rsp RS_DATA_ERR 0 0 else if dat then answerTo r.a .dat op e0 pl else answerTo r.a .rsp op e0 0
      [⟨r.port, m, after, s.classOf r.a.src.toNat, dat && !bad⟩]

/-! ### Pinned frames (R162, R187) -/

/-- The frames of a pinned operation. -/
def Slice.opKeys (s : Slice) (r : Req) : List (Nat × Nat) :=
  (List.range (spanFrames r.op r.a)).map (fun j => let off := r.a.addr.toNat + 128 * j; (bufSet off, s.bufKey r.lp off))

/-- A pinned frame as the read slot finds it. -/
def Slice.frameIn (s : Slice) (key : Nat) : FrameIn :=
  let f := s.frame key
  let dead := f.w0.getLsbD 0
  ⟨if dead then 0 else f.data, dead, s.anyBad 0 key (fun _ => true)⟩

/-- The grants of the frames other than the first: each in its own bank, 2 fc later in the other half (R162). The slice and the latest grant. -/
def Slice.pinGrants (s : Slice) (r : Req) (g : Nat) (sets : List Nat) : Slice × Nat :=
  let h := reqHalf r.op r.a
  sets.foldl (fun (t : Slice × Nat) x =>
    let at' := max t.1.slotFc (r.t + 3 + crossing r.op r.a + (if halfOfSet x = h then 0 else 2))
    let n := opSlots r.op r.a 1
    let (gx, t1) := t.1.grant (bankKey x) at' n 1 (some (if halfOfSet x = h then inputOf h r.a.port else 2)) r.lp r.occ
    (t1.odc r (bankKey x) gx, max t.2 gx)) (s, g)

/-- The captures of every written frame; none when one of them waits for a shelf frame (R257). -/
def Slice.pinCaptures (s : Slice) (p : Nat) (l : List (Nat × Nat)) : Option (Slice × Nat) :=
  l.foldl (fun (t : Option (Slice × Nat)) xk => match t with
    | none => none
    | some (s, n) => match s.epochPrePin p xk.2 xk.1 with
      | none => none
      | some (s1, e) => some (s1, n + e)) (some (s, 0))

/-- A frame operation on pinned frames is performed at the grant of its first frame (R162, R187). -/
def Slice.serveOpPin (s : Slice) (r : Req) (gr : Gr) : Slice :=
  let keys := s.opKeys r
  let x0 := reqSet r.op r.a
  let bk := bankKey x0
  let fr := keys.map (fun xk => s.frameIn xk.2)
  let s0 := keys.foldl (fun t xk => t.noteReads 0 xk.2 0 (fun _ => true)) s
  let s1 := ((s0.holdBank bk gr.g (opSlots r.op r.a 1 - 1)).odc r bk gr.g).noteDeads r fr
  let (s2, last) := s1.pinGrants r gr.g ((keys.drop 1).map Prod.fst)
  let (s3, e) := s2.opEffect r gr.g fr
  let wr := (keys.zip e.writes).filterMap (fun kw => kw.2.map (fun w => (kw.1, w)))
  match s3.pinCaptures r.lp (wr.map Prod.fst) with
  | none => s.wait r bk x0 .shelf gr
  | some (s4, extra) =>
    let s5 := wr.foldl (fun t kw => ((t.putBytes kw.1.2 (bytesOfSectors kw.2.1) kw.2.2).1.pinTags r.lp kw.1.2 false)) s4
    let bad := fr.any (fun f => f.bad)
    let s6 := if bad then s5.stewardErr r else s5
    s6.sendAnswers ((s6.opAnswer r e bad 0).map (fun x => { x with after := x.after + extra })) last

/-! ### Physical lines (R163, R186) -/

/-- Where a target line is once it may be operated on: in the arrays, or in a fill-buffer entry that found no way (R163, R186). -/
inductive OpSrc where
  | loc (l : Loc)
  | fill (k i : Nat)
  deriving DecidableEq, Repr

/-- What the tag stage finds for one target line. -/
inductive OpLine where
  | wait (w : Wait)
  | lost (l : Loc)
  | recall (e : Nat)
  | fetch
  | ready (x : OpSrc)
  deriving DecidableEq, Repr

/-- The HTE of a fill that arrived for this request and found no way. -/
def Slice.arrivedFor (s : Slice) (r : Req) (bk line : Nat) (own : Option Nat) : Option (Nat × Nat) :=
  match s.hteOf line with
  | none => none
  | some i =>
    let e := s.hte bk i
    if e.arrived && (own = some i || (e.rnode = r.a.src && e.rtxn = r.a.txn && e.op = r.op)) then (s.fillOf bk i).map (fun f => (f.1, i)) else none

/-- The tag stage of one target line of a frame operation (R163, R186). -/
def Slice.opLine (s : Slice) (r : Req) (bk line : Nat) (own : Option Nat) : OpLine :=
  match s.arrivedFor r bk line own with
  | some (k, i) => .ready (.fill k i)
  | none => match s.tag r.lp line own with
    | .held w => .wait w
    | .lost l => .lost l
    | .found .absent => .fetch
    | .found l =>
      let part := getF (s.locW0 l) T0_LAYOUT = 0
        && coveredSectors r.op r.a &&& ~~~(BitVec.ofNat 4 (getF (s.locW0 l) T0_SV)) != 0
      match l with
      | .victim e => if s.canRecall e then .recall e else if part then .fetch else .ready (.loc l)
      | _ => if part then .fetch else .ready (.loc l)

/-- The fill of one target line issues for a held operation, or the operation waits (R163). -/
def Slice.opFetch (s : Slice) (r : Req) (bk line : Nat) (gr : Gr) : Slice × Wait :=
  if s.locate r.lp line = .absent && s.alloc line r.lp 0 = .wait .way then (s, .way)
  else match s.missNeeds r bk { gr with own := none } with
    | .inr w => (s.noteStarved (bk / 8) w, w)
    | .inl (i, k) =>
      let e := { (r.hte line .wMem 0 false) with kind := .fill, req := none }
      let s := (s.setHte bk i e).pcEv 0x07 1 r.occ
      (s.sendMemRd r.port (gr.g + 11) k ⟨line, r.lp, r.a.pid.toNat, s.reqClass r, .hte (bk * 16 + i), false, 0, false⟩, .line)

/-- The wait of a request for several lines: for a line that is on its way, unless some line needs the request to be performed again. -/
def laterWait (old : Option (Nat × Wait)) (new : Nat × Wait) : Option (Nat × Wait) :=
  match old with
  | none => some new
  | some x => if x.2 = .line || x.2 = .recall then some new else some x

/-- What must still happen before the operation: recalls and fills of its lines; the request waits for what comes last (R163). -/
def Slice.opPrepare (s : Slice) (r : Req) (bk : Nat) (gr : Gr) (ls : List (Nat × OpLine)) : Slice × Option (Nat × Wait) :=
  ls.foldl (fun (t : Slice × Option (Nat × Wait)) lo => match lo.2 with
    | .recall e => ((t.1.recall e gr.g).pcEv 6 1 r.occ, laterWait t.2 (lo.1, .recall))
    | .fetch => let f := t.1.opFetch r bk lo.1 gr; (f.1, laterWait t.2 (lo.1, f.2))
    | .wait w => (t.1, laterWait t.2 (lo.1, w))
    | _ => t) (s, none)

/-- Every target line of a held operation is in place, or can be looked up again (R163). -/
def Slice.opInPlace (s : Slice) (r : Req) (bk : Nat) : Bool :=
  ((List.range (spanFrames r.op r.a)).map (lineNo r.a.addr.toNat + ·)).all (fun n =>
    (!(s.transient n) || (s.arrivedFor r bk n none).isSome) && (match s.locate r.lp n with
      | .victim e => !(s.vict e).recalling
      | _ => true))

/-- The line at a source as the read slot finds it. -/
def Slice.srcIn (s : Slice) (line : Nat) : OpSrc → FrameIn
  | .loc l => ⟨s.locData l line, false, s.locBad l line || s.isLost l⟩
  | .fill k _ => ⟨(Tbl.at Fill.none s.fills k).data, false, false⟩

/-- The line at a source is in a pair or quad frame. -/
def Slice.srcComp (s : Slice) : OpSrc → Bool
  | .loc l => getF (s.locW0 l) T0_LAYOUT != 0 && l != .absent
  | .fill _ _ => false

/-- EPST of the line at a source. -/
def Slice.srcEpst (s : Slice) (p : Nat) : OpSrc → Nat
  | .loc l => getF (s.locW1 l) T1_EPST
  | .fill _ _ => s.epstClean p

/-- What became of the write of one line: done in the arrays; written back to memory under an HTE (R75); or it waits. -/
inductive OpWrote where
  | done
  | memory (m : BitVec 4) (d : Line)
  | wait (k : Wait)
  deriving DecidableEq, Repr

/-- The result of an operation on one line is written; its directory is left in U (R186). `w` is none for a line that is only read, and for a CAS that fails:
with no way for the line it writes nothing back, and is answered at once. (DEDUCED, log 74) -/
def Slice.opWrite (s : Slice) (p line : Nat) (x : OpSrc) (old : Line) (bad : Bool) (w : Option (BitVec 4 × Line)) : Slice × OpWrote :=
  let dir := fun (t : Slice) (w1 : Word) => if w.isSome then t.writtenW1 p line (clearDir w1) else clearDir w1
  match x with
  | .fill _ _ => (s, match w with
      | some (m, d) => .memory m d
      | none => .done)
  | .loc (.frame key) =>
    let f := s.frame key
    if bad then (s, .done)
    else if getF f.w0 T0_LAYOUT = 0 then
      match w with
      | none => ((s.putTags key f.w0 (dir s f.w1)).touch (lineSet line) (keyWay key), .done)
      | some (m, d) =>
        let w0 := setF (setF f.w0 T0_SV (getF f.w0 T0_SV ||| m.toNat)) T0_SD (getF f.w0 T0_SD ||| m.toNat)
        ((((s.putBytes key (bytesOfSectors m) d).1.putTags key w0 (dir s f.w1)).touch (lineSet line) (keyWay key)), .done)
    else match s.relayout key p line (match w with
        | some x => x.1.toNat
        | none => 0) (match w with
        | some x => x.2
        | none => old) (s.accLine p line) with
      | (s1, .done l2) => (s1.setLocW1 l2 (dir s1 (s1.locW1 l2)), .done)
      | (_, .wait k) => (s, .wait k)
      | (_, .nowhere) => (match w with
          | none => (s, .done)
          | some (m, d) => (s.removeLine (.frame key) line, .memory m d))
  | .loc (.victim e) =>
    let v := s.vict e
    if bad then (s, .done)
    else match w with
      | none => (s.setLocW1 (.victim e) (dir s v.frame.w1), .done)
      | some (m, d) =>
        if getF v.frame.w0 T0_LAYOUT = 0 then
          let w0 := setF (setF v.frame.w0 T0_SV (getF v.frame.w0 T0_SV ||| m.toNat)) T0_SD (getF v.frame.w0 T0_SD ||| m.toNat)
          (s.putVictSectors e m w0 (dir s v.frame.w1) d, .done)
        else (s.removeLine (.victim e) line, .memory m d)
  | .loc .absent => (s, .done)

/-- One target line with what the operation leaves of it. -/
structure OpItem where
  line : Nat
  src : OpSrc
  frame : FrameIn
  write : Option (BitVec 4 × Line)
  deriving DecidableEq, Repr

/-- Every line is captured as R257 asks and written; the lines that go to memory are collected. None: it waits. -/
def Slice.opWriteAll (s : Slice) (p : Nat) (l : List OpItem) : (Slice × Nat × List (OpItem × BitVec 4 × Line)) ⊕ Wait :=
  l.foldl (fun (t : (Slice × Nat × List (OpItem × BitVec 4 × Line)) ⊕ Wait) it => match t with
    | .inr w => .inr w
    | .inl (s, n, mem) =>
      match (if it.write.isSome then s.epochPre p it.line (s.srcEpst p it.src) it.frame.data else some (s, 0)) with
      | none => .inr .shelf
      | some (s1, e) => match s1.opWrite p it.line it.src it.frame.data it.frame.bad it.write with
        | (_, .wait k) => .inr k
        | (s2, .done) => .inl (s2, n + e, mem)
        | (s2, .memory m d) => .inl (s2, n + e, mem ++ [(it, m, d)])) (.inl (s, 0, []))

/-- A fill-buffer entry of an operation that wrote nothing is given up. -/
def Slice.dropArrived (s : Slice) (bk : Nat) (x : OpSrc) : Slice :=
  match x with
  | .fill k i => ((s.dropFill k).modHte bk i (fun e => { e with arrived := false, fin := true, st := .wAck, needAck := false })).retire bk i
  | _ => s

/-- The lines that go to memory: a MEM_WR each under an HTE; the first HTE keeps the answer until the last MEM_ACK (R75, R163). -/
def Slice.opToMemory (s : Slice) (r : Req) (bk lead : Nat) (ans : List Answer) (g : Nat) (mem : List (OpItem × BitVec 4 × Line)) : Slice :=
  let n := mem.length
  mem.foldl (fun s x =>
    let i := match x.1.src with
      | .fill _ i => i
      | _ => lead
    let s := match x.1.src with
      | .fill k _ => s.dropFill k
      | _ => s
    let s := s.setHte bk i { (r.hte x.1.line .wMemAck 0 false) with
      ans := if i = lead then ans else [], leader := lead + 1, acks := if i = lead then n else 0 }
    s.memWr r.port (g + 11) 31 r.lp x.1.line x.2.1 x.2.2 (.wbHte bk i)) s

/-- A frame operation on physical lines at a grant (R163, R186). -/
def Slice.serveOpPhys (s : Slice) (r : Req) (gr : Gr) : Slice :=
  let base := lineNo r.a.addr.toNat
  let bk := bankKey (lineSet base)
  let lines := (List.range (spanFrames r.op r.a)).map (base + ·)
  let found := lines.map (fun n => (n, s.opLine r bk n gr.own))
  let single := !(usesDesc r.op)
  let off := if isAcc r.op && !(isFin r.op) || r.op = OP_LINE_OP then 17 else 21
  let first := (s.opLine r bk base gr.own)
  let here : Option Loc := match first with
    | .ready (.loc l) => some l
    | .fetch => (match s.locate r.lp base with
        | .absent => none
        | l => some l)
    | _ => none
  let cs := match here with
    | some l => if single && !gr.clr then s.copies (s.locW1 l) else []
    | none => []
  if cs != [] then s.invalidate r bk base cs false gr
  else match found.find? (fun x => single && (match x.2 with
      | .lost _ => true
      | _ => false)) with
    | some (n, .lost l) => if r.steward then ((s.locRead l n).stewardErr r).doneOwn bk gr else (s.locRead l n).failRead r bk (gr.g + off) gr
    | _ =>
      if single && gr.own.isSome && first = .fetch then s.miss r bk base .request gr
      else
        match s.opPrepare r bk gr found with
        | (s1, some (n, w)) => s1.wait r bk n w gr
        | (_, none) =>
          let srcs := found.filterMap (fun x => match x.2 with
            | .ready y => some (x.1, y)
            | .lost l => some (x.1, OpSrc.loc l)
            | _ => none)
          let fr := srcs.map (fun x => s.srcIn x.1 x.2)
          let s0 := srcs.foldl (fun t x => match x.2 with
            | .loc l => let t := t.locRead l x.1; if gr.hold.isNone && gr.own.isNone then t.pcEv (t.hitEvent l) 1 r.occ else t
            | _ => t) s
          let comp := srcs.any (fun x => s.srcComp x.2)
          let f := srcs.length
          let s1 := ((s0.holdBank bk gr.g (opSlots r.op r.a f - 1)).odc r bk gr.g).noteDeads r fr
          let (s2, e) := s1.opEffect r gr.g fr
          let items := (srcs.zip (fr.zip e.writes)).map (fun x => (⟨x.1.1, x.1.2, x.2.1, x.2.2⟩ : OpItem))
          match s2.opWriteAll r.lp items with
          | .inr w => s.wait r bk base w gr
          | .inl (s3, extra, mem) =>
            let rd := (if isFin r.op then (if r.a.zero then 2 else 1) * (f - 1) else 0) + (if comp then 2 else 0)
            let bad := fr.any (fun x => x.bad)
            let s4 := if bad then s3.stewardErr r else s3
            let s5 := (items.filter (fun it => it.write.isNone)).foldl (fun t it => t.dropArrived bk it.src) s4
            match mem with
            | [] => (s5.sendAnswers ((s5.opAnswer r e bad rd).map (fun x => { x with after := x.after + extra })) gr.g).doneOwn bk gr
            | m :: _ =>
              match (match m.1.src with
                  | .fill _ i => some i
                  | _ => s5.hteFor bk gr) with
              | none => s.wait r bk base .hte gr
              | some lead => s5.opToMemory r bk lead (s5.opAnswer r e bad 0) (gr.g + extra) mem

/-- A frame operation is performed at a grant. -/
def Slice.serveOp (s : Slice) (r : Req) (gr : Gr) : Slice := if r.a.pin then s.serveOpPin r gr else s.serveOpPhys r gr

end Sys2Proof.Machine
end

