-- ==== Sys2Proof/Machine/Pinned.lean ====
section
/-! DEFINITION. The pinned buffer's own operations (spec 04_pinned_buffer.md R100 to R115): reads and writes of one frame, bank conflicts,
multi-frame operations and fan-out reads. -/

namespace Sys2Proof.Machine

/-! ### Bank conflicts (R107, R108) -/

/-- The cause of a conflict of a scheduled access: 1 SLOT, 2 SAME_FRAME, 0 PORT (R108). (DEDUCED, log 25) -/
def conflictCause (slotBusy demoted : Bool) : Nat := if slotBusy then 1 else if demoted then 2 else 0

/-- One conflict is counted, logged and captured (R108). -/
def Slice.noteConflict (s : Slice) (r : Req) (bk cause : Nat) : Slice :=
  let s := (s.bump CZ_CONFLICT_CNT CZ_CONFLICT_CNT_COUNT 1).pcEv 0x11 1 r.occ
  let s := s.logErr 0x07 (log1Addr r.a.addr.toNat r.a.src.toNat) r.lp
  if s.flag CZ_CONFLICT CZ_CONFLICT_VALID then s
  else s.latch CZ_CONFLICT (setF (setF (setF (setF (setF (setF (0 : Word) CZ_CONFLICT_VALID 1) CZ_CONFLICT_CAUSE cause) CZ_CONFLICT_PID r.lp)
    CZ_CONFLICT_HALF (bk / 8)) CZ_CONFLICT_BANK (bk % 8)) CZ_CONFLICT_OFFSET r.a.addr.toNat)

/-! ### One frame (R101) -/

/-- A read of a pinned frame is a dead read: the frame is dead, or lies in an accumulation region and holds a DEAD element (R106, R156). -/
def Slice.pinDead (s : Slice) (p off : Nat) (f : FrameIn) : Bool :=
  f.dead || (match s.accPinFmt p off with
    | some x => anyDead x f.data
    | none => false)

/-- PIN_RD at its grant (R101, R106). An uncorrectable word comes before a dead frame: DATA_ERR is answered, and no dead read counted. (DEDUCED, log 67) -/
def Slice.servePinRd (s : Slice) (r : Req) (gr : Gr) : Slice :=
  let key := s.bufKey r.lp r.a.addr.toNat
  let f := s.frameIn key
  let s := (s.noteReads 0 key 0 (fun _ => true)).pcEv 0x0F 1 r.occ
  if f.bad then s.sendRsp r.port (gr.g + 15) r.a RS_DATA_ERR 0
  else (s.deadReadIf (s.pinDead r.lp r.a.addr.toNat f) r.lp r.occ).sendDat r.port (gr.g + 15) r.a DT_PIN_DATA 0 (f.data.setWidth 1152)

/-- PIN_WR at its grant (R101): the sectors of SMASK, DEAD cleared; with SMASK = 0 nothing is written. -/
def Slice.servePinWr (s : Slice) (r : Req) (gr : Gr) : Slice :=
  let x := bufSet r.a.addr.toNat
  let key := s.bufKey r.lp r.a.addr.toNat
  let s0 := s.pcEv 0x10 1 r.occ
  if r.a.smask = 0 then s0.sendRsp r.port (gr.g + 13) r.a RS_COMP 0
  else match s0.epochPrePin r.lp key x with
    | none => s.wait r (bankKey x) x .shelf gr
    | some (s1, extra) =>
      ((s1.putBytes key (bytesOfSectors r.a.smask) r.a.line).1.pinTags r.lp key false).sendRsp r.port (gr.g + 13 + extra) r.a RS_COMP 0

/-! ### Multi-frame operations (R102 to R105) -/

/-- The frame number within the range of step n of a bank (R102): frames of a bank lie 16 apart. -/
def stepFrame (off bk n : Nat) : Nat := (bk % 8 * 2 + bk / 8 + 16 - off / 128 % 16) % 16 + 16 * n

/-- An accepted multi-frame operation goes to the step generators at its grant stage (R102). -/
def Slice.startPinOp (s : Slice) (r : Req) : Slice :=
  let g := r.t + 3 + crossing r.op r.a
  { s with pinOps := s.pinOps ++ [⟨r, g, r.a.count, [], [], false, g⟩] }

/-- The operation's steps done in a bank. -/
def PinOp.doneIn (o : PinOp) (bk : Nat) : Nat := Tbl.at 0 o.done bk

/-- The operation has a step left in a bank. -/
def PinOp.hasStep (o : PinOp) (bk : Nat) : Bool := decide (stepFrame o.req.a.addr.toNat bk (o.doneIn bk) < o.req.a.count)

/-- The bytes of a PIN_FILL pattern over a frame (R98, R103). -/
def fillPattern (p : Payload) : Line :=
  (List.range 8).foldl (fun l i => l ||| ((p.extractLsb' 0 128).setWidth 1024 <<< (128 * i))) 0

/-- Step of operation `o` on frame n of its range, in a bank at a grant. None: the destination waits for a shelf frame. The Bool says that
a source was uncorrectable; the number is the fc of a capture. -/
def Slice.pinStepAt (s : Slice) (o : PinOp) (n : Nat) : Option (Slice × Bool × Nat) :=
  let p := o.req.lp
  let off := o.req.a.addr.toNat + 128 * n
  let x := bufSet off
  let key := s.bufKey p off
  let put := fun (t : Slice) (d : Line) (dead : Bool) => (t.putBytes key (BitVec.allOnes 128) d).1.pinTags p key dead
  if o.req.op = OP_PIN_COPY then
    let src := s.bufKey p (o.req.a.srcOff + 128 * n)
    let f := s.frameIn src
    let s0 := (s.noteReads 0 src 0 (fun _ => true)).deadReadIf (s.pinDead p (o.req.a.srcOff + 128 * n) f && !f.bad) p o.req.occ
    if f.bad then some (s0, true, 0)
    else (s0.epochPrePin p key x).map (fun c => (put c.1 f.data false, false, c.2))
  else (s.epochPrePin p key x).map (fun c =>
    (if o.req.op = OP_PIN_FILL then put c.1 (fillPattern o.req.a.pl) false else put c.1 0 true, false, c.2))

/-- Replace the first operation that has a step in a bank. -/
def setPinOp (bk : Nat) (f : PinOp → PinOp) : List PinOp → List PinOp
  | [] => []
  | o :: t => if o.hasStep bk then f o :: t else o :: setPinOp bk f t

/-- The fc from which a bank's step generator offers the steps of an operation (R102). -/
def PinOp.startIn (o : PinOp) (bk : Nat) : Nat := o.start + (if bk / 8 = reqHalf o.req.op o.req.a then 0 else 2)

/-- One step of the oldest multi-frame operation in a bank takes the bank's slot; the last step of an operation answers it 13 fc after its last slot (R102). A
step that has to wait for a shelf frame is a stall once (R258). -/
def Slice.pinStep (s : Slice) (bk : Nat) : Slice :=
  match s.pinOps.find? (fun o => o.hasStep bk) with
  | none => s
  | some o =>
    let slots := if o.req.op = OP_PIN_COPY then 2 else 1
    match s.pinStepAt o (stepFrame o.req.a.addr.toNat bk (o.doneIn bk)) with
    | none =>
      if o.stalled.contains bk then s
      else { s.shelfStall o.req.lp with pinOps := setPinOp bk (fun o => { o with stalled := bk :: o.stalled }) s.pinOps }
    | some (s1, bad, extra) =>
      let (g, s2) := s1.grant bk s1.slotFc slots 1 (some 4) o.req.lp { o.req.occ with half := some (bk / 8) }
      let o2 : PinOp := { o with left := o.left - 1, done := Tbl.put 0 o.done bk (o.doneIn bk + 1), err := o.err || bad,
                                 stalled := o.stalled.filter (fun b => b != bk), last := max o.last (g + slots - 1 + extra) }
      let s3 := { s2 with pinOps := (setPinOp bk (fun _ => o2) s2.pinOps).filter (fun o => o.left != 0) }
      if o2.left = 0 then s3.sendRsp o.req.port (o2.last + 13) o.req.a (if o2.err then RS_DATA_ERR else RS_COMP) 0 else s3

/-! ### Fan-out (R110 to R115) -/

/-- A fan-out entry's transaction. -/
def Slice.fanTx (s : Slice) (k : Nat) : FanTx := Tbl.at FanTx.none s.fan k

/-- The entry is busy. -/
def Slice.fanBusy (s : Slice) (k : Nat) : Bool := s.flag (CZ_FO_CFG k) CZ_FO_CFG_BUSY

/-- Delivery credits of a core (R112); the table holds the difference from FO_CREDIT_INIT, modulo 8. (DEDUCED, log 49) -/
def Slice.foCredits (s : Slice) (c : Nat) : Nat := (s.fld CZ_PIN_CTRL CZ_PIN_CTRL_FO_CREDIT_INIT + Tbl.at 0 s.foCred c) % 8

/-- The mark, among the registers written in the present fc, of the credits of a core (R117). -/
def foWroteKey (c : Nat) : Nat := 0x10000 + c

/-- Store the delivery credits of a core. (DEDUCED, log 49) -/
def Slice.setFoCredits (s : Slice) (c n : Nat) : Slice :=
  { s with foCred := Tbl.put 0 s.foCred c ((n + 8 - s.fld CZ_PIN_CTRL CZ_PIN_CTRL_FO_CREDIT_INIT) % 8) }

/-- The delivery credits of a core that are usable in an fc: those of the last FO_CREDITs may not be yet (R112). -/
def Slice.foUsable (s : Slice) (c d : Nat) : Nat :=
  s.foCredits c - ((s.foSoon.filter (fun e => e.2.1 = c && decide (d < e.1))).map (fun e => e.2.2)).sum

/-- The fc from which an entry delivers to a core by the first of its credits that are not usable in an fc yet (R114). -/
def Slice.foSoonAt (s : Slice) (c d : Nat) : Nat :=
  match s.foSoon.find? (fun e => e.2.1 = c && decide (d < e.1)) with
  | some e => e.1 + 8
  | none => 0

/-- Store an entry's transaction; BUSY and PENDING follow. -/
def Slice.setFan (s : Slice) (k : Nat) (t : FanTx) : Slice :=
  let s := { s with fan := Tbl.put FanTx.none s.fan k t }
  (s.setFld (CZ_FO_CFG k) CZ_FO_CFG_BUSY (b2n (t != FanTx.none))).setFld (CZ_FO_CFG k) CZ_FO_CFG_PENDING (min 1023 t.pend.length)

/-- The mark of a target whose credit has been taken. (DEDUCED, log 49) -/
abbrev foReserved : Nat := 1024

/-- An entry has no target left: the requester is answered at an fc, in which the entry frees (R113, R114). -/
def Slice.foComp (s : Slice) (k due : Nat) : Slice :=
  let t := s.fanTx k
  (s.setFan k { t with pend := [], serving := true, next := due }).sendRsp t.req.port due t.req.a RS_COMP 0

/-- Credits are taken for the unserved targets that have one usable in fc d; the first delivery leaves 8 fc after d (R113, R114). A fan-out with no mapped
target ends there. (DEDUCED, log 49) -/
def Slice.foReserve (s : Slice) (k d : Nat) : Slice :=
  let t := s.fanTx k
  let has := fun c => s.foUsable c d != 0
  let s1 := t.pend.foldl (fun u c => if has c then u.setFoCredits c (u.foCredits c - 1) else u) s
  let lag := t.pend.foldl (fun l c => if has c then l else Tbl.put 0 l c (s.foSoonAt c d)) t.lag
  if t.pend = [] then s.foComp k (d + 8)
  else s1.setFan k { t with pend := t.pend.map (fun c => if has c then c + foReserved else c), serving := true, next := d + 8, lag := lag }

/-- A fan-out whose targets all have credit in fc d, and its data, starts its deliveries (R113). -/
def Slice.foTry (s : Slice) (k d : Nat) : Slice :=
  let t := s.fanTx k
  let d := max d t.ready
  if t != FanTx.none && !t.serving && t.pend.all (fun c => s.foUsable c d != 0) then s.foReserve k d else s

/-- PIN_FANOUT at its grant (R113). -/
def Slice.serveFanout (s : Slice) (r : Req) (gr : Gr) : Slice :=
  let k := getF r.a.ext0 ⟨0, 4⟩
  let x := bufSet r.a.addr.toNat
  let key := s.bufKey r.lp r.a.addr.toNat
  if s.fanBusy k then s.wait r (bankKey x) x (.fanout k) gr
  else
    let f := s.frameIn key
    let s := s.noteReads 0 key 0 (fun _ => true)
    if f.bad then s.sendRsp r.port (gr.g + 15) r.a RS_DATA_ERR 0
    else
      let all := s.foTargets k
      let s := (s.deadReadIf (s.pinDead r.lp r.a.addr.toNat f) r.lp r.occ).bump CZ_FO_VIOL CZ_FO_VIOL_COUNT (all.filter (fun c => !(s.mapped c))).length
      (s.setFan k ⟨r, f.data, all.filter s.mapped, gr.g + 7, false, 0, []⟩).foTry k (gr.g + 7)

/-- The window of an entry expires 256 fc after its data is in the buffer: the targets that have credit are served first (R113). -/
def Slice.foExpire (s : Slice) (k : Nat) : Slice :=
  let t := s.fanTx k
  if t = FanTx.none || t.serving || decide (s.fc < t.ready + 256) then s else s.foReserve k s.fc

/-- The next delivery of an entry, with the fc of its first beat and whether its credit is taken already: to the lowest-numbered reserved target, else to the
lowest-numbered of the unserved targets that can be delivered to first (R113, R114). -/
def Slice.foPick (s : Slice) (k : Nat) : Option (Nat × Nat × Bool) :=
  let t := s.fanTx k
  let from' := max t.next s.fc
  if !t.serving then none
  else match t.pend.find? (fun c => decide (foReserved ≤ c)) with
    | some c => some (c, from', true)
    | none => (t.pend.filter (fun c => s.foCredits c != 0)).foldl (fun b c =>
        let due := max from' (Tbl.at 0 t.lag c)
        match b with
        | none => some (c, due, false)
        | some m => if due < m.2.1 then some (c, due, false) else b) none

/-- A delivery of a lower-numbered entry on the same port is ready no later: it goes first (R114). -/
def Slice.foAfter (s : Slice) (k due : Nat) : Bool :=
  (List.range k).any (fun j => (s.fanTx j).req.port = (s.fanTx k).req.port && (match s.foPick j with
    | some x => decide (x.2.1 ≤ due)
    | none => false))

/-- One FO_DATA of an entry, one per fc and port; the last one is followed by COMP (R113, R114). -/
def Slice.foDeliver (s : Slice) (k : Nat) : Slice :=
  let t := s.fanTx k
  match s.foPick k with
  | none => s
  | some (c, due0, res) =>
    if s.foAfter k due0 then s
    else
      let core := c % foReserved
      let s := if res then s else s.setFoCredits core (s.foCredits core - 1)
      let due := max due0 (Tbl.at 0 s.foPort t.req.port.val)
      let m : Msg := ⟨.dat, DT_FO_DATA, 0, BitVec.ofNat 11 ((s.nodeOf core).getD 0), BitVec.ofNat 4 (s.fld (CZ_FO_CFG k) CZ_FO_CFG_PID), t.req.a.txn,
        false, 0, (t.req.a.ext1.extractLsb' 0 12).setWidth 15, 0, 0, t.data.setWidth 1152⟩
      let s := ({ s with foPort := Tbl.put 0 s.foPort t.req.port.val (due + 1) }.emit t.req.port due (s.classOf t.req.a.src.toNat) true m).pcEv 0x12 1
        { t.req.occ with pid := some (s.fld (CZ_FO_CFG k) CZ_FO_CFG_PID) }
      let rest := t.pend.filter (fun x => x != c)
      if rest = [] then s.foComp k (due + 1) else s.setFan k { t with pend := rest, next := due + 1 }

/-- The entries whose COMP leaves by now are free (R114). -/
def Slice.foFree (s : Slice) : Slice :=
  (List.range 16).foldl (fun s k =>
    let t := s.fanTx k
    if t.serving && t.pend = [] && decide (t.next ≤ s.fc) then s.setFan k FanTx.none else s) s

/-- A core has gained credits, usable from an fc: an entry that lacked one delivers to it 8 fc later, and one that waits for all its targets may start (R113,
R114). -/
def Slice.foGain (s : Slice) (c was d : Nat) : Slice :=
  (List.range 16).foldl (fun s k =>
    let t := s.fanTx k
    if t.serving then (if was = 0 && t.pend.contains c then s.setFan k { t with lag := Tbl.put 0 t.lag c (d + 8) } else s)
    else s.foTry k d) s

/-- FO_CREDIT (R112): the credits, usable 2 fc later; a counter that would pass 7 stays at 7, and a source of no core is discarded. A write of the counter in
the same fc wins (R117). FO_CREDIT has no PID: zero is logged (R98). -/
def Slice.foCredit (s : Slice) (a : Arr) : Slice :=
  let viol := fun (t : Slice) => (t.bump CZ_FO_VIOL CZ_FO_VIOL_COUNT 1).logErr 0x0E (log1Addr 0 a.src.toNat) 0
  match s.coreOf a.src.toNat with
  | none => viol s
  | some c =>
    let was := s.foCredits c
    let n := was + getF a.ext0 ⟨0, 3⟩
    let s := if 7 < n then viol s else s
    if s.wroteNow (foWroteKey c) then s
    else
      let soon := s.foSoon.filter (fun e => decide (s.fc < e.1)) ++ (if min 7 n = was then [] else [(s.fc + 2, c, min 7 n - was)])
      ({ s.setFoCredits c (min 7 n) with foSoon := soon }).foGain c was (s.fc + 2)

/-- A write of the credits of a core (R117). -/
def Slice.foWrite (s : Slice) (c n : Nat) : Slice :=
  let was := s.foCredits c
  let s := { s.setFoCredits c n with foSoon := s.foSoon.filter (fun e => e.2.1 != c) }
  (s.foGain c was s.fc).noteWrote (foWroteKey c)

/-- A busy entry is ended: undelivered targets are dropped, and the requester is answered (R115, R60). (DEDUCED, log 49) -/
def Slice.foEnd (s : Slice) (k : Nat) (op : BitVec 6) : Slice :=
  let t := s.fanTx k
  if t = FanTx.none || (t.serving && t.pend = []) then s
  else ((s.setFan k FanTx.none).setFld (CZ_FO_CFG k) CZ_FO_CFG_DROPPED (min 0x3FF t.pend.length)).sendRsp t.req.port s.fc t.req.a op 0

/-- FO_CREDIT_INIT is loaded: every counter takes its value (R112), and fan-outs that wait for credit may start (R113). -/
def Slice.foLoad (s : Slice) (v : Nat) : Slice :=
  let s := { s.setFld CZ_PIN_CTRL CZ_PIN_CTRL_FO_CREDIT_INIT v with foCred := [], foSoon := [] }
  (List.range 16).foldl (fun t k => t.foTry k t.fc) s

end Sys2Proof.Machine
end

