-- ==== Sys2Proof/Machine/Walks.lean ====
section
/-! DEFINITION. The walks of the internal requesters: the activation and shelf passes (spec 02_partitions.md R47, 10_epochs_snapshots.md R260),
the recall and zero phases of a release (R60), maintenance and flush walks (03_cache.md R93, 13_ember_ageing.md R313), the close recall (R256), the
quarantine and retirement of frames (14_error_protection.md R332, R335), and the walk of TIME_BASE (09_determinism.md R228). A walk keeps the place that it has
reached in each bank; at a grant of the bank's slot it visits a frame or a row. -/

namespace Sys2Proof.Machine

/-! ### Frames, rows and entries -/

/-- A walk starts. -/
def Slice.startWalk (s : Slice) (k : WalkKind) : Slice := { s with walks := s.walks ++ [⟨s.fresh, k, [], 0⟩], fresh := s.fresh + 1 }

/-- The lines that a cache frame holds. -/
def Slice.frameLines (s : Slice) (key : Nat) : List Nat :=
  match s.keySet key with
  | some x => (heldIdx (s.frame key).w0).map (fun k => blockFrom x (getF (s.frame key).w0 T0_TAG) * 4 + k)
  | none => []

/-- The lines that a victim entry holds. -/
def Slice.victimLines (s : Slice) (e : Nat) : List Nat :=
  (heldIdx (s.vict e).frame.w0).map (fun k => blockFrom (s.vict e).setIdx (getF (s.vict e).frame.w0 T0_TAG) * 4 + k)

/-- The bank key of a frame. -/
def keyBank (key : Nat) : Nat := keyHalf key * 8 + keyPBank key % 8

/-- The bank that serves a frame's sets. -/
def Slice.frameBank (s : Slice) (key : Nat) : Nat :=
  match s.keySet key with
  | some x => bankKey x
  | none => keyBank key

/-- The set of a row of a bank (R18). -/
def rowSet (bk row : Nat) : Nat := row * 16 + bk % 8 * 2 + bk / 8

/-- The bits of line indices in a block. -/
def coverOf (ls : List Nat) : BitVec 4 := ls.foldl (fun m n => m ||| (1#4 <<< (n % 4))) 0

/-- A transaction of partition p is in flight: in an input, a hold queue, an HTE, a fill-buffer entry, a step generator or a fan-out (R60). -/
def Slice.inFlight (s : Slice) (p : Nat) : Bool :=
  s.inputs.any (fun r => r.lp = p) || s.fills.any (fun f => f.2.pid = p) || s.pinOps.any (fun o => o.req.lp = p)
    || s.fan.any (fun t => t.2.req.lp = p) || s.banks.any (fun b => b.2.holdq.any (fun h => h.req.lp = p) || b.2.htes.any (fun e => e.2.pid = p))

/-- The pseudo-opcodes of walk and quarantine work that waits in the hold queue (R47, R125, R256, R332). -/
abbrev OP_WALK_FRAME : BitVec 6 := 0x34
abbrev OP_WALK_CLOSE : BitVec 6 := 0x35
abbrev OP_QUARANTINE : BitVec 6 := 0x36

/-- Work of a walk on a whole frame, as a request at its first line; EXT1 names the way. (DESIGN CHOICE, log 21) -/
def Slice.frameReq (s : Slice) (op : BitVec 6) (wid key : Nat) : Req :=
  let r := ownReq op wid (getF (s.frame key).w0 T0_PID) ((s.frameLines key).headD 0) s.fc
  { r with a := { r.a with ext1 := BitVec.ofNat 16 (keyWay key) } }

/-- The frame that such a request names. -/
def Slice.reqFrame (s : Slice) (r : Req) : Nat := s.fkey (lineSet (lineNo r.a.addr.toNat)) r.a.ext1.toNat

/-- A walk frame is recalled: BINV of each of its lines to each recorded sharer under one HTE (R47, R60, R332). None: it waits for an HTE. -/
def Slice.recallFrame (s : Slice) (kind : HteKind) (key : Nat) (cs : List Nat) (g : Nat) : Option Slice :=
  let bk := s.frameBank key
  let ls := s.frameLines key
  let pid := getF (s.frame key).w0 T0_PID
  match s.freeHte bk with
  | none => none
  | some i =>
    let l := cs.flatMap (fun c => ls.map (fun n => (c, n)))
    some ((s.setHte bk i { Hte.none with st := .wRecall, kind := kind, pid := pid, line := ls.headD 0, cover := coverOf ls, pend := l.length,
                                         frame := key }).sendInvs (evenPort (bk / 8)) (g + 11) FW_BINV (bk * 16 + i) pid false l)

/-- The dirty sectors of a raw frame. -/
def Slice.frameDirty (s : Slice) (key : Nat) : BitVec 4 := s.dirty (.frame key)

/-- A frame's dirty line is written back under an HTE in W_MEMACK, the one given or a free one (R93). None: it waits for an HTE. -/
def Slice.frameWb (s : Slice) (kind : HteKind) (key : Nat) (own : Option Nat) (g : Nat) : Option Slice :=
  let bk := s.frameBank key
  let line := (s.frameLines key).headD 0
  let pid := getF (s.frame key).w0 T0_PID
  match (match own with
      | some i => some i
      | none => s.freeHte bk) with
  | none => none
  | some i =>
    some ((s.setHte bk i { Hte.none with st := .wMemAck, kind := kind, pid := pid, line := line, cover := coverOf [line], frame := key }).memWr
      (evenPort (bk / 8)) (g + 11) 31 pid line (s.frameDirty key) (s.frameData key) (.wbHte bk i))

/-- An HTE of a walk frees. -/
def Slice.dropHte (s : Slice) (bk : Nat) (own : Option Nat) : Slice :=
  match own with
  | some i => (s.setHte bk i Hte.none).holdTill bk (fun h => h.wait = .hte || h.line / 4 = (s.hte bk i).line / 4) (s.offerFc bk)
  | none => s

/-- Work on a frame that has found what it needs goes on; without a free HTE it waits in the hold queue (R125). -/
def Slice.orWait (s : Slice) (r : Req) (gr : Gr) (o : Option Slice) : Slice :=
  o.getD (s.wait r (bankKey (lineSet (lineNo r.a.addr.toNat))) (lineNo r.a.addr.toNat) .hte gr)

/-- Work on a frame waits for a transient line of it, or is done (R47, R125). -/
def Slice.onFrame (s : Slice) (r : Req) (key : Nat) (gr : Gr) (o : Option Slice) : Slice :=
  match (s.frameLines key).find? s.transient with
  | some n => s.wait r (s.frameBank key) n .line gr
  | none => s.orWait r gr o

/-! ### The pass over newly pinned or newly reserved ways (R47, R260) -/

/-- A recalled frame of the pass is written back if dirty, and zeroed. None: it waits. -/
def Slice.passEnd (s : Slice) (wid key : Nat) (own : Option Nat) (g : Nat) : Option Slice :=
  let bk := s.frameBank key
  if s.frameDirty key = 0 || s.anyBad 0 key (fun _ => true) then some ((s.zeroFrame key).dropHte bk own)
  else (s.frameWb (.walkFrame wid) key own g).map (fun t => t.zeroFrame key)

/-- One frame of the pass (R47). -/
def Slice.passFrame (s : Slice) (r : Req) (wid key : Nat) (gr : Gr) : Slice :=
  if getF (s.frame key).w0 T0_VALID != 1 then s.zeroFrame key
  else s.onFrame r key gr (match s.copies (s.frame key).w1 with
    | [] => s.passEnd wid key none gr.g
    | cs => s.recallFrame (.walkFrame wid) key cs gr.g)

/-! ### The recall and zero phases of a release (R60) -/

/-- A recalled frame of a released partition: its directory is cleared, and under FLUSH its dirty sectors are written back. -/
def Slice.sweepEnd (s : Slice) (wid key : Nat) (flush : Bool) (own : Option Nat) (g : Nat) : Option Slice :=
  let bk := s.frameBank key
  let clr := fun (t : Slice) => t.putTags key (setF (t.frame key).w0 T0_SD 0) (clearDir (t.frame key).w1)
  if !flush || s.frameDirty key = 0 || s.anyBad 0 key (fun _ => true) then some ((clr s).dropHte bk own)
  else (s.frameWb (.walkFrame wid) key own g).map clr

/-- One frame of the recall phase (R60); lines back-invalidated are counted. -/
def Slice.sweepFrame (s : Slice) (r : Req) (wid p key : Nat) (flush : Bool) (gr : Gr) : Slice :=
  let f := s.frame key
  if getF f.w0 T0_VALID != 1 || getF f.w0 T0_PID != p then s
  else s.onFrame r key gr (match s.copies f.w1 with
    | [] => s.sweepEnd wid key flush none gr.g
    | cs => (s.recallFrame (.walkFrame wid) key cs gr.g).map (fun t => t.bump (PT_SWEEP_REC p) PT_SWEEP_REC_RECALLED (s.frameLines key).length))

/-- A victim entry of the recall phase has work to do: it has copies, or is dirty under FLUSH (R60, R80). -/
def Slice.sweepVictNeeds (s : Slice) (p e : Nat) (flush : Bool) : Bool :=
  let v := s.vict e
  s.victUsed e && getF v.frame.w0 T0_PID = p && v.depart.isNone
    && (s.copies v.frame.w1 != [] || (flush && s.dirty (.victim e) != 0 && !v.lost))

/-- One victim entry of the recall phase departs (R60, R80). -/
def Slice.sweepVictim (s : Slice) (p e : Nat) (flush : Bool) (g : Nat) : Slice :=
  let v := s.vict e
  let s := if s.copies v.frame.w1 = [] then s else s.bump (PT_SWEEP_REC p) PT_SWEEP_REC_RECALLED (s.victimLines e).length
  (s.bump (PT_SWEEP_REC p) PT_SWEEP_REC_FRAMES 1).startDepart e (evenPort (halfOfSet v.setIdx)) (g + 11) g (!flush) false []

/-- The ways of a set that the zero phase of p writes (R60). (DEDUCED, log 30) -/
def Slice.zeroWays (s : Slice) (p x : Nat) : List Nat :=
  (List.range 16).filter (fun w => (s.pinMask p).getLsbD w
    || (!(s.outsideCache w) && getF (s.frame (s.fkey x w)).w0 T0_VALID = 1 && getF (s.frame (s.fkey x w)).w0 T0_PID = p))

/-- The zero phase writes a row (R60). -/
def Slice.zeroRow (s : Slice) (p x : Nat) : Slice :=
  (s.zeroWays p x).foldl (fun t w => (t.zeroFrame (t.fkey x w)).bump (PT_SWEEP_REC p) PT_SWEEP_REC_FRAMES 1) s

/-! ### Maintenance and flush walks (R93, R313) -/

/-- The opcode that OP of a maintenance walk names (R93). -/
def maintOp (op : Nat) : BitVec 6 := if op = 1 then OP_CLEAN_LINE else if op = 2 then OP_FLUSH_LINE else OP_INVAL_LINE

/-- A tag entry matches the scope of a maintenance walk (R93). -/
def scopeHolds (scope pid lo hi : Nat) (w0 : Word) : Bool :=
  let p := getF w0 T0_PID = pid
  let r := decide (lo ≤ getF w0 T0_TAG) && decide (getF w0 T0_TAG ≤ hi)
  match scope with
  | 0 => true
  | 1 => p
  | 2 => r
  | _ => p && r

/-- The operation of a walk on a tag entry: none if the entry lies outside the scope. -/
def WalkKind.opOn (k : WalkKind) (w0 : Word) : Option (BitVec 6) :=
  match k with
  | .maint op scope pid lo hi => if scopeHolds scope pid lo hi w0 then some (maintOp op) else none
  | .flush _ => some OP_FLUSH_LINE
  | _ => none

/-- The lines of a frame or victim entry, as CLEAN_LINE, FLUSH_LINE or INVAL_LINE would act on them by R136 (R93). -/
def Slice.maintLines (s : Slice) (op : BitVec 6) (wid pid g : Nat) (ls : List Nat) : Slice :=
  ls.foldl (fun t n => t.serveHome (ownReq op wid pid n t.fc) (Gr.new g)) s

/-- One frame of a maintenance or flush walk: its scope is tested at the visit, and a lost line is left unless it is to be discarded (R93, R334). -/
def Slice.maintFrame (s : Slice) (w : Walk) (key g : Nat) : Slice :=
  let f := s.frame key
  match w.kind.opOn f.w0 with
  | none => s
  | some op =>
    if getF f.w0 T0_VALID != 1 || s.outsideCache (keyWay key) || (s.frameLost key && op != OP_INVAL_LINE) then s
    else s.maintLines op w.id (getF f.w0 T0_PID) g (s.frameLines key)

/-- A victim entry has work for a maintenance or flush walk. -/
def Slice.maintVictNeeds (s : Slice) (w : Walk) (e : Nat) : Bool :=
  let v := s.vict e
  s.victUsed e && v.depart.isNone && (match w.kind.opOn v.frame.w0 with
    | some op => !v.lost || op = OP_INVAL_LINE
    | none => false)

/-- One victim entry of a maintenance or flush walk. -/
def Slice.maintVictim (s : Slice) (w : Walk) (e g : Nat) : Slice :=
  let v := s.vict e
  match w.kind.opOn v.frame.w0 with
  | none => s
  | some op =>
    let ls := s.victimLines e
    s.maintLines op w.id (getF v.frame.w0 T0_PID) g (if op = OP_CLEAN_LINE then ls else ls.take 1)

/-! ### The close recall (R256) -/

/-- A line of p in X has been recalled: it is left in U and FROZEN, and its bit is set in the closed bank. -/
def Slice.closeLineEnd (s : Slice) (p line : Nat) : Slice :=
  let l := s.locate p line
  let s := s.setLocW1 l (setF (clearDir (s.locW1 l)) T1_EPST (s.epstFrozen p))
  s.setLedger (1 - s.openBank p) (ledgerIdx (line * 128))

/-- The close recall meets a line of p in X: it is recalled from its owner under an HTE in W_RECALL, or waits in the hold queue (R125, R256). -/
def Slice.serveClose (s : Slice) (r : Req) (gr : Gr) : Slice :=
  let line := lineNo r.a.addr.toNat
  let bk := bankKey (lineSet line)
  let go := fun (l : Loc) =>
    let owner := getF (s.locW1 l) T1_FWDPTR
    if getF (s.locW1 l) T1_HSTATE != 3 then s
    else if !(s.mapped owner) then s.closeLineEnd r.lp line
    else match s.freeHte bk with
      | none => s.wait r bk line .hte gr
      | some i =>
        (s.setHte bk i { Hte.none with st := .wRecall, kind := .walkLine r.a.txn.toNat, pid := r.lp, line := line, cover := coverOf [line], pend := 1,
                                       peer := owner }).sendInvs (evenPort (bk / 8)) (gr.g + 11) FW_BINV (bk * 16 + i) r.lp false [(owner, line)]
  match s.tag r.lp line none with
  | .held w => s.wait r bk line w gr
  | .lost l => go l
  | .found l => go l

/-- A tag entry of p in X or transient, at which the close recall has work. -/
def closeNeeds (p : Nat) (f : Frame) : Bool := getF f.w0 T0_VALID = 1 && getF f.w0 T0_PID = p && getF f.w1 T1_HSTATE = 3

/-- The close recall's work on some lines of p. -/
def Slice.closeLines (s : Slice) (wid p g : Nat) (ls : List Nat) : Slice :=
  ls.foldl (fun t n => t.serveClose (ownReq OP_WALK_CLOSE wid p n t.fc) (Gr.new g)) s

/-- One frame of the close recall: a line in X, or one that is transient and may settle in X (R256). -/
def Slice.closeFrame (s : Slice) (wid p key g : Nat) : Slice :=
  let f := s.frame key
  if s.outsideCache (keyWay key) || getF f.w0 T0_VALID != 1 || getF f.w0 T0_PID != p then s
  else if getF f.w1 T1_HSTATE = 3 then s.closeLines wid p g (s.frameLines key)
  else s.closeLines wid p g ((s.frameLines key).filter s.transient)

/-- A line of p is in X from before the close (R256). -/
def Slice.closeLeft (s : Slice) (p : Nat) : Bool :=
  s.frames.any (fun e => !(s.outsideCache (keyWay e.1)) && closeNeeds p e.2 && getF e.2.w1 T1_EPST = s.epstFrozen p)
    || s.victims.any (fun v => closeNeeds p v.2.frame && getF v.2.frame.w1 T1_EPST = s.epstFrozen p)

/-! ### Retirement and quarantine (R332, R335) -/

/-- The frame of a retirement is invalid, or can be evicted now (R79, R335). -/
def Slice.retireReady (s : Slice) (key : Nat) : Bool :=
  getF (s.frame key).w0 T0_VALID != 1 || (!((s.frameLines key).any s.transient) && (s.keySet key = none || s.freeVict.isSome))

/-- A frame that host software has entered in the retire table is evicted as R79 does; BUSY clears when the frame is invalid. -/
def Slice.retireItem (s : Slice) (key : Nat) : Slice :=
  let done := fun (t : Slice) => match t.rtFind key with
    | some i => t.clearF (EC_RT i) EC_RT_BUSY
    | none => t
  if getF (s.frame key).w0 T0_VALID != 1 then done s
  else match s.keySet key, s.freeVict with
    | some x, some e => done (s.evictTo x key e)
    | none, _ => done (s.zeroFrame key)
    | _, none => s

/-- A recalled frame of the quarantine work: sound lines are written back if dirty and invalidated, a clean line with an uncorrectable word is
invalidated, and a dirty one becomes a lost line and stays (R332). None: it waits for an HTE. -/
def Slice.quarantineEnd (s : Slice) (key : Nat) (own : Option Nat) (g : Nat) : Option Slice :=
  let bk := s.frameBank key
  if s.frameDirty key = 0 then some ((s.zeroFrame key).dropHte bk own)
  else if s.anyBad 0 key (fun _ => true) then
    let s := s.putTags key (s.frame key).w0 (clearDir (s.frame key).w1)
    some ((match s.rtFind key with
      | some i => s.raise (EC_RT i) EC_RT_LOST
      | none => s).dropHte bk own)
  else (s.frameWb .quarantine key own g).map (fun t => t.zeroFrame key)

/-- Word 1 of the frame is uncorrectable, so its sharers are unknown (R332). -/
def Slice.dirLost (s : Slice) (key : Nat) : Bool := s.readCw 2 key 0 = .bad

/-- A pre-image may be lost with a directory word: both ledger bits and DRAIN_ERR of the line's PID (R332). -/
def Slice.dirLostEpoch (s : Slice) (key : Nat) : Slice :=
  let p := getF (s.frame key).w0 T0_PID
  if s.dirLost key && s.epochs p then
    let i := ledgerIdx ((s.frameLines key).headD 0 * 128)
    (((s.setLedger 0 i).setLedger 1 i).raise (EP_PSTATUS p) EP_PSTATUS_DRAIN_ERR).raiseMgmtIf (s.flag (EP_PCTRL p) EP_PCTRL_FAULT_IRQ_EN)
  else s

/-- The quarantine work on a frame at a grant, or its wait in the hold queue (R125, R332). -/
def Slice.serveQuarantine (s : Slice) (r : Req) (key : Nat) (gr : Gr) : Slice :=
  if getF (s.frame key).w0 T0_VALID != 1 || (s.rtFind key).isNone then s
  else
    let s1 := s.dirLostEpoch key
    let cs := if s.dirLost key then (List.range 768).filter s.mapped else s.copies (s.frame key).w1
    s.onFrame r key gr (match cs with
      | [] => s1.quarantineEnd key none gr.g
      | _ => s1.recallFrame .quarantine key cs gr.g)

/-! ### Places and visits -/

/-- The place that a walk has reached in a bank. -/
def Walk.at (w : Walk) (bk : Nat) : Nat := Tbl.at 0 w.pos bk

/-- The banks that a walk visits. -/
def Walk.banks (w : Walk) : List Nat :=
  match w.kind with
  | .flush h => (List.range 8).map (· + 8 * b2n h)
  | .retire _ => []
  | _ => List.range 16

/-- The ways that a walk visits frame by frame. -/
def WalkKind.ways : WalkKind → BitVec 16
  | .activate _ m => m
  | .shelf m => m
  | _ => BitVec.allOnes 16

/-- The next place of a pass over some ways, from a place on; 4,096 is the end of a bank. -/
def nextPlace (m : BitVec 16) (from' : Nat) : Nat :=
  match (List.range 32).find? (fun k => m.getLsbD ((from' + k) % 16)) with
  | some k => min 4096 (from' + k)
  | none => 4096

/-- A walk has visited every row of its banks. -/
def Walk.rowsOver (w : Walk) : Bool := w.banks.all (fun bk => decide (4096 ≤ nextPlace w.kind.ways (w.at bk)))

/-- A walk has work at a victim entry. -/
def Slice.victNeeds (s : Slice) (w : Walk) (e : Nat) : Bool :=
  match w.kind with
  | .sweep p f => s.sweepVictNeeds p.toNat e f
  | .maint _ _ _ _ _ => s.maintVictNeeds w e
  | .flush h => decide (halfOfSet (s.vict e).setIdx = b2n h) && s.maintVictNeeds w e
  | .close p => s.victUsed e && (closeNeeds p.toNat (s.vict e).frame)
  | _ => false

/-- A walk can visit a victim entry now: the recall of a release needs a departure (R80). -/
def Slice.victReady (s : Slice) (w : Walk) (e : Nat) : Bool :=
  match w.kind with
  | .sweep _ _ => !(s.vict e).recalling && !((s.victimLines e).any s.transient) && decide (s.departing < 4)
  | _ => true

/-- The first victim entry, from the place reached, at which a walk has work; 32 when there is none. -/
def Slice.nextVict (s : Slice) (w : Walk) : Nat :=
  ((List.range 32).find? (fun e => decide (w.vict ≤ e) && s.victNeeds w e)).getD 32

/-- The lines that a visit of a walk may leave in the hold queue (R126). -/
def WalkKind.holds : WalkKind → Nat
  | .maint _ _ _ _ _ => 4
  | .flush _ => 4
  | .close _ => 4
  | .activate _ _ => 1
  | .shelf _ => 1
  | .sweep _ _ => 1
  | _ => 0

/-- A walk has a candidate in a bank that the hold queue allows (R27, R126). -/
def Slice.walkOffers (s : Slice) (w : Walk) (bk : Nat) : Bool :=
  s.room bk w.kind.holds && (match w.kind with
    | .retire key => s.frameBank key = bk && w.at bk = 0 && s.retireReady key
    | _ => w.banks.contains bk && (decide (nextPlace w.kind.ways (w.at bk) < 4096)
        || (w.rowsOver && decide (s.nextVict w < 32) && bankKey (s.vict (s.nextVict w)).setIdx = bk && s.victReady w (s.nextVict w))))

/-- The rank of a walk's candidates on the internal input (R27, R228): 0 before all others, 3 the drain engine, 4 the sweep, 6 the steward. -/
def WalkKind.rank : WalkKind → Nat
  | .timeBase => 0
  | .close _ => 3
  | .maint _ _ _ _ _ => 6
  | .flush _ => 6
  | _ => 4

/-- A walk's record is changed. -/
def Slice.modWalk (s : Slice) (id : Nat) (f : Walk → Walk) : Slice := { s with walks := mapIf s.walks (fun x => x.id = id) f }

/-- The walk of a request of its own. -/
def Slice.walkOfReq (s : Slice) (r : Req) : Option Walk := s.walks.find? (fun w => w.id % 1024 = r.a.txn.toNat)

/-- A whole-frame request of a walk is served (R47, R60). -/
def Slice.serveWalk (s : Slice) (r : Req) (gr : Gr) : Slice :=
  let key := s.reqFrame r
  match s.walkOfReq r with
  | none => s
  | some w => match w.kind with
    | .activate _ _ => s.passFrame r w.id key gr
    | .shelf _ => s.passFrame r w.id key gr
    | .sweep p f => s.sweepFrame r w.id p.toNat key f gr
    | _ => s

/-- What a row walk does at one frame. -/
def Slice.walkFrame (s : Slice) (w : Walk) (key g : Nat) : Slice :=
  match w.kind with
  | .sweep p f => s.sweepFrame (s.frameReq OP_WALK_FRAME w.id key) w.id p.toNat key f (Gr.new g)
  | .close p => s.closeFrame w.id p.toNat key g
  | _ => s.maintFrame w key g

/-- A row walk visits the frames of a row, as long as the hold queue has places: the slice, and the place reached. (DESIGN CHOICE, log 21) -/
def Slice.walkRow (s : Slice) (w : Walk) (bk g : Nat) : Slice × Nat :=
  let p := w.at bk
  let r := (List.range 16).foldl (fun (t : Slice × Option Nat) way =>
    if way < p % 16 || t.2.isSome then t
    else if !(t.1.room bk w.kind.holds) then (t.1, some way)
    else (t.1.walkFrame w (t.1.fkey (rowSet bk (p / 16)) way) g, none)) (s, none)
  (r.1, match r.2 with
    | some way => p / 16 * 16 + way
    | none => (p / 16 + 1) * 16)

/-- A walk visits a victim entry at a grant. -/
def Slice.walkVictim (s : Slice) (w : Walk) (e g : Nat) : Slice :=
  match w.kind with
  | .sweep p f => s.sweepVictim p.toNat e f g
  | .close p => s.closeLines w.id p.toNat g (s.victimLines e)
  | _ => s.maintVictim w e g

/-- The replacement bits of a set are zeroed (R228). -/
def Slice.zeroRepl (s : Slice) (x : Nat) : Slice :=
  let s' := { s with repl := Tbl.put 0 s.repl (s.replKey x) 0 }
  if s.sound then s' else s'.wrote 3 (s.replKey x) 0

/-- The bank slots of a walk's candidate (R35, R60). -/
def Slice.walkSlots (s : Slice) (w : Walk) (bk : Nat) : Nat :=
  match w.kind with
  | .zero p => max 1 (s.zeroWays p.toNat (rowSet bk (w.at bk / 16))).length
  | _ => 1

/-- A walk visits what it has reached in a bank, at a grant in fc g. (DESIGN CHOICE, log 21) -/
def Slice.walkVisit (s : Slice) (w : Walk) (bk g : Nat) : Slice :=
  let row := rowSet bk (w.at bk / 16)
  match w.kind with
  | .retire key => (s.retireItem key).modWalk w.id (fun w => { w with pos := Tbl.put 0 w.pos bk 1 })
  | .timeBase => (s.zeroRepl row).modWalk w.id (fun w => { w with pos := Tbl.put 0 w.pos bk (w.at bk + 16) })
  | .zero p => (s.zeroRow p.toNat row).modWalk w.id (fun w => { w with pos := Tbl.put 0 w.pos bk (w.at bk + 16) })
  | .activate _ m =>
    let n := nextPlace m (w.at bk)
    let key := s.fkey (rowSet bk (n / 16)) (n % 16)
    (s.passFrame (s.frameReq OP_WALK_FRAME w.id key) w.id key (Gr.new g)).modWalk w.id (fun w => { w with pos := Tbl.put 0 w.pos bk (n + 1) })
  | .shelf m =>
    let n := nextPlace m (w.at bk)
    let key := s.fkey (rowSet bk (n / 16)) (n % 16)
    (s.passFrame (s.frameReq OP_WALK_FRAME w.id key) w.id key (Gr.new g)).modWalk w.id (fun w => { w with pos := Tbl.put 0 w.pos bk (n + 1) })
  | _ =>
    if w.at bk < 4096 then
      let r := s.walkRow w bk g
      r.1.modWalk w.id (fun w => { w with pos := Tbl.put 0 w.pos bk r.2 })
    else
      let e := s.nextVict w
      (s.walkVictim w e g).modWalk w.id (fun w => { w with vict := e + 1 })

/-- A grant of the steward is one of MAINT, and one of the close recall a shelf stall (R229, R231, R259). -/
def Slice.walkEvent (s : Slice) (k : WalkKind) : Slice :=
  match k with
  | .maint _ _ _ _ _ => s.tevt TV_MAINT
  | .flush _ => s.tevt TV_MAINT
  | .close _ => s.tevt TV_SHELF
  | _ => s

/-- A walk's candidate is granted the slot of its bank (R27, R304). (DESIGN CHOICE, log 21) -/
def Slice.walkGrant (s : Slice) (w : Walk) (bk : Nat) : Slice :=
  let n := (s.bank bk).holdq.length
  let (g, s1) := s.grant bk s.slotFc (s.walkSlots w bk) 1 (some 4) 16 { Occ.none with half := some (bk / 8) }
  let s2 := (s1.walkVisit w bk g).walkEvent w.kind
  if w.kind.holds = 0 then s2 else s1.noteTags s2 bk g n 16

/-- The owner of a line that the close recall has taken back has answered; after an ABORT nothing is left to freeze (R256, R266). -/
def Slice.closeEnded (s : Slice) (e : Hte) : Slice :=
  let s := s.tevt TV_SHELF
  if s.fld (EP_PSTATUS e.pid) EP_PSTATUS_PHASE = 1 then s.closeLineEnd e.pid e.line
  else s.setLocW1 (s.locate e.pid e.line) (clearDir (s.locW1 (s.locate e.pid e.line)))

/-- A continuation of an HTE of a walk: its recall has ended, or its writeback has been acknowledged. -/
def Slice.walkCont (s : Slice) (bk i g : Nat) : Slice :=
  let e := s.hte bk i
  if e.st = .wMemAck then s.dropHte bk (some i)
  else match e.kind with
    | .walkFrame wid => (match (s.walks.find? (fun w => w.id = wid)).map Walk.kind with
        | some (.sweep _ f) => (s.sweepEnd wid e.frame f (some i) g).getD s
        | _ => (s.passEnd wid e.frame (some i) g).getD s)
    | .walkLine _ => (s.closeEnded e).dropHte bk (some i)
    | .quarantine => (s.quarantineEnd e.frame (some i) g).getD s
    | _ => s

/-- An HTE serves a walk. -/
def Hte.ofWalk (e : Hte) (wid : Nat) : Bool :=
  e.kind = .walkFrame wid || e.kind = .walkLine (wid % 1024) || (match e.req with
    | some r => r.steward && r.a.txn.toNat = wid % 1024 && !(isFrameOp r.op)
    | Option.none => false)

/-- A hold-queue entry serves a walk. -/
def HoldEntry.ofWalk (h : HoldEntry) (wid : Nat) : Bool :=
  h.req.steward && h.req.a.txn.toNat = wid % 1024 && !(isFrameOp h.req.op) && h.req.op != OP_QUARANTINE && h.req.op != OP_CAPTURE

/-- The walk waits for the departures of victim entries. -/
def Walk.departs (w : Walk) : Bool :=
  match w.kind with
  | .sweep _ _ => true
  | .maint _ _ _ _ _ => true
  | .flush _ => true
  | _ => false

/-- Nothing of a walk is outstanding: no HTE, no held request, no departure. -/
def Slice.walkIdle (s : Slice) (w : Walk) : Bool :=
  !(w.departs && s.departing != 0) && !(s.banks.any (fun b => b.2.htes.any (fun e => e.2.ofWalk w.id) || b.2.holdq.any (fun h => h.ofWalk w.id)))

/-- A walk has visited everything, and nothing of its is outstanding. -/
def Slice.walkOver (s : Slice) (w : Walk) : Bool :=
  (match w.kind with
    | .retire key => w.at (s.frameBank key) != 0
    | .close p => w.rowsOver && s.nextVict w = 32 && !(s.closeLeft p.toNat)
    | _ => w.rowsOver && s.nextVict w = 32) && s.walkIdle w

/-- A close recall that has visited everything goes round again while a line in X from before the close is left, which traffic has moved out of its way
(R256). (DEDUCED, log 29) -/
def Slice.walkAgain (s : Slice) (w : Walk) : Slice :=
  match w.kind with
  | .close p => if w.rowsOver && s.nextVict w = 32 && s.closeLeft p.toNat && s.walkIdle w then s.modWalk w.id (fun w => { w with pos := [], vict := 0 }) else s
  | _ => s

/-- The first walk of a kind. -/
def Slice.walkOf (s : Slice) (p : WalkKind → Bool) : Option Walk := s.walks.find? (fun w => p w.kind)

/-- A walk is removed. -/
def Slice.endWalk (s : Slice) (w : Walk) : Slice := { s with walks := s.walks.filter (fun x => x.id != w.id) }

/-- Retirements and the walk of TIME_BASE leave the list of walks when they are over. -/
def Slice.pruneWalks (s : Slice) : Slice :=
  { s with walks := s.walks.filter (fun w => !((match w.kind with
      | .retire _ => true
      | .timeBase => true
      | _ => false) && s.walkOver w)) }

end Sys2Proof.Machine
end

