-- ==== Sys2Proof/Machine/Perform.lean ====
section
/-! DEFINITION. Requests at the bank arbiters: which requests may be granted (spec 01_slice_anatomy.md R27 to R31, 05_coherence_home.md R125 to
R127, 11_bandwidth.md R281, 12_power_governor.md R294, 13_ember_ageing.md R314), what a grant performs, hold-queue replays and
continuations. -/

namespace Sys2Proof.Machine

/-! ### What a grant performs -/

/-- The further slot of an eviction made by a grant (R35). -/
def Slice.evictSlot (s t : Slice) (bk : Nat) : Slice :=
  if s.victims.length < t.victims.length then t.moreSlots bk 1 else t

/-- A request is performed at a grant in its bank, by its opcode. -/
def Slice.perform (s : Slice) (r : Req) (gr : Gr) : Slice :=
  if isFrameOp r.op then s.serveOp r gr
  else if r.op = OP_PIN_RD then s.servePinRd r gr
  else if r.op = OP_PIN_WR then s.servePinWr r gr
  else if r.op = OP_PIN_FANOUT then s.serveFanout r gr
  else if r.op = OP_PIN_DROP then s.serveWhole r (s.wholeData r (lineNo r.a.addr.toNat)) gr
  else if r.op = OP_SNP_WAIT then s.snpData r.a
  else if r.op = OP_PUSH_WAIT then s.pushAck r.a
  else if r.op = OP_WALK_FRAME then s.serveWalk r gr
  else if r.op = OP_WALK_CLOSE then s.serveClose r gr
  else if r.op = OP_QUARANTINE then s.serveQuarantine r (s.reqFrame r) gr
  else if r.op = OP_CAPTURE then s.serveCapture r gr
  else s.serveHome r gr

/-- The lines that a request looks up in the tags. -/
def Req.tagLines (r : Req) : List Nat :=
  if spaceOf r.op r.a = .phys then (List.range (spanFrames r.op r.a)).map (lineNo r.a.addr.toNat + ·) else []

/-- A request is performed at a grant in its bank: an uncorrectable tag word that its tag stage meets answers DATA_ERR (R332). (DESIGN CHOICE, log 9) -/
def Slice.serve (s : Slice) (r : Req) (gr : Gr) : Slice :=
  let bk := bankKey (reqSet r.op r.a)
  let s := r.tagLines.foldl (fun t n => t.tagRead r.lp n) s
  let t :=
    if gr.own = none && !r.steward && r.tagLines.any (fun n => s.tagBad r.lp n) then s.failRead r bk (gr.g + 17) gr
    else s.perform r gr
  s.evictSlot t bk

/-! ### Halves that sleep (R313, R314) -/

/-- The field of AG_PSTATE that shows a half's flush walk. -/
def flushField (h : Nat) : Fld := if h = 0 then AG_PSTATE_FLUSH_H0 else AG_PSTATE_FLUSH_H1

/-- A candidate for a half ends the half's flush walk (R313), and wakes the half if it is not awake (R314). -/
def Slice.touchHalf (s : Slice) (h : Nat) : Slice :=
  let s := if s.flag AG_PSTATE (flushField h) then
      { s.clearF AG_PSTATE (flushField h) with walks := s.walks.filter (fun w => w.kind != .flush (decide (h = 1))) }
    else s
  if s.awake h then s else s.wakeTrigger h

/-! ### Waits that are over (R79, R84, R125, R127, R163, R258) -/

/-- The sets in which a held request may need a shelf frame. -/
def Slice.shelfSets (s : Slice) (r : Req) (line : Nat) : List Nat :=
  if spaceOf r.op r.a = .buf then (if isFrameOp r.op then (s.opKeys r).map Prod.fst else [bufSet r.a.addr.toNat]) else [lineSet line]

/-- The fill-buffer entry that a held miss may take: the capture walk's are no partition's (R83, R245, R282). -/
def Slice.fillFor (s : Slice) (h : Nat) (r : Req) : Option Nat := if r.op = OP_CAPTURE then s.anyFill h else s.freeFill h r.a.pid.toNat

/-- What a request waits for at a line has come about. -/
def Slice.waitOver (s : Slice) (bk : Nat) (r : Req) (line : Nat) (w : Wait) : Bool :=
  match w with
  | .line => if isFrameOp r.op then s.opInPlace r bk else !(s.transient line)
  | .hte => (s.freeHte bk).isSome
  | .fill => (s.fillFor (bk / 8) r).isSome
  | .allowance => s.fillAllowed (bk / 8) (s.reqClass r)
  | .victim => (s.freeVict).isSome
  | .way => s.alloc line r.lp 0 != .wait .way
  | .departing => (match s.locate r.lp line with
      | .victim e => (s.vict e).depart.isNone && decide (s.departing < 4)
      | _ => true)
  | .recall => if isFrameOp r.op then s.opInPlace r bk else (match s.locate r.lp line with
      | .victim e => !(s.vict e).recalling
      | _ => true)
  | .shelf => !(s.capturing r.lp) || (s.shelfSets r line).all (fun x => (s.freeShelf x).isSome)
  | .fanout k => !(s.fanBusy k)

/-- The lookup PID of a request for R294; none for the slice's own requests. -/
def Req.dampPid (r : Req) : Option Nat := if r.steward then none else some r.lp

/-- A held request is a candidate of the internal input (R125, R127). -/
def Slice.holdReady (s : Slice) (bk : Nat) (h : HoldEntry) : Bool :=
  decide (h.since ≤ s.slotFc) && s.waitOver bk h.req h.line h.wait && !(s.damped bk h.req.dampPid)

/-- The oldest held request of a bank that is a candidate (R125). -/
def Slice.replayAt (s : Slice) (bk : Nat) : Option HoldEntry := if s.bankShut bk then none else (s.bank bk).holdq.find? (s.holdReady bk)

/-- The PID that a continuation carries for R294. -/
def Slice.contPid (s : Slice) (bk : Nat) (c : Cont) : Option Nat :=
  match c with
  | .hte i => (match (s.hte bk i).req with
      | some r => r.dampPid
      | none => none)
  | .place k _ => some (Tbl.at Fill.none s.fills k).pid
  | .placeWait k => some (Tbl.at Fill.none s.fills k).pid
  | .restored j => some (s.waiter j).pid.toNat

/-- The line of a continuation that waits, and the request that it acts for. -/
def Slice.contFor (s : Slice) (bk : Nat) (c : Cont) : Nat × Req :=
  let own := fun (line pid : Nat) => (line, ownReq OP_CLEAN_LINE 0 pid line s.fc)
  match c with
  | .hte i => (match (s.hte bk i).req with
      | some r => ((s.hte bk i).line, r)
      | none => own (s.hte bk i).line (s.hte bk i).pid)
  | .place k _ => own (Tbl.at Fill.none s.fills k).line (Tbl.at Fill.none s.fills k).pid
  | .placeWait k => own (Tbl.at Fill.none s.fills k).line (Tbl.at Fill.none s.fills k).pid
  | .restored _ => own 0 0

/-- A continuation is a candidate of the internal input: what it waited for has come about (R79, R84, R127, R258). -/
def Slice.contReady (s : Slice) (bk : Nat) (c : ContEntry) : Bool :=
  let x := s.contFor bk c.what
  decide (c.since ≤ s.slotFc) && !(s.damped bk (s.contPid bk c.what)) && (match c.wait with
    | none => true
    | some .line => true
    | some w => s.waitOver bk x.2 x.1 w)

/-- The first continuation of a bank that is a candidate. -/
def Slice.contAt (s : Slice) (bk : Nat) : Option ContEntry := if s.bankShut bk then none else (s.bank bk).conts.find? (s.contReady bk)

/-- The set of a step of a multi-frame operation has a shelf frame for its capture, or the step needs none (R258). -/
def Slice.stepFree (s : Slice) (o : PinOp) (bk : Nat) : Bool :=
  !(o.stalled.contains bk) || !(s.capturing o.req.lp)
    || (s.freeShelf (bufSet (o.req.a.addr.toNat + 128 * stepFrame o.req.a.addr.toNat bk (o.doneIn bk)))).isSome

/-- The reinstatement of a recalled entry is a candidate (R81, R294). -/
def Slice.recallReady (s : Slice) (v : Victim) : Bool :=
  v.recalling && decide (v.recallAt ≤ s.slotFc) && !(s.damped (bankKey v.setIdx) (some (getF v.frame.w0 T0_PID)))

/-- A reinstatement is a candidate in a bank (R81). -/
def Slice.recallIn (s : Slice) (bk : Nat) : Bool := !(s.bankShut bk) && s.victims.any (fun v => bankKey v.2.setIdx = bk && s.recallReady v.2)

/-- The step of a multi-frame operation that is a candidate in a bank (R102, R294). (DEDUCED, log 60) -/
def Slice.stepAt (s : Slice) (bk : Nat) : Option PinOp :=
  if s.bankShut bk then none
  else (s.pinOps.find? (fun o => o.hasStep bk)).filter (fun o => decide (o.startIn bk ≤ s.slotFc) && !(s.damped bk (some o.req.lp)) && s.stepFree o bk)

/-! ### The internal input (R27) -/

/-- The walk whose candidate goes first in a bank, of those of a rank lower than n. -/
def Slice.walkAt (s : Slice) (bk n : Nat) : Option Walk :=
  if s.bankShut bk || s.damped bk none then none
  else (List.range n).findSome? (fun k => s.walks.find? (fun w => w.kind.rank = k && s.walkOffers w bk))

/-- A candidate of a rank above n is offered on the internal input of a bank: 1 replays, 2 continuations, reinstatements and steps, 3 the drain engine, 4 the sweep, 5 the patrol,
6 the steward (R27), with the walk of TIME_BASE before all (R228). -/
def Slice.higher (s : Slice) (bk n : Nat) : Bool :=
  (decide (1 < n) && (s.replayAt bk).isSome) || (decide (2 < n) && ((s.contAt bk).isSome || s.recallIn bk || (s.stepAt bk).isSome)) || (s.walkAt bk n).isSome

/-- A candidate of rank n of the internal input is granted the bank's slot of the present fc. -/
def Slice.innerGranted (s : Slice) (bk n : Nat) : Bool := !(s.bankShut bk) && !(s.higher bk n) && s.innerWins bk

/-! ### Arrival of a request -/

/-- A request is granted its bank's slot of the present fc and performed (R29, R32). (DESIGN CHOICE, log 4, 9) -/
def Slice.offer (s : Slice) (r : Req) (input : Option Nat) : Slice :=
  let bk := bankKey (reqSet r.op r.a)
  let (g, s1) := s.grant bk s.slotFc 1 1 input r.lp r.occ
  let s2 := s1.serve r (Gr.new g)
  if mayHold r.op then s1.noteTags s2 bk g (s1.bank bk).holdq.length r.a.pid.toNat else s2

/-- The arbiter's input of a request that round robin grants; none for a scheduled pinned access (R29). -/
def Req.input (r : Req) : Option Nat := if r.scheduled then none else some (inputOf (bankKey (reqSet r.op r.a) / 8) r.a.port)

/-- A request passes the check stage. A multi-frame operation goes to the step generators (R102); another request takes its bank's slot where no other candidate
may, and else waits at its input, or on the cross-half link, for the arbiter (R21, R28, R126). (DEDUCED, log 14; DESIGN CHOICE, log 75) -/
def Slice.accepts (s : Slice) (r : Req) : Slice :=
  let bk := bankKey (reqSet r.op r.a)
  let s := if crossing r.op r.a = 0 then s.touchHalf (reqHalf r.op r.a) else s
  if isMulti r.op r.a && !(s.blocked r) then (s.startPinOp r).returnRx r.a.port .req
  else if !(isMulti r.op r.a) && crossing r.op r.a = 0 && s.uncontended bk && !(s.blocked r) then (s.offer r r.input).returnRx r.a.port .req
  else { s with inputs := insInput r s.inputs }

/-- The request opcodes with a payload (R83, R97, R128, R158, R178, R198). -/
def hasPayload (op : BitVec 6) : Bool :=
  op = OP_WR_NC || op = OP_WB || op = OP_STASH || op = OP_CFG_WR || op = OP_PIN_WR || op = OP_PIN_FILL || op = OP_PIN_COPY
    || (isAcc op && op != OP_ACC_FIN && op != OP_ACC_ANCHOR) || isLop op || (isSy op && op != OP_SY_READ)

/-- ACC_ANCHOR at the end of its check stage (R165): ANCHOR of the descriptor, COMP at T+20 on its own port. The requests of this fc are checked against the
anchor that it replaces, and a write of the register in this fc wins (R15). -/
def Slice.accAnchor (s : Slice) (a : Arr) : Slice :=
  let d := a.addr.toNat % 32
  let t := if s.wroteNow (AX_CFG d) then s
    else { s.setFld (AX_CFG d) AX_CFG_ANCHOR (getF a.ext1 ⟨0, 10⟩) with anchors := Tbl.put 0 s.anchors d (s.anchorOf d + 1) }
  t.sendRsp a.port (s.fc + 20) a RS_COMP 0

/-- A REQ other than a register access reaches ingress: the check stage refuses it or admits it to its bank (R51). -/
def Slice.arriveReq (s : Slice) (op : BitVec 6) (a : Arr) : Slice :=
  let s := if hasPayload op then s.ingress .req op a else s
  match s.check op a with
  | .accepts lp foreign =>
    if op = OP_ACC_ANCHOR then (s.accAnchor a).returnRx a.port .req else s.accepts ⟨op, a, lp, foreign, false, s.fc⟩
  | v => (s.refuse op a v).returnRx a.port .req

/-! ### Hold-queue replays (R125) -/

/-- The oldest held request of a bank that is a candidate is granted and performed again; when it leaves its line without a transaction, the
next one follows its tag stage (R125). (DEDUCED, log 48) -/
def Slice.replay (s : Slice) (bk : Nat) : Slice :=
  match (if s.innerGranted bk 1 then s.replayAt bk else none) with
  | none => s
  | some h =>
    let s := s.modBank bk (fun b => { b with holdq := b.holdq.filter (fun x => x.ord != h.ord) })
    let (g, s1) := s.grant bk s.slotFc 1 1 (some 4) (if h.req.steward then 16 else h.req.lp) h.req.occ
    let s2 := s1.serve h.req ⟨g, some h.ord, none, false, h.wait = .shelf⟩
    if h.wait = .line && !(s2.transient h.line) then s2.holdTill bk (fun x => x.wait = .line && x.line = h.line) (g + 5) else s2

/-! ### Continuations (R27, R127) -/

/-- An internal sync operation on the object of a waiter-table or drain-tracker entry. -/
def syReq (op : BitVec 6) (pin : Bool) (pid obj entry arg fc : Nat) : Req :=
  ⟨op, ⟨0, 0x7FF, 0x7FF, BitVec.ofNat 4 pid, BitVec.ofNat 10 entry, false, 0, if pin then 0x20 else 0, BitVec.ofNat 48 (obj * 16), 0,
    BitVec.ofNat 1152 arg⟩, pid, false, true, fc⟩

/-- The continuation of an HTE at a grant: what its state and its answers have made possible. `st` says that it has waited for a shelf frame. -/
def Slice.hteCont (s : Slice) (bk i g : Nat) (st : Bool) : Slice :=
  let e := s.hte bk i
  let again := match e.req with
    | some r => s.serve r (Gr.cont g i true st)
    | none => s
  match e.kind with
  | .walkLine _ => s.walkCont bk i g
  | .walkFrame _ => s.walkCont bk i g
  | .quarantine => s.walkCont bk i g
  | .capture => s.captureCont bk i
  | _ =>
    match e.st with
    | .free => s
    | .wMemAck => s.ackCont bk i g
    | .wFwd =>
      (match e.req with
       | some r => if e.gone then s.nackSupply r bk i g else if e.fin then s.retire bk i else again
       | none => s)
    | .wMem =>
      (match s.fillOf bk i with
       | some (k, f) => if f.arrived && !e.arrived then s.finishFill k bk i (g + 9) g st else again
       | none => if e.req.isSome then again else s.retire bk i)
    | _ => if e.req.isSome && e.pend = 0 && !e.fin then again else s.retire bk i

/-- The continuation that places a fill (R84). -/
def Slice.placeCont (s : Slice) (k g : Nat) (way : Option Nat) (st : Bool) : Slice :=
  match (Tbl.at Fill.none s.fills k).use with
  | .hte n => s.placeFillAt k (n / 16) (n % 16) g way st
  | .capture _ _ => s

/-- What a continuation does at its grant. -/
def Slice.contRun (s : Slice) (bk g : Nat) (c : ContEntry) : Slice :=
  let st := c.wait = some .shelf
  match c.what with
  | .hte i => s.evictSlot (s.hteCont bk i g st) bk
  | .place k w => s.placeCont k g (some w) st
  | .placeWait k => s.placeCont k g none st
  | .restored j =>
    let w := s.waiter j
    if w = Waiter.none then s else s.serve (syReq OP_SY_AGAIN w.pin w.pid.toNat w.obj j 0 s.fc) (Gr.new g)

/-- The list without its first entry equal to one given. -/
def dropFirst (c : ContEntry) : List ContEntry → List ContEntry
  | [] => []
  | x :: t => if x = c then t else x :: dropFirst c t

/-- The first continuation of a bank that is a candidate is granted (R27, R127). -/
def Slice.continuation (s : Slice) (bk : Nat) : Slice :=
  match (if s.innerGranted bk 2 then s.contAt bk else none) with
  | none => s
  | some c =>
    let pid := s.contPid bk c.what
    let s := s.modBank bk (fun b => { b with conts := dropFirst c b.conts })
    let (g, s1) := s.grant bk s.slotFc 1 1 (some 4) (pid.getD 16) { Occ.none with pid := some (pid.getD 0), half := some (bk / 8) }
    s1.contRun bk g c

/-- A recalled entry's frame is written into the frame that R76 chooses, in a grant as a line-operation continuation; a valid frame moves into the
entry, for which the grant takes a further slot (R27, R35, R81). (DEDUCED, log 16) -/
def Slice.reinstate (s : Slice) (e : Nat) : Slice :=
  let v := s.vict e
  let x := v.setIdx
  if !(s.recallReady v) || !(s.innerGranted (bankKey x) 2) then s
  else
    let p := getF v.frame.w0 T0_PID
    let el := s.elig x p
    if el = 0 then s.setVict e { v with recalling := false }
    else
      let s := s.noteReads 3 (s.replKey x) 0 (fun _ => true)
      let w := chooseWay (fun w => getF (s.frame (s.fkey x w)).w0 T0_VALID = 1) (s.replBits x) el
      let key := s.fkey x w
      let o : Occ := { Occ.none with pid := some p, half := some (halfOfSet x) }
      let s := s.noteReads 4 e 0 (fun _ => true)
      let bads := ((s.flipWords 4 e).filter (fun n => decide (n < 16) && s.readCw 4 e n = .bad)).map (fun n => (n, s.flip 4 e n))
      let valid := getF (s.frame key).w0 T0_VALID = 1
      let (_, s) := s.grant (bankKey x) s.slotFc (if valid then 2 else 1) 1 (some 4) p o
      let f : Frame := { v.frame with data := s.victData e }
      let s := if valid then (s.dropVict e).evictTo x key e else s.dropVict e
      let s := (s.putFrame key f).touch x w
      { s with flips := bads.foldl (fun t b => Tbl.put 0 t (cwOf 0 key b.1) b.2) s.flips }

/-- A step of a multi-frame operation is a candidate of the internal input: it waits for a half that is not awake, which it wakes (R314), for a bank
whose copy runs (R345), and for a damper, for which it carries the PID of its request as a line-operation continuation does (R102, R294). (DEDUCED, log 60) -/
def Slice.offerStep (s : Slice) (bk : Nat) : Slice :=
  if s.pinOps.any (fun o => o.hasStep bk) then
    let s := s.touchHalf (bk / 8)
    if (s.stepAt bk).isSome && s.innerGranted bk 2 then s.pinStep bk else s
  else s

/-- The bank of a half. -/
def bankIn (half : Bool) (b : Fin 8) : Nat := b2n half * 8 + b.val

end Sys2Proof.Machine
end

