-- ==== Sys2Proof/Machine/Drain.lean ====
section
/-! DEFINITION. Closing an epoch, the drain engine and the end of a harvest (spec 10_epochs_snapshots.md R253 to R266). -/

namespace Sys2Proof.Machine

/-! ### State of a harvest -/

/-- The drain engine's work for a partition. -/
def Slice.harvest (s : Slice) (p : Nat) : Harvest := Tbl.at Harvest.idle s.harvests p

/-- Store the drain engine's work for a partition. -/
def Slice.setHarvest (s : Slice) (p : Nat) (h : Harvest) : Slice := { s with harvests := Tbl.put Harvest.idle s.harvests p h }

/-- PHASE of a partition (R272): 0 IDLE, 1 RECALL, 2 DRAIN, 3 FINAL, 4 NORMALISE. -/
def Slice.epPhase (s : Slice) (p : Nat) : Nat := s.fld (EP_PSTATUS p) EP_PSTATUS_PHASE

/-- Set a status bit of an epoch, with SL_IRQ_MGMT under the matching enable (R272). -/
def Slice.raiseEp (s : Slice) (p : Nat) (f en : Fld) : Slice :=
  (s.raise (EP_PSTATUS p) f).raiseMgmtIf (s.flag (EP_PCTRL p) en)

/-- Bit i of mask_p (R252): some valid region of p covers a region of index i. -/
def Slice.maskBit (s : Slice) (p i : Nat) : Bool :=
  (List.range 64).any (fun e => s.flag (RM_HI e) RM_HI_VALID && s.fld (RM_HI e) RM_HI_PID = p
    && decide ((i + 2 ^ 18 - s.fld (RM_LO e) RM_LO_BASE % 2 ^ 18) % 2 ^ 18 ≤ s.fld (RM_HI e) RM_HI_LIMIT - s.fld (RM_LO e) RM_LO_BASE))

/-- Word w of mask_p. -/
def Slice.maskWord (s : Slice) (p w : Nat) : Word :=
  (List.range 64).foldl (fun m b => if s.maskBit p (64 * w + b) then m ||| (1#64 <<< b) else m) 0

/-- First byte of the slice's own drain area (R261). -/
def Slice.areaBase (s : Slice) (p : Nat) : Nat :=
  (s.fld (EP_PDRAIN p) EP_PDRAIN_BASE + s.id * s.fld (EP_PDRAIN p) EP_PDRAIN_SIZE) * 2 ^ 21

/-- Block k lies within the area (R264). -/
def Slice.blockFits (s : Slice) (p k : Nat) : Bool := decide (0x8800 + (k + 1) * 0x800 ≤ s.fld (EP_PDRAIN p) EP_PDRAIN_SIZE * 2 ^ 21)

/-! ### The close (R253 to R255) -/

/-- Every granule of the group's drain range is owned by p in a range with RDONLY = 0 (R254, R57). -/
def Slice.drainOwned (s : Slice) (p : Nat) : Bool :=
  let base := s.fld (EP_PDRAIN p) EP_PDRAIN_BASE
  let n := s.fld ID_SLICE ID_SLICE_GROUP_SIZE * s.fld (EP_PDRAIN p) EP_PDRAIN_SIZE
  (List.range n).all (fun k => s.owner ((base + k) * 2 ^ 21) = p && !(s.rdonly ((base + k) * 2 ^ 21)))

/-- The cause for which a close is skipped (R254). -/
def Slice.closeSkip (s : Slice) (p : Nat) : Option Nat :=
  if s.flag (EP_PSTATUS p) EP_PSTATUS_HARVEST || s.epPhase p != 0 then some 0
  else if s.fld (EP_PDRAIN p) EP_PDRAIN_SIZE = 0 || !(s.drainOwned p) then some 1
  else if s.ptState p != 2 then some 2
  else none

/-- QUIET of a close (R255). -/
def Slice.quiet (s : Slice) (p : Nat) : Bool :=
  !(s.waiters.any (fun w => w.2.pid.toNat = p)) && !(s.drains.any (fun d => d.2.busy && d.2.pid.toNat = p)) && !(s.inFlight p)

/-- A close that is not skipped (R255). (DEDUCED, log 29) -/
def Slice.closeNow (s : Slice) (p : Pid) : Slice :=
  let n := p.toNat
  let quiet := s.quiet n
  let ps := EP_PSTATUS n
  let s := (s.setFld ps EP_PSTATUS_PAR (1 - s.par n)).setFld ps EP_PSTATUS_OPEN_BANK (1 - s.openBank n)
  let s := (s.setFld (EP_PREC1 n) EP_PREC1_EPOCH (s.fld (EP_PREC1 n) EP_PREC1_EPOCH + 1)).setFld (EP_PREC1 n) EP_PREC1_RECORDS 0
  let s := s.setReg (EP_PREC0 n) (s.reg (EP_PCLOSE n))
  let s := ((s.raise ps EP_PSTATUS_HARVEST).setFld ps EP_PSTATUS_PHASE 1).setFld ps EP_PSTATUS_QUIET (b2n quiet)
  let s := (s.clearF ps EP_PSTATUS_LEDGER_DONE).clearF ps EP_PSTATUS_FROZEN_DONE
  let s := s.setHarvest n { Harvest.idle with valid := true, late := (s.harvest n).armLate }
  s.startWalk (.close p)

/-- The launch fc of an armed close (R254, R255): the slots from that of the present fc on are granted in it or later, so their grants belong to the new epoch.
Epochs are kept, and closed, only while EN = 1 (R249). (DEDUCED, log 29) -/
def Slice.epochClose (s : Slice) (p : Pid) : Slice :=
  let n := p.toNat
  if !(s.closeDue n) then s
  else
    let s := s.clearF (EP_PSTATUS n) EP_PSTATUS_ARMED
    match s.closeSkip n with
    | some c => (s.raiseEp n EP_PSTATUS_SKIP EP_PCTRL_FAULT_IRQ_EN).setFld (EP_PSTATUS n) EP_PSTATUS_SKIP_CAUSE c
    | none => s.closeNow p

/-- The close recall has merged every answer: PHASE becomes DRAIN (R256). -/
def Slice.closeRecallDone (s : Slice) (p : Pid) : Slice :=
  match s.walkOf (fun k => k = .close p) with
  | some w => if s.walkOver w then (s.endWalk w).setFld (EP_PSTATUS p.toNat) EP_PSTATUS_PHASE 2 else s
  | none => s

/-! ### The drain engine (R262 to R264) -/

/-- A MEM_WR of the drain engine at an area offset (R261). -/
def Slice.drainLine (s : Slice) (p off h : Nat) (d : Line) : Slice :=
  let addr := s.areaBase p + off
  (s.memWr (evenPort h) s.fc 30 p (addr / 128) 15 d (.drain p addr)).pcEv 0x21 1 { Occ.none with pid := some p }

/-- An index line: entries, and the trailer with BLOCK, COUNT and EPOCH (R263). -/
def indexLine (l : List Word) (block epoch : Nat) : Line :=
  let body := ((List.range l.length).zip l).foldl (fun d e => setLineWord d e.1 e.2) (0 : Line)
  setLineWord body 15 (setF (setF (setF (0 : Word) ⟨0, 32⟩ block) ⟨32, 4⟩ l.length) ⟨48, 16⟩ epoch)

/-- The index line of the open block is written, and the block is closed. -/
def Slice.drainIndex (s : Slice) (p : Nat) : Slice :=
  let h := s.harvest p
  let s := s.drainLine p (0x8800 + h.block * 0x800) 0 (indexLine h.index h.block (s.fld (EP_PREC1 p) EP_PREC1_EPOCH))
  s.setHarvest p { h with block := h.block + 1, index := [] }

/-- An index entry (R263). -/
def indexEntry (line : Nat) (pin dead shelf : Bool) : Word :=
  setF (setF (setF (setF (setF (0 : Word) ⟨0, 41⟩ line) ⟨41, 1⟩ (b2n pin)) ⟨42, 1⟩ (b2n dead)) ⟨43, 1⟩ (b2n shelf)) ⟨63, 1⟩ 1

/-- A record joins the open block: its data line is written, and RECORDS counts it. -/
def Slice.drainRecord (s : Slice) (p h : Nat) (e : Word) (d : Line) : Slice :=
  let v := s.harvest p
  let j := v.index.length + 1
  let s := (s.drainLine p (0x8800 + v.block * 0x800 + 0x80 * j) h d).bump (EP_PREC1 p) EP_PREC1_RECORDS 1
  s.setHarvest p { v with index := v.index ++ [e] }

/-- An uncorrectable frame is left out, and DRAIN_ERR is set (R264). -/
def Slice.drainErr (s : Slice) (p : Nat) : Slice := s.raiseEp p EP_PSTATUS_DRAIN_ERR EP_PCTRL_FAULT_IRQ_EN

/-- The shelf frame of p that was created first (R262). -/
def Slice.oldestShelf (s : Slice) (p : Nat) : Option Nat :=
  ((s.frames.filter (fun e => s.shelfWays.getLsbD (keyWay e.1) && e.2.w0.getLsbD 0 && getF e.2.w0 ⟨1, 4⟩ = p)).foldl
    (fun (b : Option (Nat × Nat)) e =>
      let age := (getF e.2.w0 ⟨48, 16⟩ + 65536 - s.shelfSeq) % 65536
      match b with
      | none => some (e.1, age)
      | some m => if age < m.2 then some (e.1, age) else some m) none).map Prod.fst

/-- The buffer offset, in frames, of a pinned frame of p (R96). -/
def Slice.pinLine (s : Slice) (p x way : Nat) : Nat :=
  ((List.range way).filter (fun w => (s.pinMask p).getLsbD w)).length * 4096 + x

/-- A shelf frame is drained and freed in the grant that reads it. -/
def Slice.drainShelf (s : Slice) (p key : Nat) : Slice :=
  match s.keySet key with
  | none => s.zeroFrame key
  | some x =>
    let f := s.frame key
    let pin := f.w0.getLsbD 5
    let line := if pin then s.pinLine p x (getF f.w0 ⟨9, 4⟩) else blockFrom x (getF f.w0 ⟨17, 27⟩) * 4 + getF f.w0 ⟨7, 2⟩
    let bad := s.anyBad 0 key (fun _ => true)
    let (_, s) := s.grant (bankKey x) s.slotFc 1 1 (some 4) 16 { Occ.none with half := some (halfOfSet x) }
    let s := ((s.noteReads 0 key 0 (fun _ => true)).tevt TV_SHELF).zeroFrame key
    if bad then s.drainErr p else s.drainRecord p (halfOfSet x) (indexEntry line pin (f.w0.getLsbD 6) true) f.data

/-- A frame holds a FROZEN line or pinned frame of p (R250, R262). -/
def Slice.frozenFrame (s : Slice) (p : Nat) (e : Nat × Frame) : Bool :=
  getF e.2.w1 T1_EPST = s.epstFrozen p && (s.keySet e.1).isSome
    && ((s.pinMask p).getLsbD (keyWay e.1)
      || (!(s.outsideCache (keyWay e.1)) && getF e.2.w0 T0_VALID = 1 && getF e.2.w0 T0_PID = p && getF e.2.w0 T0_LAYOUT = 0))

/-- The next FROZEN frame or victim entry of p. -/
def Slice.nextFrozen (s : Slice) (p : Nat) : Option Loc :=
  match s.frames.find? (fun e => s.frozenFrame p e) with
  | some e => some (.frame e.1)
  | none => (s.victims.find? (fun v => v.2.depart.isNone && getF v.2.frame.w0 T0_PID = p && getF v.2.frame.w0 T0_LAYOUT = 0
      && getF v.2.frame.w1 T1_EPST = s.epstFrozen p)).map (fun v => .victim v.1)

/-- A FROZEN frame is drained; it becomes CAPTURED in the grant that reads it. -/
def Slice.drainFrozen (s : Slice) (p : Nat) (it : Loc) : Slice :=
  match it with
  | .absent => s
  | .frame key =>
    let x := (s.keySet key).getD 0
    let f := s.frame key
    let pin := (s.pinMask p).getLsbD (keyWay key)
    let dead := pin && f.w0.getLsbD 0
    let line := if pin then s.pinLine p x (keyWay key) else (s.frameLines key).headD 0
    let bad := s.anyBad 0 key (fun _ => true)
    let (_, s) := s.grant (bankKey x) s.slotFc 1 1 (some 4) 16 { Occ.none with half := some (halfOfSet x) }
    let s := ((s.noteReads 0 key 0 (fun _ => true)).tevt TV_SHELF).putTags key f.w0 (setF f.w1 T1_EPST (s.epstCaptured p))
    if bad then s.drainErr p else s.drainRecord p (halfOfSet x) (indexEntry line pin dead false) (if dead then 0 else f.data)
  | .victim e =>
    let v := s.vict e
    let d := s.victData e
    let bad := s.anyBad 4 e (fun w => decide (w < 16))
    let s := s.noteReads 4 e 0 (fun w => decide (w < 16))
    let s := s.setVict e { v with frame := { v.frame with w1 := setF v.frame.w1 T1_EPST (s.epstCaptured p) } }
    if bad then s.drainErr p else s.drainRecord p (halfOfSet v.setIdx) (indexEntry ((s.victimLines e).headD 0) false false false) d

/-- A line of the ledger image: closed-bank words under mask_p; an uncorrectable word is written as the mask (R261). -/
def Slice.drainLedger (s : Slice) (p : Nat) : Slice :=
  let h := s.harvest p
  let cb := 1 - s.openBank p
  let word := fun (k : Nat) => if s.readCw 5 (cb * 4096 + k) 0 = .bad then s.maskWord p k else s.usedWord 5 (cb * 4096 + k) 0 &&& s.maskWord p k
  let d := (List.range 16).foldl (fun l j => setLineWord l j (word (h.ledger * 16 + j))) (0 : Line)
  let s := (List.range 16).foldl (fun t j => t.noteRead 5 (cb * 4096 + h.ledger * 16 + j) 0 0) s
  let s := (s.drainLine p (128 * h.ledger) 0 d).setHarvest p { h with ledger := h.ledger + 1 }
  if h.ledger + 1 = 256 then s.raiseEp p EP_PSTATUS_LEDGER_DONE EP_PCTRL_LEDGER_IRQ_EN else s

/-- The summary line (R266). -/
def Slice.summaryLine (s : Slice) (p : Nat) : Line :=
  let h := s.harvest p
  let st := EP_PSTATUS p
  setF (setF (setF (setF (setF (setF (setF (setF (setF (setF (setF (0 : Line) ⟨0, 16⟩ (s.fld (EP_PREC1 p) EP_PREC1_EPOCH)) ⟨16, 6⟩ s.id) ⟨22, 4⟩ p)
    ⟨26, 1⟩ (s.fld st EP_PSTATUS_QUIET)) ⟨27, 1⟩ (s.fld st EP_PSTATUS_AREA_FULL)) ⟨28, 1⟩ (s.fld st EP_PSTATUS_DRAIN_ERR)) ⟨29, 1⟩ (b2n h.aborted))
    ⟨30, 1⟩ (b2n h.late)) ⟨64, 64⟩ (s.reg (EP_PREC0 p)).toNat) ⟨128, 32⟩ (s.fld (EP_PREC1 p) EP_PREC1_RECORDS)) ⟨160, 32⟩ h.block

/-- The summary is written, and the normalise walk follows (R265, R266). -/
def Slice.drainSummary (s : Slice) (p : Nat) : Slice :=
  let h := s.harvest p
  ((s.drainLine p 0x8000 0 (s.summaryLine p)).setHarvest p { h with summary := true }).setFld (EP_PSTATUS p) EP_PSTATUS_PHASE 4

/-- The open block may take a record; a new block that passes the end of the area stops the engine (R264). -/
def Slice.drainOpen (s : Slice) (p : Nat) : Bool := (s.harvest p).index != [] || s.blockFits p (s.harvest p).block

/-- The engine stops for p: the area is full (R264). -/
def Slice.areaFull (s : Slice) (p : Nat) : Slice :=
  (s.setHarvest p { s.harvest p with stop := true }).raiseEp p EP_PSTATUS_AREA_FULL EP_PCTRL_FAULT_IRQ_EN

/-- The drain engine is granted the slot of a frame's bank (R27, R126, R294). -/
def Slice.drainMay (s : Slice) (key : Nat) : Bool :=
  let bk := s.frameBank key
  s.innerGranted bk 3 && s.room bk 1 && !(s.damped bk none)

/-- The drain engine's candidate in a frame's bank: it wakes the half (R314), and the frame is read once it is granted, unless the area is full. -/
def Slice.drainAt (s : Slice) (p key : Nat) (f : Slice → Slice) : Option Slice :=
  if !(s.awake (keyHalf key)) then some (s.touchHalf (keyHalf key))
  else if !(s.drainOpen p) then some (s.areaFull p)
  else if s.drainMay key then some (f s) else none

/-- The next line that the drain engine writes for p: none when it has none to write now. (DEDUCED, log 29) -/
def Slice.drainNext (s : Slice) (p : Nat) : Option Slice :=
  let h := s.harvest p
  let ph := s.epPhase p
  if !(s.flag (EP_PSTATUS p) EP_PSTATUS_HARVEST) then none
  else if h.aborted then (if h.summary || !h.valid then none else some (s.drainSummary p))
  else if h.index.length = 15 then some (s.drainIndex p)
  else if h.stop || 4 ≤ ph then none
  else match s.oldestShelf p with
    | some key => s.drainAt p key (fun t => t.drainShelf p key)
    | none =>
      if ph < 2 then none
      else if h.ledger < 256 then some (s.drainLedger p)
      else match s.nextFrozen p with
        | some (.frame key) => s.drainAt p key (fun t => t.drainFrozen p (.frame key))
        | some it => some (if s.drainOpen p then s.drainFrozen p it else s.areaFull p)
        | none =>
          if !h.final then none
          else if h.index != [] then some (s.drainIndex p)
          else some (s.drainSummary p)

/-- FROZEN_DONE once no FROZEN frame of p remains (R262). -/
def Slice.frozenDone (s : Slice) (p : Nat) : Slice :=
  if s.flag (EP_PSTATUS p) EP_PSTATUS_HARVEST && decide (2 ≤ s.epPhase p) && (s.harvest p).ledger = 256 && (s.nextFrozen p).isNone then
    s.raise (EP_PSTATUS p) EP_PSTATUS_FROZEN_DONE
  else s

/-- Lines of the drain engine that await MEM_ACK. -/
def Slice.drainOut (s : Slice) (q : Nat → Bool) : Nat :=
  (s.txns.filter (fun t => match t.2 with
    | .drain p _ => q p
    | _ => false)).length

/-- The drain engine writes one line, for the next partition in harvest that has one, in ascending PID from the last one served (R262). -/
def Slice.drainWrite (s : Slice) : Slice :=
  if 16 ≤ s.drainOut (fun _ => true) then s
  else
    let order := (List.range 16).map (fun k => (s.drainPtr + k) % 16)
    match order.findSome? (fun p => if p = 0 then none else (s.drainNext p).map (fun t => (p, t))) with
    | some (p, t) => { t.frozenDone p with drainPtr := (p + 1) % 16 }
    | none => order.foldl (fun t p => if p = 0 then t else t.frozenDone p) s

/-- MEM_ACK of a drain write (R264). -/
def Slice.drainAck (s : Slice) (p addr : Nat) (a : Arr) : Slice :=
  let s := s.ackError a (addr / 128) p
  if a.ext0.getLsbD 0 then s.drainErr p else s

/-! ### The end of a harvest (R265, R266) -/

/-- RELEASE (R265): ignored while HARVEST = 0 or LEDGER_DONE = 0. -/
def Slice.harvestRelease (s : Slice) (p : Nat) : Slice :=
  if s.flag (EP_PSTATUS p) EP_PSTATUS_HARVEST && s.flag (EP_PSTATUS p) EP_PSTATUS_LEDGER_DONE && s.epPhase p = 2 then
    (s.setHarvest p { s.harvest p with final := true }).setFld (EP_PSTATUS p) EP_PSTATUS_PHASE 3
  else s

/-- The shelf entries of p are zeroed. -/
def Slice.zeroShelf (s : Slice) (p : Nat) : Slice :=
  (s.frames.filter (fun e => s.shelfWays.getLsbD (keyWay e.1) && e.2.w0.getLsbD 0 && getF e.2.w0 ⟨1, 4⟩ = p)).foldl (fun t e => t.zeroFrame e.1) s

/-- ABORT while HARVEST = 1 (R266): capture and the drain stop, the shelf entries are zeroed, and the summary is written with ABORTED. -/
def Slice.harvestAbort (s : Slice) (p : Nat) : Slice :=
  if s.flag (EP_PSTATUS p) EP_PSTATUS_HARVEST && !(s.harvest p).aborted then
    let s := { s with walks := s.walks.filter (fun w => w.kind != WalkKind.close (BitVec.ofNat 4 p)) }
    ((s.zeroShelf p).setHarvest p { s.harvest p with aborted := true, summary := false }).setFld (EP_PSTATUS p) EP_PSTATUS_PHASE 4
  else s

/-- EPST after the normalise walk (R250). -/
def Slice.normal (s : Slice) (p : Nat) (abort : Bool) (e : Nat) : Nat :=
  if e = s.epstCaptured p then s.epstClean p else if abort && e = s.epstFrozen p then s.epstWritten p else e

/-- The keys of the frames of a partition's pinned ways. -/
def Slice.pinKeys (s : Slice) (p : Nat) : List Nat :=
  (List.range 16).flatMap (fun w => if (s.pinMask p).getLsbD w then (List.range 4096).map (fun x => s.fkey x w) else [])

/-- The normalise walk over the frames and victim entries of p. (DEDUCED, log 29) -/
def Slice.normalise (s : Slice) (p : Nat) (abort : Bool) : Slice :=
  let new := fun (w : Word) => setF w T1_EPST (s.normal p abort (getF w T1_EPST))
  let mine := s.pinKeys p ++ (s.frames.filter (fun e => !(s.outsideCache (keyWay e.1)) && getF e.2.w0 T0_VALID = 1 && getF e.2.w0 T0_PID = p)).map Prod.fst
  let s1 := mine.foldl (fun t k => if new (s.frame k).w1 = (s.frame k).w1 then t else t.putTags k (s.frame k).w0 (new (s.frame k).w1)) s
  (s1.victims.filter (fun v => getF v.2.frame.w0 T0_PID = p)).foldl (fun t v =>
    t.setVict v.1 { v.2 with frame := { v.2.frame with w1 := new v.2.frame.w1 } }) s1

/-- The bits of p in the closed bank: cleared, or moved into the open bank by an ABORT (R265, R266). -/
def Slice.ledgerEnd (s : Slice) (p : Nat) (abort : Bool) : Slice :=
  let cb := 1 - s.openBank p
  (s.ledgerKeys (fun k => k / 4096 = cb)).foldl (fun t c =>
    let m := t.maskWord p (c % 4096)
    let v := t.usedWord 5 c 0
    let k := (1 - cb) * 4096 + c % 4096
    let t1 := if abort then t.putLedger k (t.usedWord 5 k 0 ||| (v &&& m)) else t
    t1.putLedger c (v &&& ~~~m)) s

/-- The normalise walk and the ledger clear finish: HARVEST clears and DONE is set (R265, R266). (DEDUCED, log 29) -/
def Slice.harvestDone (s : Slice) (p : Nat) : Slice :=
  let h := s.harvest p
  if s.epPhase p = 4 && (h.summary || !h.valid) then
    let s := ((s.normalise p h.aborted).ledgerEnd p h.aborted).setHarvest p { Harvest.idle with armLate := h.armLate }
    ((s.clearF (EP_PSTATUS p) EP_PSTATUS_HARVEST).setFld (EP_PSTATUS p) EP_PSTATUS_PHASE 0).raiseEp p EP_PSTATUS_DONE EP_PCTRL_DONE_IRQ_EN
  else s

/-! ### Arming a close (R253) -/

/-- EP_PCTRL.ARM and CANCEL, as R234 states for the launch slot: a CANCEL in the launch fc comes too late. A close is armed only while epochs are kept
(R249). (DEDUCED, log 29) -/
def Slice.epArmCancel (s : Slice) (p : Nat) (arm cancel : Bool) : Slice :=
  let st := EP_PSTATUS p
  let late := decide ((s.reg (EP_PCLOSE p)).toNat < s.count.toNat + 1)
  if arm && s.flag st EP_PSTATUS_ARMED then s
  else if cancel then (if s.closeDue p then s else s.clearF st EP_PSTATUS_ARMED)
  else if arm && s.epochs p then
    let s := (s.raise st EP_PSTATUS_ARMED).setHarvest p { s.harvest p with armLate := late }
    if late then (s.raise st EP_PSTATUS_LATE).tevt TV_LATE else s
  else s

end Sys2Proof.Machine
end

