-- ==== Sys2Proof/Machine/Arrivals.lean ====
section
/-! DEFINITION. Answers that arrive at the slice: where each one goes by its TXN (spec 01_slice_anatomy.md R25, R28, R39; 03_cache.md R84;
05_coherence_home.md R131 to R133, R137). -/

namespace Sys2Proof.Machine

/-- An RSP or DAT of a kind that its HTE does not expect, or of no transaction at all (R39, R133). (DEDUCED, log 22) -/
def Slice.stray (s : Slice) (a : Arr) : Slice :=
  match s.hteByTxn a.txn.toNat with
  | some (bk, i) => s.unexpected bk i a
  | none => s.noteUnmatched a

/-- An RSP or DAT whose DST names none of the slice's nodes is discarded and captured with address 0 (R25); any other goes to `f`. -/
def Slice.sunk (s : Slice) (op : BitVec 6) (data : Bool) (a : Arr) (f : Slice → Slice) : Slice :=
  let s := if data then s.ingress .dat op a else s
  if s.mine a.dst then { f { s with ansPort := some a.port } with ansPort := none } else s.noteMisroute 0 a.src.toNat

/-- MEM_DATA (R84): its TXN names a fill-buffer entry, 0x100 + the entry's number (R132). -/
def Slice.memData (s : Slice) (a : Arr) : Slice :=
  let t := a.txn.toNat
  match s.fills.find? (fun f => f.1 + 0x100 = t && !f.2.arrived && !(s.fillWaits a.txn)) with
  | some (k, f) =>
    (match f.use with
     | .hte n => s.homeFill k (n / 16) (n % 16) a
     | .capture _ _ => s.captureFill k a)
  | none => s.stray a

/-- MEM_ACK (R80, R137, R264): the TXN frees, and the writer goes on. -/
def Slice.memAck (s : Slice) (a : Arr) : Slice :=
  let t := a.txn.toNat
  match Tbl.at TxnUse.none s.txns t with
  | .wbHte bank i => if i = 16 then s.stray a else (s.freeTxnAt t).homeAck bank i a
  | .wbVictim e => (s.freeTxnAt t).victimAck e a
  | .drain p addr => (s.freeTxnAt t).drainAck p addr a
  | _ => s.stray a

end Sys2Proof.Machine
end

