-- ==== Sys2Proof/Machine/Partition.lean ====
section
/-! DEFINITION. Partitions: activation, sealing, release and the sweep (spec 02_partitions.md R43 to R64). -/

namespace Sys2Proof.Machine

/-- A register access is recorded in the error log (R336): type, offset and node, with a PID. -/
def Slice.logReg (s : Slice) (t off : Nat) (n : Node) (pid : Nat) : Slice := s.logErr t (log1Addr (s.ownAddr off) n.toNat) pid

/-! ### Activation (R45 to R47) -/

/-- The pinned ways of every other partition that counts as active. -/
def Slice.pinnedByOthers (s : Slice) (p : Nat) : BitVec 16 :=
  (List.range 16).foldl (fun m q => if q != p && s.ptActive q then m ||| s.pinMask q else m) 0

/-- The cache masks of every other partition but PID 0 that counts as active. -/
def Slice.cachedByOthers (s : Slice) (p : Nat) : BitVec 16 :=
  (List.range 16).foldl (fun m q => if q != p && q != 0 && s.ptActive q then m ||| BitVec.ofNat 16 (s.fld (PT_WAYS q) PT_WAYS_CACHE_MASK) else m) 0

/-- The result code of an ACTIVATE (R45). -/
def Slice.activateCode (s : Slice) (p : Nat) : Nat :=
  let pin := s.pinMask p
  let cache := BitVec.ofNat 16 (s.fld (PT_WAYS p) PT_WAYS_CACHE_MASK)
  let others := s.pinnedByOthers p
  if s.ptState p != 0 then 2
  else if p != 0 && s.flag ID_STATUS ID_STATUS_MAP_BAD then 3
  else if pin &&& (others ||| s.cachedByOthers p ||| s.shelfWays) != 0 || cache &&& (others ||| s.shelfWays) != 0 then 4
  else if 14 < popcount (pin ||| s.pinnedWays ||| s.shelfWays) then 5
  else if cache &&& ~~~pin = 0 then 6
  else 1

/-- The wake that an activation causes first (R315). -/
def Slice.activateWake (s : Slice) (p : Nat) : Slice :=
  let det := s.flag (PT_CTRL p) PT_CTRL_DET_MODE
  [0, 1].foldl (fun t h => if det || (t.half h).power = .off then t.wakeTrigger h else t) s

/-- The activation may proceed: the halves are awake as R315 asks. -/
def Slice.halvesFor (s : Slice) (p : Nat) : Bool :=
  if s.flag (PT_CTRL p) PT_CTRL_DET_MODE then s.awake 0 && s.awake 1
  else [0, 1].all (fun h => (s.half h).power = .awake || (s.half h).power = .retention)

/-- The pass over the newly pinned ways starts once the halves are awake as R315 asks (R47). -/
def Slice.passStart (s : Slice) (p : Pid) : Slice :=
  if s.ptState p.toNat = 1 && s.pinMask p.toNat != 0 && (s.walkOf (fun k => match k with
      | .activate q _ => q = p
      | _ => false)).isNone && s.halvesFor p.toNat then
    s.startWalk (.activate p (s.pinMask p.toNat))
  else s

/-- An accepted ACTIVATE: ACTIVATING; it ends a flush walk (R313), and its pass starts when the halves allow it (R47, R315). -/
def Slice.activate (s : Slice) (p : Pid) : Slice :=
  let n := p.toNat
  let s := (s.setFld (PT_STATUS n) PT_STATUS_STATE 1).activateWake n
  let s := [0, 1].foldl (fun t h => if t.flag AG_PSTATE (flushField h) then t.touchHalf h else t) s
  s.passStart p

/-- The pass leaves the pinned frames CLEAN where p has epochs: W = 0 and G not PAR (R250). -/
def Slice.cleanPinned (s : Slice) (p : Nat) : Slice :=
  if s.epochs p then (s.pinKeys p).foldl (fun t k => t.putTags k (t.frame k).w0 (setF (t.frame k).w1 T1_EPST (t.epstClean p))) s else s

/-! ### Release (R59, R60) -/

/-- Fan-out entries of p are cleared; a requester in progress is answered ACCESS_DENIED (R60, R115). (DEDUCED, log 30) -/
def Slice.clearFanout (s : Slice) (p : Nat) : Slice :=
  (List.range 16).foldl (fun t k =>
    if t.flag (CZ_FO_CFG k) CZ_FO_CFG_VALID && t.fld (CZ_FO_CFG k) CZ_FO_CFG_PID = p then
      (((t.foEnd k RS_ACCESS_DENIED).clearF (CZ_FO_CFG k) CZ_FO_CFG_VALID).clearF (CZ_FO_CFG k) CZ_FO_CFG_PID).setReg (CZ_FO_TGT k) 0
    else t) s

/-- The drain-tracker entries of p are cleared; releases that wait to leave count for them no more (R218). -/
def Slice.dropDrains (s : Slice) (p : Nat) : Slice :=
  let gone := fun (t : Option Nat) => match t with
    | some t => (Tbl.at Drain.none s.drains t).pid.toNat = p && (Tbl.at Drain.none s.drains t).busy
    | none => false
  let keep := fun (t : Option Nat) => if gone t then none else t
  { s with drains := s.drains.filter (fun d => d.2.pid.toNat != p), releases := s.releases.map (fun r => { r with drain := keep r.drain }),
           egress := s.egress.map (fun o => { o with rel := o.rel.map (fun x => (x.1, keep x.2.1, x.2.2)) }) }

/-- Waiters of p are answered ORPHANED in ascending entry order, and its drain-tracker entries are cleared (R218). -/
def Slice.orphan (s : Slice) (p : Nat) : Slice :=
  let ws := s.waiters.filter (fun w => w.2.pid.toNat = p && !(s.leaving w.1))
  (ws.foldl (fun t w => t.release w.1 0 ST_ORPHANED 0 none (max t.fc (t.regFree - 1))) s).dropDrains p

/-- The release starts: state RELEASING, phase DRAIN (R60). -/
def Slice.startRelease (s : Slice) (p : Pid) (flush : Bool) : Slice :=
  let n := p.toNat
  let rec' := s.reg (PT_SWEEP_REC n)
  let aborted := s.flag (EP_PSTATUS n) EP_PSTATUS_HARVEST
  let s := ((s.setFld (PT_STATUS n) PT_STATUS_STATE 3).clearF (PT_STATUS n) PT_STATUS_PHASE).clearF (PT_CTRL n) PT_CTRL_ACTIVE
  let s := s.setReg (PT_SWEEP_START n) s.count
  let s := s.setReg (PT_SWEEP_REC n) (setF (setF (setF (0 : Word) PT_SWEEP_REC_DONE (getF rec' PT_SWEEP_REC_DONE)) PT_SWEEP_REC_FLUSHED (b2n flush))
    PT_SWEEP_REC_DRAIN_ABORTED (b2n aborted))
  let s := { s with relFlush := Tbl.put false s.relFlush n flush, relWait := Tbl.put false s.relWait n false }
  (((s.clearF (EP_PSTATUS n) EP_PSTATUS_ARMED).harvestAbort n).clearFanout n).orphan n

/-- The result of RELEASE (R45, R59). -/
def Slice.releaseCmd (s : Slice) (p : Pid) (flush : Bool) : Slice :=
  let n := p.toNat
  let code := fun (t : Slice) (c : Nat) => t.setFld (PT_STATUS n) PT_STATUS_CMD_RESULT c
  if n = 0 || s.ptState n = 0 then code s 8
  else if s.ptState n = 3 || Tbl.at false s.relWait n then s
  else if s.ptState n = 1 then
    { code s 1 with relWait := Tbl.put false s.relWait n true, relFlush := Tbl.put false s.relFlush n flush }
  else (code s 1).startRelease p flush

/-- The commands of PT_CTRL, once its RW and RWL fields have taken effect (R45, R56). -/
def Slice.ptCommand (s : Slice) (p : Pid) (act rel flush sl : Bool) : Slice :=
  let n := p.toNat
  let s1 :=
    if act && rel then s.setFld (PT_STATUS n) PT_STATUS_CMD_RESULT 7
    else if act then
      let c := s.activateCode n
      let t := s.setFld (PT_STATUS n) PT_STATUS_CMD_RESULT c
      if c = 1 then t.activate p else t
    else if rel then s.releaseCmd p flush
    else s
  if sl && n != 0 && (s1.ptState n = 1 || s1.ptState n = 2) then s1.raise (PT_CTRL n) PT_CTRL_SEAL else s1

/-- The activation pass, or the wait of R47, has ended: ACTIVE, or straight to the release that waits (R59). -/
def Slice.activationDone (s : Slice) (p : Pid) : Slice :=
  let n := p.toNat
  let w := s.walkOf (fun k => match k with
    | .activate q _ => q = p
    | _ => false)
  let ended := match w with
    | some w => s.walkOver w
    | none => s.pinMask n = 0
  if s.ptState n != 1 || !ended || !(s.halvesFor n) then s
  else
    let s := (match w with
      | some w => s.endWalk w
      | none => s).cleanPinned n
    if Tbl.at false s.relWait n then s.startRelease p (Tbl.at false s.relFlush n)
    else (s.setFld (PT_STATUS n) PT_STATUS_STATE 2).raise (PT_CTRL n) PT_CTRL_ACTIVE

/-! ### The sweep (R60 to R62) -/

/-- Phase RECALL begins once no transaction of p is in flight; requests of p that have parked during the drain are orphaned (R53, R218). -/
def Slice.sweepRecall (s : Slice) (p : Pid) : Slice :=
  let n := p.toNat
  if s.ptState n != 3 || s.fld (PT_STATUS n) PT_STATUS_PHASE != 0 || s.inFlight n then s
  else ((s.orphan n).setFld (PT_STATUS n) PT_STATUS_PHASE 1).startWalk (.sweep p (Tbl.at false s.relFlush n))

/-- Descriptors of p are cleared (R53, R176). (DEDUCED, log 30) -/
def Slice.clearDescs (s : Slice) (p : Nat) : Slice :=
  (List.range 32).foldl (fun t d =>
    if t.flag (AX_CFG d) AX_CFG_VALID && t.fld (AX_CFG d) AX_CFG_PID = p then
      (((t.setReg (AX_CFG d) 0).setReg (AX_BASE d) 0).setReg (AX_LIMIT d) 0).setReg (AX_STATUS d) 0
    else t) s

/-- Counters and sample records of p are zeroed and unassigned (R53, R390). -/
def Slice.clearCounters (s : Slice) (p : Nat) : Slice :=
  let s := (List.range 28).foldl (fun t i =>
    if t.fld (PC_CFG i) PC_CFG_OWNER = p then ((t.setReg (PC_CFG i) 0).setReg (PC_VAL i) 0).setFld PC_OVF ⟨i, 1⟩ 0 else t) s
  (List.range 4).foldl (fun t k =>
    if t.flag (PC_SMP1 k) PC_SMP1_VALID && t.fld (PC_SMP1 k) PC_SMP1_PID = p then
      ((t.setReg (PC_SMP0 k) 0).setReg (PC_SMP1 k) 0).setReg (PC_SMP2 k) 0
    else t) s

/-- The ledger bits of the regions that p owns are cleared, in both banks (R53). -/
def Slice.clearLedger (s : Slice) (p : Nat) : Slice :=
  (s.ledgerKeys (fun _ => true)).foldl (fun t k => t.putLedger k (t.usedWord 5 k 0 &&& ~~~(t.maskWord p (k % 4096)))) s

/-- The registers of p that R53 clears: energy, lanes and keys, flags and counts, and the epoch. (DEDUCED, log 30) -/
def Slice.clearRegs (s : Slice) (p : Nat) : Slice :=
  let z := fun (t : Slice) (l : List Nat) => l.foldl (fun u a => u.setReg a 0) t
  let s := z s ([PG_ENERGY p, CZ_DEAD_CNT p, SY_ODC p, SY_PCNT p, PT_DENY p, PT_DENY_CNT p] ++ (List.range 4).map (DG_LANE p) ++ (List.range 4).map (DG_KEY p))
  let s := if p = 0 then s else z s [EP_PSTATUS p, EP_PREC0 p, EP_PREC1 p, EP_PCNT p]
  let s := s.setFld CZ_DEADREAD ⟨p, 1⟩ 0
  let s := if s.flag SY_ODC_REF SY_ODC_REF_VALID && s.fld SY_ODC_REF SY_ODC_REF_PID = p then z s [SY_ODC_REF, SY_ODC_NODES] else s
  { s with gov := { s.gov with residue := Tbl.put 0 s.gov.residue p 0 }, harvests := Tbl.put Harvest.idle s.harvests p Harvest.idle }

/-- The victim and shelf entries of p, and every table of R53 that holds p, are erased; its frames are the zero walk's. (DEDUCED, log 30) -/
def Slice.erase (s : Slice) (p : Nat) : Slice :=
  let vs := s.victims.filter (fun v => getF v.2.frame.w0 T0_PID = p)
  let s := (vs.foldl (fun t v => t.dropVict v.1) s).bump (PT_SWEEP_REC p) PT_SWEEP_REC_FRAMES vs.length
  let s := { (s.dropDrains p) with waiters := s.waiters.filter (fun w => w.2.pid.toNat != p || s.leaving w.1) }
  ((((s.zeroShelf p).clearDescs p).clearCounters p).clearLedger p).clearRegs p

/-- Phase ZERO begins when every back-invalidate and every writeback of the recall has been answered. (DEDUCED, log 29) -/
def Slice.sweepZero (s : Slice) (p : Pid) : Slice :=
  let n := p.toNat
  match s.walkOf (fun k => match k with
      | .sweep q _ => q = p
      | _ => false) with
  | none => s
  | some w =>
    if s.ptState n != 3 || s.fld (PT_STATUS n) PT_STATUS_PHASE != 1 || !(s.walkOver w) then s
    else (((s.endWalk w).setFld (PT_STATUS n) PT_STATUS_PHASE 2).erase n).startWalk (.zero p)

/-- A partition that reaches FREE has level 0, in the lead's account too, and no phase is announced for it (R291, R296). -/
def Slice.forget (s : Slice) (p : Nat) : Slice :=
  let was := Tbl.at 0 s.gov.levels p
  let zero := fun (w : Word) => setF w ⟨4 * p, 4⟩ 0
  let s := { s with gov := { s.gov with levels := Tbl.put 0 s.gov.levels p 0, announced := Tbl.put 0xFFFF s.gov.announced p 0xFFFF,
                                        plan := s.gov.plan.map (fun e => (e.1, zero e.2)), heard := zero s.gov.heard, hints := s.gov.hints.filter (fun h => h.1 != p) } }
  if was = 0 then s else s.tevt TV_DAMP

/-- The sweep completes once the zero walk has: its record, and FREE (R62). -/
def Slice.sweepDone (s : Slice) (p : Pid) : Slice :=
  let n := p.toNat
  let w := s.walkOf (fun k => k = .zero p)
  if s.ptState n != 3 || s.fld (PT_STATUS n) PT_STATUS_PHASE != 2 || !(w.all s.walkOver) then s
  else
    let s := (match w with
      | some w => s.endWalk w
      | none => s)
    let d := min 0x1FFFFF (s.count.toNat - (s.reg (PT_SWEEP_START n)).toNat)
    let s := (s.setFld (PT_SWEEP_REC n) PT_SWEEP_REC_DURATION d).raise (PT_SWEEP_REC n) PT_SWEEP_REC_DONE
    let s := ((s.clearF (PT_CTRL n) PT_CTRL_SEAL).clearF (PT_STATUS n) PT_STATUS_PHASE).clearF (PT_STATUS n) PT_STATUS_STATE
    (s.forget n).raiseMgmtIf (s.flag (PT_CTRL n) PT_CTRL_SWEEP_IRQ_EN)

end Sys2Proof.Machine
end

