-- ==== Sys2Proof/Machine/SyncCtl.lean ====
section
/-! DEFINITION. The debugger's actions on sync objects, drain continuations, and the save and restore of waits (spec 08_sync_objects.md R208, R216,
R217, R219). -/

namespace Sys2Proof.Machine

/-! ### Internal operations on an object -/

/-- The bank of an object. -/
def objBank (pin : Bool) (obj : Nat) : Nat := bankKey (if pin then bufSet (obj * 16) else lineSet (obj / 8))

/-- An internal operation on an object takes its bank's slot as a candidate of a rank of the internal input, if it is one by now and the arbiter grants it; else it
waits in the bank's hold queue. A half that is not awake is woken (R27, R314). (DEDUCED, log 32) -/
def Slice.internalOp (s : Slice) (r : Req) (n rank : Nat) : Slice :=
  let bk := objBank r.a.pin (r.a.addr.toNat / 16)
  let s := s.touchHalf (bk / 8)
  if n ≤ s.slotFc && s.innerGranted bk rank && !(s.damped bk none) then
    let (g, s1) := s.grant bk s.slotFc 1 1 (some 4) 16 { r.occ with pid := none }
    s1.serve r (Gr.new g)
  else ((s.holdEntry bk ⟨r, r.a.addr.toNat / 128, .line, s.fresh, n⟩).tick1)

/-! ### Debug view and manual set (R216, R217) -/

/-- An action of SY_DBG_CMD ends with a result. -/
def Slice.dbgEnd (s : Slice) (code : Nat) : Slice := (s.clearF SY_DBG_CMD SY_DBG_CMD_BUSY).setFld SY_DBG_CMD SY_DBG_CMD_RESULT code

/-- START of SY_DBG_CMD with BUSY = 0: the action of ACTION on the selected object. (DEDUCED, log 32) -/
def Slice.dbgStart (s : Slice) (n : Node) : Slice :=
  let pin := s.flag SY_DBG_ADDR SY_DBG_ADDR_PIN
  let pid := s.fld SY_DBG_ADDR SY_DBG_ADDR_PID
  let obj := s.fld SY_DBG_ADDR SY_DBG_ADDR_OBJ
  let act := s.fld SY_DBG_CMD SY_DBG_CMD_ACTION
  let away := if pin then decide (s.bufBytes pid ≤ obj * 16) else s.homeOf (obj * 16) != s.id
  if act = 3 then s
  else if away then s.dbgEnd 4
  else if s.sealed pid then
    let s := if act = 0 then (s.setReg SY_DBG_OBJ0 0).setReg SY_DBG_OBJ1 0 else s
    (s.dbgEnd 1).logReg 0x0B SY_DBG_CMD n pid
  else
    let op := if act = 0 then OP_SY_READ else if act = 1 then OP_SY_SET else OP_SY_ALL
    ((s.raise SY_DBG_CMD SY_DBG_CMD_BUSY).tevt TV_MAINT).internalOp
      (syReq op pin pid obj 0 (s.fld SY_DBG_CMD SY_DBG_CMD_VALUE) s.fc) s.slotFc 6

/-- SY_DBG_CMD.START (R216): ignored while BUSY = 1. (DEDUCED, log 32) -/
def Slice.dbgCommand (s : Slice) (n : Node) : Slice := if s.flag SY_DBG_CMD SY_DBG_CMD_BUSY then s else s.dbgStart n

/-! ### Save and restore (R219) -/

/-- A save or restore ends: BUSY clears, DONE is set, and COUNT holds the entries moved. -/
def Slice.saveEnd (s : Slice) (code moved : Nat) : Slice :=
  let c := SY_SAVE_CTRL
  let s := ((s.clearF c SY_SAVE_CTRL_BUSY).raise c SY_SAVE_CTRL_DONE).setFld c SY_SAVE_CTRL_RESULT code
  { s.setFld c SY_SAVE_CTRL_COUNT moved with save := none }

/-- The save area is one that R219 allows for p. -/
def Slice.saveArea (s : Slice) (p base : Nat) : Bool :=
  let o := s.owner base
  (o = p || (o = 0 && !(s.sealed p))) && !(s.sealed p && s.rdonly base)

/-- Word 0 of a saved entry: SY_WT_VIEW0 (R221). (DEDUCED, log 31) -/
def Waiter.view0 (w : Waiter) : Word :=
  setF (setF (setF (setF (setF (setF (setF (setF (0 : Word) SY_WT_VIEW0_VALID 1) SY_WT_VIEW0_STATE w.st) SY_WT_VIEW0_KIND w.kind) SY_WT_VIEW0_CMP w.cmp)
    SY_WT_VIEW0_PIN (b2n w.pin)) SY_WT_VIEW0_PID w.pid.toNat) SY_WT_VIEW0_DCLASS (b2n w.dclass)) SY_WT_VIEW0_OBJ w.obj

/-- Word 1 of a saved entry: SY_WT_VIEW1 (R221). -/
def Waiter.view1 (w : Waiter) : Word :=
  setF (setF (setF (setF (setF (0 : Word) SY_WT_VIEW1_ARG w.arg) SY_WT_VIEW1_SRC w.src.toNat) SY_WT_VIEW1_TXN w.txn.toNat) SY_WT_VIEW1_PORT (b2n w.parity))
    SY_WT_VIEW1_WAITBIT (b2n w.wait)

/-- A restored entry from its two words. (DEDUCED, log 31) -/
def waiterOf (v0 v1 : Word) (ord : Nat) : Waiter :=
  ⟨getF v0 SY_WT_VIEW0_OBJ, bitF v0 13, BitVec.ofNat 4 (getF v0 SY_WT_VIEW0_PID), bitF v0 8, getF v0 SY_WT_VIEW0_CMP, getF v0 SY_WT_VIEW0_KIND,
    getF v0 SY_WT_VIEW0_STATE, bitF v1 54, bitF v1 53, BitVec.ofNat 10 (getF v1 SY_WT_VIEW1_TXN), BitVec.ofNat 11 (getF v1 SY_WT_VIEW1_SRC),
    getF v1 SY_WT_VIEW1_ARG, ord, BitVec.ofNat 4 (getF v0 SY_WT_VIEW0_PID)⟩

/-- The line address and the byte within the line of saved entry k. -/
def saveAt (base k : Nat) : Nat × Nat := ((base + 16 * k) / 128 * 128, (base + 16 * k) % 128)

/-- A request of the save unit under PID p; the routers deliver it by its address. (DEDUCED, log 31) -/
def Slice.saveReq (s : Slice) (op : BitVec 6) (p : Pid) (line : Nat) (pl : Payload) (u : TxnUse) : Slice :=
  s.originate ⟨s.fc, 0, s.fc, 31, op = OP_WR_NC, ⟨.req, op, 0, 0x7FF, p, 0, false, 0, 0, BitVec.ofNat 48 line, 0, pl⟩, u⟩

/-- Saved entry k is written as 16 bytes with WR_NC. (DEDUCED, log 31) -/
def Slice.saveWrite (s : Slice) (p : Pid) (base k : Nat) (w : Waiter) : Slice :=
  let at' := saveAt base k
  let mask : Payload := BitVec.ofNat 1152 ((2 ^ 16 - 1) * 2 ^ at'.2)
  let data : Payload := BitVec.ofNat 1152 ((w.view0.toNat + w.view1.toNat * 2 ^ 64) * 2 ^ (128 + 8 * at'.2))
  s.saveReq OP_WR_NC p at'.1 (mask ||| data) .saveWrite

/-- Entries in park order. -/
def Slice.waitersOf (s : Slice) (p : Nat) : List (Nat × Waiter) :=
  (s.waiters.filter (fun w => w.2.pid.toNat = p && !(s.leaving w.1))).foldr insWaiter []

/-- A save goes on once p holds no drain-tracker entry: every entry is written, and freed without an answer. -/
def Slice.saveGo (s : Slice) : Slice :=
  match s.save with
  | none => s
  | some o =>
    let p := o.pid.toNat
    if o.restore || !o.waits || s.drains.any (fun d => d.2.busy && d.2.pid.toNat = p) then s
    else
      let l := s.waitersOf p
      let s := ((List.range l.length).zip l).foldl (fun (t : Slice) (e : Nat × Nat × Waiter) =>
        (t.saveWrite o.pid o.base e.1 e.2.2).setWaiter e.2.1 Waiter.none) s
      if l = [] then s.saveEnd 0 0 else { s with save := some { o with waits := false, moved := l.length, left := l.length } }

/-- The next entry of a restore is read, or the restore ends. (DEDUCED, log 31) -/
def Slice.restoreNext (s : Slice) : Slice :=
  match s.save with
  | none => s
  | some o =>
    if o.total ≤ o.moved then s.saveEnd 0 o.moved
    else if s.freeWaiter = none then s.saveEnd 1 o.moved
    else s.saveReq OP_RD_NC o.pid (saveAt o.base o.moved).1 0 (.restoreRead o.moved)

/-- SY_SAVE_CTRL.START (R219): ignored while BUSY. -/
def Slice.saveCommand (s : Slice) : Slice :=
  let c := SY_SAVE_CTRL
  let op := s.fld c SY_SAVE_CTRL_OP
  let p := s.fld c SY_SAVE_CTRL_PID
  let base := s.fld SY_SAVE_ADDR SY_SAVE_ADDR_ADDR * 1024
  if s.flag c SY_SAVE_CTRL_BUSY || op = 0 || op = 3 then s
  else if !(s.saveArea p base) || (op = 2 && s.ptState p != 2) then s.saveEnd 2 0
  else
    let o : SaveOp := ⟨decide (op = 2), BitVec.ofNat 4 p, base, s.fld c SY_SAVE_CTRL_COUNT, 0, 0, decide (op = 1), 0⟩
    let s := { s.raise c SY_SAVE_CTRL_BUSY with save := some o }
    if op = 1 then s.saveGo else s.restoreNext

/-- A write of the save unit has been answered; `bad` says that the answer was not COMP. -/
def Slice.saveAnswer (s : Slice) (bad : Bool) : Slice :=
  match s.save with
  | none => s
  | some o =>
    let o := { o with left := o.left - 1, code := if bad then 3 else o.code }
    if o.left = 0 then s.saveEnd o.code o.moved else { s with save := some o }

/-- DATA of a restore: the entry joins the table and is re-evaluated by a continuation; an entry of another PID, or of a partition that is no
longer ACTIVE, ends the restore (R219). -/
def Slice.restoreData (s : Slice) (d : Line) : Slice :=
  match s.save with
  | none => s
  | some o =>
    let b := (saveAt o.base o.moved).2
    let w := waiterOf (BitVec.ofNat 64 (bytesAt d b 8)) (BitVec.ofNat 64 (bytesAt d (b + 8) 8)) (s.fresh + 1)
    if w.pid != o.pid || s.ptState o.pid.toNat != 2 then s.saveEnd 2 o.moved
    else match s.freeWaiter with
      | none => s.saveEnd 1 o.moved
      | some i =>
        let s := ((s.setWaiter i w).tick1).pushCont (objBank w.pin w.obj) (.restored i)
        { s with save := some { o with moved := o.moved + 1 } }.restoreNext

/-! ### Drain continuations (R208) -/

/-- A drain continuation of tracker entry t already waits in a bank. -/
def Slice.drainWaits (s : Slice) (t : Nat) : Bool :=
  let is := fun (r : Req) => decide (r.op = OP_SY_DRAIN) && decide (r.a.txn.toNat = t)
  s.banks.any (fun b => b.2.holdq.any (fun h => is h.req) || b.2.htes.any (fun e => match e.2.req with
    | some r => is r
    | none => false))

/-- The drain of tracker entry t has ended: its releases have left and, in deterministic mode, RELEASE_TICK has come. Its continuation is granted, if it is a candidate
by now and the arbiter of its bank grants it (R208). -/
def Slice.drainEnd (s : Slice) (t : Nat) : Slice :=
  let d := Tbl.at Drain.none s.drains t
  let n := max d.since (s.fc + b2n (d.tick != 0 && decide (s.count.toNat = d.tick) && decide (s.frac < 2)))
  let bk := objBank d.pin d.obj
  if !d.busy || d.left != 0 || decide (s.count.toNat < d.tick) || s.drainWaits t then s
  else if s.awake (bk / 8) && (decide (s.slotFc < n) || !(s.innerGranted bk 2)) then s
  else (s.internalOp (syReq OP_SY_DRAIN d.pin d.pid.toNat d.obj t 0 s.fc) n 2).saveGo

end Sys2Proof.Machine
end

