-- ==== Sys2Proof/Machine/Launch.lean ====
section
/-! DEFINITION. The launch slot and its actions (spec 09_determinism.md R228, R234, R235), clock crossings (R237), and the regulation window
(11_bandwidth.md R275 to R280). -/

namespace Sys2Proof.Machine

/-! ### The regulation window (R275 to R280) -/

/-- MIN of a class. -/
def Slice.bwMin (s : Slice) (c : Nat) : Nat := s.fld (BW_MIN (c / 8)) ⟨8 * (c % 8), 8⟩

/-- The weight of a class. -/
def Slice.bwWt (s : Slice) (c : Nat) : Nat := s.fld (BW_WT (c / 16)) ⟨4 * (c % 16), 4⟩

/-- Values for each of the 32 classes. -/
def perClass (f : Nat → Nat) : List Nat := (List.range 32).map f

/-- The egress guarantees of a window start (R276). -/
def Slice.loadG (s : Slice) : Slice :=
  let g := perClass (fun c => if s.flag BW_CTRL BW_CTRL_REG_EN then s.bwMin c else 0)
  (List.range 4).foldl (fun t x =>
    let e := Tbl.at Egress.init t.eports x
    { t with eports := Tbl.put Egress.init t.eports x { e with g := g } }) s

/-- The fill budget L (R279). -/
def Slice.bwLines (s : Slice) : Nat := min 256 (s.fld BW_MEM BW_MEM_LINES)

/-- The base guarantee of a class (R279). -/
def Slice.fillBase (s : Slice) (c : Nat) : Nat := s.bwMin c * s.bwLines / 256

/-- The sum of the base guarantees. -/
def Slice.fillSum (s : Slice) : Nat := ((List.range 32).map s.fillBase).sum

/-- The allowances after a window that was not short. -/
def Slice.fillLoad (s : Slice) (h : Nat) : Slice := s.setFillReg h ⟨perClass s.fillBase, s.bwLines - s.fillSum, 0, false⟩

/-- The allowances after a short window with D fills sunk. -/
def Slice.fillShort (s : Slice) (h d : Nat) : Slice :=
  let f := perClass (fun c => s.fillBase c * d / s.fillSum)
  s.setFillReg h ⟨f, d - f.sum, 0, false⟩

/-- The fields of a half in BW_SCALE and BW_STATUS. -/
def scaleG (h : Nat) : Fld := if h = 0 then BW_SCALE_H0_G else BW_SCALE_H1_G
def scaleD (h : Nat) : Fld := if h = 0 then BW_SCALE_H0_D else BW_SCALE_H1_D
def oversub (h : Nat) : Fld := if h = 0 then BW_STATUS_OVERSUB_H0 else BW_STATUS_OVERSUB_H1

/-- A miss still waits in a half for the full fill buffer, so that the new window counts it too (R280). -/
def Slice.stillStarved (s : Slice) (h : Nat) : Slice :=
  if s.fillFull h && (List.range 8).any (fun b => (s.bank (h * 8 + b)).holdq.any (fun e => e.wait = .fill) || (s.bank (h * 8 + b)).conts.any (fun c => c.wait = some .fill))
  then s.setFillReg h { s.fillReg h with starved := true } else s

/-- A window of a half ends, and the next one starts (R279, R280). -/
def Slice.fillWindow (s : Slice) (h : Nat) : Slice :=
  let r := s.fillReg h
  let g := s.fillSum
  if !(s.fillLimited) then s.setFillReg h ⟨perClass (fun _ => 0), 0, 0, false⟩
  else if decide (r.sunk < g) && r.starved then
    let s := ((s.raise BW_STATUS (oversub h)).bump BW_SHORT BW_SHORT_SHORTFALL (g - r.sunk)).bump BW_SHORT BW_SHORT_WINDOWS 1
    let s := (s.setFld BW_SCALE (scaleG h) g).setFld BW_SCALE (scaleD h) r.sunk
    (s.raiseMgmtIf (s.flag BW_CTRL BW_CTRL_OVERSUB_IRQ_EN)).fillShort h r.sunk
  else s.fillLoad h

/-- The fc of a window: the next one starts when so many have passed (R275). -/
abbrev WINDOW_FC : Nat := 256

/-- A window starts, 256 fc after the one before (R275 to R280). (DESIGN CHOICE, log 7) -/
def Slice.windowStart (s : Slice) : Slice :=
  if s.winFc = WINDOW_FC then { ((((s.fillWindow 0).fillWindow 1).stillStarved 0).stillStarved 1).loadG with winFc := 0 } else s

/-- TIME_BASE restarts the window counter; the window cut short is not a short window. (DEDUCED, log 28) -/
def Slice.windowRestart (s : Slice) : Slice :=
  let t := if s.fillLimited then (s.fillLoad 0).fillLoad 1 else s
  { t.loadG with winFc := 0, damperDue := true }

/-! ### The launch slot (R234, R235) -/

/-- ARM and CANCEL of DG_LAUNCH (R234). A write with ARM while the slot is armed is ignored, and a CANCEL in the launch fc loses. -/
def Slice.launchCmd (s : Slice) (arm cancel : Bool) : Slice :=
  if arm && s.flag DG_LAUNCH DG_LAUNCH_ARMED then s
  else if cancel then (if (s.reg DG_LAUNCH_TICK).toNat ≤ s.count.toNat then s else s.clearF DG_LAUNCH DG_LAUNCH_ARMED)
  else if arm then
    let s := s.raise DG_LAUNCH DG_LAUNCH_ARMED
    if (s.reg DG_LAUNCH_TICK).toNat < s.count.toNat + 1 then (s.raise DG_DET_STATUS DG_DET_STATUS_LAUNCH_LATE).tevt TV_LATE else s
  else s

/-- TIME_BASE (R228): the walk over the replacement bits starts, and the regulation window restarts. (DEDUCED, log 28) -/
def Slice.timeBaseStart (s : Slice) : Slice := { s.windowRestart with timeBase := some s.fc }.startWalk .timeBase

/-- 256 fc after the launch fc of TIME_BASE, every bank arbiter and the register arbiter set ptr := 0 (R228). (DEDUCED, log 28) -/
def Slice.timeBaseEnd (s : Slice) : Slice :=
  match s.timeBase with
  | some l =>
    if s.fc < l + 256 then s
    else
      let t := (List.range 16).foldl (fun t bk => t.modBank bk (fun b => { b with ptr := 0 })) s
      { t with regPtr := 0, timeBase := none }
  | none => s

/-- The launch fc of the armed count (R235). -/
def Slice.launch (s : Slice) : Slice :=
  if !(s.flag DG_LAUNCH DG_LAUNCH_ARMED) || decide (s.count.toNat < (s.reg DG_LAUNCH_TICK).toNat) then s
  else
    let s := s.clearF DG_LAUNCH DG_LAUNCH_ARMED
    let s := if s.flag DG_LAUNCH DG_LAUNCH_TEVT_CLEAR then (s.setReg DG_TEVT 0).clearF DG_TEVT_CNT DG_TEVT_CNT_COUNT else s
    let s := if s.flag DG_LAUNCH DG_LAUNCH_TIME_BASE then s.timeBaseStart else s
    if s.flag DG_LAUNCH DG_LAUNCH_CAPTURE then s.startCapture (BitVec.ofNat 4 (s.fld DG_LAUNCH DG_LAUNCH_PID)) else s

/-! ### Clock crossings (R237) -/

/-- The aligned ingress latency of a port, and its two status bits. -/
def xingLat (p : Nat) : Fld := ⟨4 * p, 4⟩
def xingAligned (p : Nat) : Fld := ⟨4 + p, 1⟩
def xingAsync (p : Nat) : Fld := ⟨8 + p, 1⟩

/-- The latency of a port's egress crossing; 0 while it is not aligned. -/
def Slice.egressLat (s : Slice) (p : Nat) : Nat := Tbl.at 0 s.outLat p

/-- The status bits of a port follow from its two crossings: ALIGNED when both are, ASYNC when one is not (R248). -/
def Slice.xingStatus (s : Slice) (p : Nat) : Slice :=
  let both := s.fld DG_XING (xingLat p) != 0 && s.egressLat p != 0
  (s.setFld DG_DET_STATUS (xingAligned p) (b2n both)).setFld DG_DET_STATUS (xingAsync p) (b2n !both)

/-- A crossing has a latency, or none in asynchronous mode. -/
def Slice.setXing (s : Slice) (p : Nat) (out : Bool) (lat : Nat) : Slice :=
  (if out then { s with outLat := Tbl.put 0 s.outLat p lat } else s.setFld DG_XING (xingLat p) lat).xingStatus p

/-- The latency of a crossing. -/
def Slice.xing (s : Slice) (p : Nat) (out : Bool) : Nat := if out then s.egressLat p else s.fld DG_XING (xingLat p)

/-- An aligned crossing of a port, the egress one or the ingress one, reads a marker gap: it falls back to asynchronous mode (R237). -/
def Slice.markerGap (s : Slice) (p : Port) (out : Bool) : Slice :=
  if s.xing p.val out = 0 then s else (s.setXing p.val out 0).tevt TV_XING

/-- The latency at which a crossing aligns: the first of TARGET to 6 at which the markers arrive in sequence, which the surroundings give; 0 where none does. TARGET
values other than 2 to 6 act as 3 (R237). -/
def Slice.alignedAt (s : Slice) (l : Nat) : Nat :=
  let t0 := s.fld DG_XING DG_XING_TARGET
  let t := if 2 ≤ t0 ∧ t0 ≤ 6 then t0 else 3
  if t ≤ l ∧ l ≤ 6 then l else 0

/-- The two crossings of a port are aligned; `lat` holds the latencies that the surroundings allow, 4 bits a port, the ingress crossings in bits [15:0] and
the egress crossings in bits [31:16]. -/
def Slice.alignPort (s : Slice) (lat : BitVec 32) (p : Nat) : Slice :=
  let s1 := s.setXing p false (s.alignedAt (getF lat ⟨4 * p, 4⟩))
  s1.setXing p true (s.alignedAt (getF lat ⟨16 + 4 * p, 4⟩))

end Sys2Proof.Machine
end

