-- ==== Sys2Proof/Machine/Ring.lean ====
section
/-! DEFINITION. The control-ring stop (spec 15_control_ring.md R344 to R355): the state of the position, packets that leave under credit, packets
applied at a count, and retries. -/

namespace Sys2Proof.Machine

/-! ### The position (R345, R365) -/

/-- RG_STATUS.STOP: 0 CLOSED, 1 LISTEN, 2 OPEN. The rails and slice reset close only a position that has opened its flue (R365). (DEDUCED, log 44) -/
def Slice.stop (s : Slice) : Nat :=
  if s.start.aonReset || s.start.fuseOff then 0
  else if s.start.flueOpen && (!s.start.rails || s.start.sliceReset) then 0
  else if s.start.flueOpen || s.lead then 2 else 1

/-- The position copies packet types marked L (R351). -/
def Slice.listens (s : Slice) : Bool := s.stop != 0

/-- The position copies, applies and modifies packets. -/
def Slice.isOpen (s : Slice) : Bool := s.stop = 2

/-- The ring stop works: it is out of ember reset, and no ring link has failed (R349). -/
def Slice.ringUp (s : Slice) : Bool := !s.start.aonReset && !(s.flag RG_STATUS RG_STATUS_RING_DOWN)

/-! ### Packets that leave (R346 to R350) -/

abbrev RG_BCAST_WR : Nat := 0x01
abbrev RG_IMG_DATA : Nat := 0x02
abbrev RG_AGE_ENTRY : Nat := 0x03
abbrev RG_AGE_COLLECT : Nat := 0x04
abbrev RG_COUNT_SET : Nat := 0x05
abbrev RG_LEVELS : Nat := 0x06
abbrev RG_ACT_SUM : Nat := 0x07
abbrev RG_ATTR_SUM : Nat := 0x08
abbrev RG_KAPPA : Nat := 0x09
abbrev RG_VOFF_MAX : Nat := 0x0A
abbrev RG_ROSTER_PKT : Nat := 0x0B
abbrev RG_ROSTER_SET : Nat := 0x0C
abbrev RG_MODE : Nat := 0x0D
abbrev RG_PING : Nat := 0x0E

/-- DST of a packet to every position. -/
abbrev RG_ALL : Nat := 0x7F

/-- The types that the lead sends in EMBER mode (R351). -/
def emberType (t : Nat) : Bool :=
  t = RG_IMG_DATA || t = RG_AGE_ENTRY || t = RG_COUNT_SET || t = RG_ROSTER_PKT || t = RG_ROSTER_SET || t = RG_MODE || t = RG_PING

/-- The credits a packet needs to start: LEN + 1 at the lead, of which a buffer holds 8 at most; one at any other position (R348). -/
def Slice.ringNeed (s : Slice) (p : RingPkt) : Nat := if s.lead then min 8 (p.flits.length + 1) else 1

/-- The mode allows the packet to leave (R350). -/
def Slice.ringAllows (s : Slice) (p : RingPkt) : Bool :=
  !s.lead || (!s.ring.modeWait && (s.flag RG_STATUS RG_STATUS_MODE || emberType p.typ))

/-- A packet leaves: it takes the credits there are, and the rest of its flits take theirs as they come. (DESIGN CHOICE, log 36) -/
def Slice.ringSend (s : Slice) (p : RingPkt) : Slice :=
  let n := p.flits.length + 1
  let spent := min n s.ring.credits
  let head : BitVec 32 := BitVec.ofNat 32 (p.typ + 64 * p.flits.length + 1024 * p.dst + 131072 * p.arg)
  { s with ring := { s.ring with queue := s.ring.queue.erase p, credits := s.ring.credits - spent, owed := n - spent, out := s.ring.out ++ [p],
                                 last4 := ((head :: p.flits).reverse.take 4).reverse,
                                 cr := s.ring.cr + (if s.lead then 0 else spent), modeWait := s.ring.modeWait || (s.lead && p.typ = RG_MODE) } }

/-- The first packet that may leave does, when the credits are there. -/
def Slice.ringPump1 (s : Slice) : Slice :=
  match s.ring.queue.find? (fun p => s.ringAllows p) with
  | some p => if s.ring.owed = 0 && decide (s.ringNeed p ≤ s.ring.credits) && s.ringUp then s.ringSend p else s
  | none => s

/-- Every packet that may leave does. (DESIGN CHOICE, log 36) -/
def Slice.ringPump (s : Slice) : Slice := s.ring.queue.foldl (fun t _ => t.ringPump1) s

/-- A packet takes its place among those that leave. -/
def Slice.ringPut (s : Slice) (p : RingPkt) : Slice := ({ s with ring := { s.ring with queue := s.ring.queue ++ [p] } }).ringPump

/-- The downstream position returns a credit (R348). (DESIGN CHOICE, log 36) -/
def Slice.ringCredit (s : Slice) : Slice :=
  if 0 < s.ring.owed then ({ s with ring := { s.ring with owed := s.ring.owed - 1, cr := s.ring.cr + b2n (!s.lead) } }).ringPump
  else ({ s with ring := { s.ring with credits := min 8 (s.ring.credits + 1) } }).ringPump

/-- The flits of a 64-bit value, low flit first (R347). -/
def flits2 (w : Word) : List (BitVec 32) := [w.extractLsb' 0 32, w.extractLsb' 32 32]

/-- A packet has arrived whole and sound: the run of failures ends, and any position but the lead passes it on (R346), where CR pulses as its
flits leave, or as the lead removes them (R348). (DESIGN CHOICE, log 36) -/
def Slice.ringTake (s : Slice) (p : RingPkt) (f : Slice → Slice) : Slice :=
  if !s.ringUp then s
  else
    let s := f { s with ring := { s.ring with failures := 0, cr := s.ring.cr + (if s.lead then p.flits.length + 1 else 0) } }
    if s.lead then s else s.ringPut p

/-- A parity error: the flit is dropped, which pulses CR, NAK is pulsed, and the sender replays; eight failures bring the ring down (R349).
(DESIGN CHOICE, log 36, 56) -/
def Slice.ringParity (s : Slice) : Slice :=
  if !s.ringUp then s
  else
    let s := ((s.bump RG_RETRY RG_RETRY_RING 1).tevt TV_RING)
    let s := { s with ring := { s.ring with failures := s.ring.failures + 1, cr := s.ring.cr + 1, nak := s.ring.nak + 1 } }
    if s.ring.failures = 8 then (s.raise RG_STATUS RG_STATUS_RING_DOWN).raiseMgmt else s

/-! ### Packets applied at a count (R352, R355) -/

/-- A count-bearing packet is kept for its launch fc; at or after that fc it is late, and is applied in the next fc. -/
def Slice.ringTimed (s : Slice) (at' : Word) (t : Timed) : Slice :=
  let s := { s with ring := { s.ring with timed := s.ring.timed ++ [t] } }
  if at'.toNat ≤ s.count.toNat then (s.raise RG_STATUS RG_STATUS_LATE).tevt TV_LATE else s

/-- The count at which a packet applies. -/
def Timed.due : Timed → Word
  | .countSet a _ => a
  | .levels _ c => c

/-- The lead sends COUNT_SET: the count becomes v in the launch fc of a (R355). -/
def Slice.sendCountSet (s : Slice) (a v : Word) : Slice := s.ringPut ⟨RG_COUNT_SET, RG_ALL, 0, flits2 a ++ flits2 v⟩

/-- The lead takes the roster (R354): ROSTER with a zero mask. -/
def Slice.sendRoster (s : Slice) : Slice := s.ringPut ⟨RG_ROSTER_PKT, RG_ALL, 0, flits2 0⟩

/-- The lead changes the ring's mode (R350). -/
def Slice.sendMode (s : Slice) (awake : Bool) : Slice := s.ringPut ⟨RG_MODE, RG_ALL, 0, [BitVec.ofNat 32 (b2n awake)]⟩

/-- The mode changes after the packet has passed; the lead changes when it removes the packet (R350). (DESIGN CHOICE, log 36) -/
def Slice.ringMode (s : Slice) (awake : Bool) : Slice :=
  let s := s.setFld RG_STATUS RG_STATUS_MODE (b2n awake)
  if s.lead then ({ s with ring := { s.ring with modeWait := false } }).ringPump else s

/-- The lead takes the roster at the command of host software (R354). -/
def Slice.ringRoster (s : Slice) (mask : Word) : Word := if s.isOpen then setF mask ⟨s.id, 1⟩ 1 else mask

/-! ### The home-map check (R24) -/

/-- Some home-map entry names a slice that is absent from the roster. -/
def Slice.mapBad (s : Slice) : Bool :=
  (List.range 1024).any (fun i => !((s.reg RG_ROSTER).getLsbD (Tbl.at 0 s.homeMap i).toNat))

/-- The check of every entry against the roster. -/
def Slice.checkMap (s : Slice) : Slice :=
  let bad := s.mapBad
  let was := s.flag ID_STATUS ID_STATUS_MAP_BAD
  (s.setFld ID_STATUS ID_STATUS_MAP_BAD (b2n bad)).raiseMgmtIf (bad && !was)

/-- The roster is stored, and the map is checked against it (R354, R24). -/
def Slice.storeRoster (s : Slice) (mask : Word) : Slice :=
  let s := (s.setReg RG_ROSTER mask).setFld RG_STATUS RG_STATUS_PRESENT (popcount mask)
  ({ s with start := { s.start with rosterSeen := true } }).checkMap

/-! ### The registers of other slices (R363) -/

/-- PING returns to the lead: the ring cycles of its circuit. The spec does not say when the lead sends one. (DESIGN CHOICE, log 36) -/
def Slice.ringPing (s : Slice) : Slice :=
  if s.lead then ({ s with fresh := s.fresh + 1 }).setReg RG_RING_LAT (setF (0 : Word) RG_RING_LAT_CIRCUIT (Config.ringCircuit s.fresh).toNat) else s

end Sys2Proof.Machine
end

