-- ==== Sys2Proof/Machine/Governor.lean ====
section
/-! DEFINITION. The rail governor of the lead slice and the dampers of every slice (spec 12_power_governor.md R285 to R306). -/

namespace Sys2Proof.Machine

/-- The governor runs: in the lead, READY, enabled, its steward not halted (R379, R383, R307). -/
def Slice.govRuns (s : Slice) : Bool :=
  s.lead && s.ready && s.flag PG_CTRL PG_CTRL_GOV_EN && !(s.flag NV_STEWARD NV_STEWARD_HALT)

/-- A field where 0 acts as 1. -/
def atLeast1 (n : Nat) : Nat := if n = 0 then 1 else n

/-! ### The telemetry frame (R286, R287) -/

/-- The field of a frame of bytes. -/
def frameWord (l : List Byte) (start : Nat) : Word := BitVec.ofNat 64 (ofLeBytes ((l.drop start).take 8))

abbrev TF_SYNC : Fld := ⟨0, 8⟩
abbrev TF_TEMP : Fld := ⟨8, 8⟩
abbrev TF_NRAIL : Fld := ⟨16, 4⟩
abbrev TF_SEQ : Fld := ⟨20, 12⟩
abbrev TF_RAIL : Fld := ⟨0, 3⟩
abbrev TF_CURRENT : Fld := ⟨8, 16⟩
abbrev TF_VOLT : Fld := ⟨24, 12⟩
abbrev TF_IPEAK : Fld := ⟨36, 16⟩

/-- The records of a frame. -/
def frameRecords (l : List Byte) : List Word :=
  (List.range (getF (frameWord l 0) TF_NRAIL)).map (fun i => frameWord l (8 + 8 * i))

/-- PG_RAIL_CFG.VALID of rail r. -/
def Slice.railValid (s : Slice) (r : Nat) : Bool := s.flag (PG_RAIL_CFG r) PG_RAIL_CFG_VALID

/-- The valid rails. -/
def Slice.rails (s : Slice) : List Nat := (List.range 8).filter s.railValid

/-- The frame is accepted (R287): its form, its CRC, and exactly one record for every valid rail. -/
def Slice.frameGood (s : Slice) (l : List Byte) : Bool :=
  let h := frameWord l 0
  let n := getF h TF_NRAIL
  let body := 8 + 8 * n
  let named := (frameRecords l).map (fun w => getF w TF_RAIL)
  decide (l.length = body + 4) && getF h TF_SYNC = 0xA5 && decide (ofLeBytes (l.drop body) = (crc32 (l.take body)).toNat) && n != 0
    && named.all s.railValid && decide (named.Nodup) && s.rails.all (fun r => named.contains r)

/-! ### Measurements of a rail -/

/-- I_IDLE, I_LIMIT, I_PEAK and KIND of a rail. -/
def Slice.railIdle (s : Slice) (r : Nat) : Nat := s.fld (PG_RAIL_CFG r) PG_RAIL_CFG_I_IDLE
def Slice.railLimit (s : Slice) (r : Nat) : Nat := s.fld (PG_RAIL_CFG r) PG_RAIL_CFG_I_LIMIT
def Slice.railPeak (s : Slice) (r : Nat) : Nat := s.fld (PG_RAIL_CFG r) PG_RAIL_CFG_I_PEAK
def Slice.railKind (s : Slice) (r : Nat) : Nat := s.fld (PG_RAIL_CFG r) PG_RAIL_CFG_KIND

/-- CURRENT, IPEAK and VOLT of the last accepted frame. -/
def Slice.railCurrent (s : Slice) (r : Nat) : Nat := s.fld (PG_RAIL_MEAS r) PG_RAIL_MEAS_CURRENT
def Slice.railIpeak (s : Slice) (r : Nat) : Nat := s.fld (PG_RAIL_MEAS r) PG_RAIL_MEAS_IPEAK
def Slice.railVolt (s : Slice) (r : Nat) : Nat := s.fld (PG_RAIL_MEAS r) PG_RAIL_MEAS_VOLT

/-- The records of an accepted frame are kept in PG_RAIL_MEAS. -/
def Slice.keepMeas (s : Slice) (l : List Byte) : Slice :=
  let seq := getF (frameWord l 0) TF_SEQ
  (frameRecords l).foldl (fun t w =>
    t.setReg (PG_RAIL_MEAS (getF w TF_RAIL)) (setF (setF (setF (setF (0 : Word) PG_RAIL_MEAS_SEQ seq) PG_RAIL_MEAS_IPEAK (getF w TF_IPEAK))
      PG_RAIL_MEAS_VOLT (getF w TF_VOLT)) PG_RAIL_MEAS_CURRENT (getF w TF_CURRENT))) s

/-! ### Feedback and thermal levels (R288, R289) -/

/-- The levels as last computed. -/
def Slice.lFb (s : Slice) : Nat := s.fld PG_STATUS PG_STATUS_L_FB
def Slice.lTh (s : Slice) : Nat := s.fld PG_STATUS PG_STATUS_L_TH
def Slice.lFf (s : Slice) : Nat := s.fld PG_STATUS PG_STATUS_L_FF

/-- cand of R288. -/
def cand (lfb meas lim idle : Nat) : Nat :=
  if meas ≤ lim ∨ meas ≤ idle then 0
  else min 15 (16 - ((((16 - lfb : Nat) : Int) * ((lim : Int) - (idle : Int))).fdiv ((meas - idle : Nat) : Int))).toNat

/-- The largest candidate over all rails and both limits; a limit of 0 is disabled. -/
def Slice.maxCand (s : Slice) : Nat :=
  s.rails.foldl (fun m r =>
    let a := if s.railLimit r = 0 then 0 else cand s.lFb (s.railCurrent r) (s.railLimit r) (s.railIdle r)
    let b := if s.railPeak r = 0 then 0 else cand s.lFb (s.railIpeak r) (s.railPeak r) (s.railIdle r)
    max m (max a b)) 0

/-- Every valid rail is below PCT of both limits (R289). -/
def Slice.belowPct (s : Slice) (pct : Nat) : Bool :=
  s.rails.all (fun r => (s.railLimit r = 0 || decide (s.railCurrent r * 256 ≤ s.railLimit r * pct))
    && (s.railPeak r = 0 || decide (s.railIpeak r * 256 ≤ s.railPeak r * pct)))

/-- The feedback level after an accepted frame. -/
def Slice.feedback (s : Slice) : Slice :=
  let m := s.maxCand
  if s.lFb < m then { s.setFld PG_STATUS PG_STATUS_L_FB m with gov := { s.gov with fbRun := 0, fbReason := 0 } }
  else if s.belowPct (s.fld PG_CTRL PG_CTRL_REL_PCT) then
    if atLeast1 (s.fld PG_CTRL PG_CTRL_REL_HOLD) ≤ s.gov.fbRun + 1 then
      { s.setFld PG_STATUS PG_STATUS_L_FB (s.lFb - 1) with gov := { s.gov with fbRun := 0 } }
    else { s with gov := { s.gov with fbRun := s.gov.fbRun + 1 } }
  else { s with gov := { s.gov with fbRun := 0 } }

/-- TEMP ≤ T_LIMIT − T_HYST. -/
def Slice.cool (s : Slice) (temp : Nat) : Bool := decide (temp + s.fld PG_CTRL PG_CTRL_T_HYST ≤ s.fld PG_CTRL PG_CTRL_T_LIMIT)

/-- The thermal level after an accepted frame; a T_LIMIT of 0 disables the test. (DEDUCED, log 34) -/
def Slice.thermal (s : Slice) (temp : Nat) : Slice :=
  let lim := s.fld PG_CTRL PG_CTRL_T_LIMIT
  if lim = 0 then s
  else if lim ≤ temp then { s.setFld PG_STATUS PG_STATUS_L_TH (min 15 (s.lTh + 1)) with gov := { s.gov with thRun := 0 } }
  else if s.cool temp then
    if atLeast1 (s.fld PG_CTRL PG_CTRL_REL_HOLD) ≤ s.gov.thRun + 1 then
      { s.setFld PG_STATUS PG_STATUS_L_TH (s.lTh - 1) with gov := { s.gov with thRun := 0 } }
    else { s with gov := { s.gov with thRun := s.gov.thRun + 1 } }
  else { s with gov := { s.gov with thRun := 0 } }

/-! ### Phases and feedforward (R296 to R299) -/

/-- An invalid phase-table entry. -/
def Phase.none : Phase := ⟨false, false, 0, 0, [], 0, 0⟩

/-- Phase-table entry i. -/
def Slice.phase (s : Slice) (i : Nat) : Phase := Tbl.at Phase.none s.gov.phases i

/-- Store phase-table entry i. -/
def Slice.setPhase (s : Slice) (i : Nat) (e : Phase) : Slice :=
  { s with gov := { s.gov with phases := Tbl.put Phase.none s.gov.phases i e } }

/-- The phase announced for a partition; 0xFFFF where none is (R296). -/
def Slice.announcedOf (s : Slice) (p : Nat) : Nat := Tbl.at 0xFFFF s.gov.announced p

/-- The hints are sampled, in the order written. (DEDUCED, log 34) -/
def Slice.sampleHints (s : Slice) : Slice :=
  { s with gov := { s.gov with announced := s.gov.hints.foldl (fun t h => Tbl.put 0xFFFF t h.1 h.2) s.gov.announced, hints := [] } }

/-- The partitions with an announced phase. -/
def Slice.running (s : Slice) : List Nat := (List.range 16).filter (fun p => s.announcedOf p != 0xFFFF)

/-- The entry of a partition and phase with ANY = 0. -/
def Slice.phaseOwn (s : Slice) (p h : Nat) : Option Nat :=
  firstBelow 64 (fun i => (s.phase i).valid && !(s.phase i).any && (s.phase i).pid.toNat = p && (s.phase i).phase = h)

/-- The slot of a new entry: an invalid one, or the one with ANY = 0 and the oldest LAST_USE. -/
def Slice.phaseSlot (s : Slice) : Option Nat :=
  match firstBelow 64 (fun i => !(s.phase i).valid) with
  | some i => some i
  | none => (List.range 64).foldl (fun b i =>
      if (s.phase i).any then b
      else match b with
        | none => some i
        | some j => if (s.phase i).lastUse < (s.phase j).lastUse then some i else some j) none

/-- The level-0 draw of a new entry: I_LIMIT − I_IDLE of the lowest-numbered valid rail of the kind. A kind without a rail, or a difference below 0,
is a value that R297 does not state. -/
def Slice.newDraw (s : Slice) (k : Nat) : Nat :=
  match s.rails.find? (fun r => s.railKind r = k) with
  | some r => if s.railIdle r ≤ s.railLimit r then s.railLimit r - s.railIdle r else (Config.drawOpen k s.fresh).toNat
  | none => (Config.drawOpen k s.fresh).toNat

/-- The entry of a partition and phase, made where there is none (R297). -/
def Slice.phaseEntry (s : Slice) (p h w : Nat) : Slice :=
  match s.phaseOwn p h with
  | some _ => s
  | none =>
    let d := match firstBelow 64 (fun i => (s.phase i).valid && (s.phase i).any && (s.phase i).phase = h) with
      | some i => (s.phase i).d
      | none => (List.range 3).map s.newDraw
    match s.phaseSlot with
    | some i => ({ s with fresh := s.fresh + 1 }).setPhase i ⟨true, false, BitVec.ofNat 4 p, h, d, 0, w⟩
    | none => s

/-- Entries for every running phase. -/
def Slice.phaseEntries (s : Slice) (w : Nat) : Slice := s.running.foldl (fun t p => t.phaseEntry p (t.announcedOf p) w) s

/-- The learned draw of a partition for a kind. -/
def Slice.drawOf (s : Slice) (p k : Nat) : Nat :=
  match s.phaseOwn p (s.announcedOf p) with
  | some i => (s.phase i).d.getD k 0
  | none => 0

/-- The sum of the draws of a kind. -/
def Slice.drawSum (s : Slice) (k : Nat) : Nat := (s.running.map (fun p => s.drawOf p k)).sum

/-- A level meets the feedforward test on every rail (R298). -/
def Slice.ffMeets (s : Slice) (l : Nat) : Bool :=
  s.rails.all (fun r => s.railKind r = 3 || s.railLimit r = 0
    || decide (256 * (16 * s.railIdle r + (16 - l) * s.drawSum (s.railKind r)) ≤ 16 * s.railLimit r * s.fld PG_CTRL PG_CTRL_FF_PCT))

/-- The feedforward level (R298). -/
def Slice.feedforward (s : Slice) : Slice :=
  s.setFld PG_STATUS PG_STATUS_L_FF (if s.running = [] then 0 else (firstBelow 16 s.ffMeets).getD 15)

/-! ### The throttle log (R306) -/

abbrev R_CURRENT : Nat := 0
abbrev R_THERMAL : Nat := 1
abbrev R_DROOP : Nat := 2
abbrev R_GROUP : Nat := 3
abbrev R_TELEMETRY : Nat := 4

/-- Entry i of the throttle log. -/
def Slice.logWord (s : Slice) (i : Nat) : Word × Word := Tbl.at (0, 0) s.gov.logWords i

/-- An episode opens. -/
def Slice.openEpisode (s : Slice) (reason pid : Nat) (loc : Bool) (level start : Nat) : Slice :=
  let i := s.fld PG_LOG_STATUS PG_LOG_STATUS_HEAD
  let n := s.fld PG_LOG_STATUS PG_LOG_STATUS_COUNT
  let w1 := setF (setF (setF (setF (setF (setF (setF (0 : Word) ⟨0, 32⟩ 0xFFFFFFFF) ⟨32, 4⟩ level) ⟨36, 4⟩ pid) ⟨40, 3⟩ reason) ⟨43, 1⟩ (b2n loc))
    ⟨44, 1⟩ 1) ⟨63, 1⟩ 1
  let s := if (s.logWord i).2.getLsbD 63 then s.raise PG_LOG_STATUS PG_LOG_STATUS_OVF else s
  let kept := mapIf s.gov.episodes (fun e => e.slot = i) (fun e : Episode => { e with slot := 32 })
  let s := { s with gov := { s.gov with logWords := Tbl.put (0, 0) s.gov.logWords i (BitVec.ofNat 64 start, w1),
                                        episodes := kept ++ [Episode.mk reason (BitVec.ofNat 4 pid) loc i] } }
  ((s.setFld PG_LOG_STATUS PG_LOG_STATUS_HEAD ((i + 1) % 32)).setFld PG_LOG_STATUS PG_LOG_STATUS_COUNT (min 32 (n + 1))).raiseMgmtIf
    (s.flag PG_CTRL PG_CTRL_LOG_IRQ_EN)

/-- Change word 1 of the log entry of an open episode, unless it has been overwritten. -/
def Slice.editEpisode (s : Slice) (e : Episode) (f : Word × Word → Word × Word) : Slice :=
  if e.slot < 32 then { s with gov := { s.gov with logWords := Tbl.put (0, 0) s.gov.logWords e.slot (f (s.logWord e.slot)) } } else s

/-- The ticks from START to the close, or all ones beyond range. -/
def episodeTicks (start stop : Nat) : Nat := if stop - start < 0xFFFFFFFF then stop - start else 0xFFFFFFFF

/-- The level of a reason is `level` from count `start` on: its episode opens, rises or closes. (DEDUCED, log 34) -/
def Slice.episode (s : Slice) (reason pid : Nat) (loc : Bool) (level start : Nat) : Slice :=
  match s.gov.episodes.find? (fun e => e.reason = reason && e.pid.toNat = pid && e.local_ = loc) with
  | none => if level = 0 then s else s.openEpisode reason pid loc level start
  | some e =>
    if level = 0 then
      let t := s.editEpisode e (fun w => (w.1, setF (setF w.2 ⟨0, 32⟩ (episodeTicks w.1.toNat start)) ⟨44, 1⟩ 0))
      { t with gov := { t.gov with episodes := t.gov.episodes.erase e } }
    else s.editEpisode e (fun w => (w.1, setF w.2 ⟨32, 4⟩ (max level (getF w.2 ⟨32, 4⟩))))

/-! ### Effective levels (R290, R291, R301, R302) -/

/-- The valid group entry of a partition. -/
def Slice.groupOf (s : Slice) (p : Nat) : Option Nat :=
  firstBelow 4 (fun g => s.flag (PG_GROUP g) PG_GROUP_VALID && s.fld (PG_GROUP g) PG_GROUP_PID = p)

/-- The exchange of a group entry. -/
def Slice.group (s : Slice) (g : Nat) : Group := Tbl.at Group.idle s.gov.groups g

/-- Store the exchange of a group entry. -/
def Slice.setGroup (s : Slice) (g : Nat) (v : Group) : Slice :=
  { s with gov := { s.gov with groups := Tbl.put Group.idle s.gov.groups g v } }

/-- L_grp of an entry at a count: the level that waits for its own count, from then on, or the one applied (R301). -/
def Slice.lGrp (s : Slice) (g c : Nat) : Nat :=
  let v := s.group g
  if v.next = 0 || decide (c < v.boundary + s.fld (PG_GROUP g) PG_GROUP_GLEAD) then s.fld (PG_GSTAT g) PG_GSTAT_L_GRP else v.next - 1

/-- The last of a list of counted values whose count has come. -/
def lastBy {α : Type} (d : α) (c : Nat) (at' : α → Nat) (l : List α) : α := l.foldl (fun b e => if at' e ≤ c then e else b) d

/-- The lead's own levels at a count. -/
def Slice.ownAt (s : Slice) (c : Nat) : OwnLevels := lastBy ⟨0, 0, 0, R_CURRENT⟩ c OwnLevels.count s.gov.own

/-- L_eff of a partition at a count (R291, R302). -/
def Slice.effective (s : Slice) (c p : Nat) : Nat :=
  let o := s.ownAt c
  if !(s.ptActive p) then 0
  else match s.groupOf p with
    | none => max o.clamp o.ff
    | some g => max (s.lGrp g c) o.clamp

/-- Every effective level at a count, as in PG_LEVEL. -/
def Slice.effectives (s : Slice) (c : Nat) : Word :=
  (List.range 16).foldl (fun w p => setF w ⟨4 * p, 4⟩ (s.effective c p)) (0 : Word)

/-- The levels broadcast for a count. -/
def Slice.planAt (s : Slice) (c : Nat) : Word := (lastBy (0, 0) c Prod.fst s.gov.plan).2

/-- A value takes its place by its count in a list, and that of an equal one. -/
def putBy {α : Type} (at' : α → Nat) (v : α) (l : List α) : List α :=
  l.filter (fun e => decide (at' e < at' v)) ++ v :: l.filter (fun e => decide (at' v < at' e))

/-- What a list of counted values still says at the present count and after it. -/
def fromNow {α : Type} (now : Nat) (at' : α → Nat) (l : List α) : List α :=
  l.filter (fun e => decide (now < at' e) || !(l.any (fun d => decide (at' e < at' d) && decide (at' d ≤ now))))

/-- The counts at which levels change from a count on, in ascending order: the lead's own and those of the rope groups. -/
def Slice.levelCounts (s : Slice) (c : Nat) : List Nat :=
  let own := (s.gov.own.map OwnLevels.count).filter (fun x => decide (s.count.toNat < x))
  let grp := ((List.range 4).filter (fun g => (s.group g).next != 0)).map (fun g => (s.group g).boundary + s.fld (PG_GROUP g) PG_GROUP_GLEAD)
  ((own ++ grp).filter (fun x => decide (c < x))).foldl (fun l x => putBy (fun n => n) x l) [c]

/-- The lead broadcasts the levels of a count (R291). -/
def Slice.sendLevelsAt (s : Slice) (c : Nat) : Slice :=
  let w := s.effectives c
  ({ s with gov := { s.gov with plan := putBy Prod.fst (c, w) (fromNow s.count.toNat Prod.fst s.gov.plan) } }).ringPut
    ⟨RG_LEVELS, RG_ALL, 0, flits2 w ++ flits2 (BitVec.ofNat 64 c)⟩

/-- The lead broadcasts the levels with their apply count when any of them changes at a count, and after it those of every later count that waits, which
would otherwise undo them (R291, R301). (DEDUCED, log 34) -/
def Slice.sendLevels (s : Slice) (c : Nat) : Slice :=
  (s.levelCounts c).foldl (fun t n => if t.effectives n = t.planAt n && decide (n = c || t.gov.plan = s.gov.plan) then t else t.sendLevelsAt n) s

/-- The apply count of the window that ended last (R290). -/
def Slice.applyCount (s : Slice) : Nat :=
  100 * (s.gov.window + 1) + max 150 (min 200 (s.fld PG_CTRL PG_CTRL_APPLY_OFF))

/-- The levels as last computed are those of a count on, and are broadcast (R290, R291). The reason of a clamp is that of the level it applies. -/
def Slice.decideLevels (s : Slice) (c : Nat) : Slice :=
  let o : OwnLevels := ⟨c, max s.lFb s.lTh, s.lFf, if s.lFb < s.lTh then R_THERMAL else s.gov.fbReason⟩
  ({ s with gov := { s.gov with own := putBy OwnLevels.count o (fromNow s.count.toNat OwnLevels.count s.gov.own) } }).sendLevels c

/-- The level of a local clamp: the lead's own level at a count, when it exceeds that of the group (R302). -/
def Slice.localLevel (s : Slice) (g c : Nat) : Nat := if s.lGrp g c < (s.ownAt c).clamp then (s.ownAt c).clamp else 0

/-- The episodes of local clamps, of every reason, at a count (R302, R306). -/
def Slice.logLocal (s : Slice) (g c : Nat) : Slice :=
  [R_CURRENT, R_THERMAL, R_TELEMETRY].foldl (fun u r =>
    u.episode r (u.fld (PG_GROUP g) PG_GROUP_PID) true (if r = (u.ownAt c).reason then u.localLevel g c else 0) c) s

/-- An edge of REFCLK at the lead: local clamps come and go with the levels of the count, and the episodes of a partition that is in no valid group any
more close (R302, R306). (DEDUCED, log 34) -/
def Slice.logGroups (s : Slice) : Slice :=
  if !s.govRuns then s
  else
    let c := s.count.toNat
    let t := (List.range 4).foldl (fun t g => if t.flag (PG_GROUP g) PG_GROUP_VALID then t.logLocal g c else t) s
    (t.gov.episodes.filter (fun e => (e.reason = R_GROUP || e.local_) && (t.groupOf e.pid.toNat).isNone)).foldl
      (fun u e => u.episode e.reason e.pid.toNat e.local_ 0 c) t

/-- The lead's episodes after a change of its levels, from a count on. -/
def Slice.logLevels (s : Slice) (c : Nat) : Slice :=
  let fb := fun (r : Nat) => if s.gov.fbReason = r then s.lFb else 0
  ((s.episode R_CURRENT 0 false (max (fb R_CURRENT) s.lFf) c).episode R_TELEMETRY 0 false (fb R_TELEMETRY) c).episode R_THERMAL 0 false s.lTh c

/-! ### Boost (R300) -/

/-- What boost asks of a window. -/
def Slice.boostMeets (s : Slice) (temp : Nat) : Bool :=
  s.effectives s.applyCount = 0 && s.rails.all (fun r => decide (s.railCurrent r * 256 ≤ s.railLimit r * s.fld PG_CTRL PG_CTRL_BOOST_PCT)) && s.cool temp
    && (List.range 4).all (fun g => !(s.flag (PG_GROUP g) PG_GROUP_VALID))

/-- BOOST_REQ after a window. (DEDUCED, log 34) -/
def Slice.boost (s : Slice) (ok : Bool) : Slice :=
  if s.flag PG_CTRL PG_CTRL_FIXED_FREQ || !(s.flag PG_CTRL PG_CTRL_BOOST_EN) || !ok then
    { s with gov := { s.gov with boostRun := 0, boostReq := false } }
  else
    let n := s.gov.boostRun + 1
    { s with gov := { s.gov with boostRun := n, boostReq := s.gov.boostReq || decide (atLeast1 (s.fld PG_CTRL PG_CTRL_BOOST_HOLD) ≤ n) } }

/-- With FIXED_FREQ = 1, BOOST_EN = 0 or GOV_EN = 0 no boost is requested (R300). -/
def Slice.boostStop (s : Slice) : Slice :=
  if s.flag PG_CTRL PG_CTRL_FIXED_FREQ || !(s.flag PG_CTRL PG_CTRL_BOOST_EN) || !(s.flag PG_CTRL PG_CTRL_GOV_EN) then
    { s with gov := { s.gov with boostRun := 0, boostReq := false } }
  else s

/-- A group entry that is not valid has no exchange under way. -/
def Slice.groupStop (s : Slice) (g : Nat) : Slice := if s.flag (PG_GROUP g) PG_GROUP_VALID then s else s.setGroup g Group.idle

/-! ### One window -/

/-- The window of a frame has not yet been decided, and its deadline has not passed (R285). -/
def Slice.frameInTime (s : Slice) : Bool := !s.gov.done && decide (s.count.toNat % 100 < 80)

/-- An activity-sum token starts (R305). -/
def Slice.startSum (s : Slice) : Slice :=
  let e := s.rails.map (fun r => (r, s.railCurrent r, s.railVolt r))
  ({ s with gov := { s.gov with energy := e, energyWin := s.gov.window } }).ringPut
    ⟨RG_ACT_SUM, RG_ALL, s.gov.window % 2 ^ 15, flits2 0 ++ flits2 0 ++ flits2 0⟩

/-- An accepted frame (R287 to R291, R296 to R300, R305). -/
def Slice.acceptFrame (s : Slice) (l : List Byte) : Slice :=
  let temp := getF (frameWord l 0) TF_TEMP
  let s := (s.keepMeas l).setFld PG_STATUS PG_STATUS_TEMP temp
  let s := { s.bump PG_TEL_CNT PG_TEL_CNT_GOOD 1 with gov := { s.gov with done := true, missRun := 0 } }
  let s := ((((s.sampleHints.feedback).thermal temp).phaseEntries s.gov.window).feedforward)
  let c := s.applyCount
  let s := (s.decideLevels c).logLevels c
  (s.boost (s.boostMeets temp)).startSum

/-- A telemetry frame arrives (R286, R287). A frame that is rejected changes nothing: its window is missed at the deadline. (DEDUCED, log 34) -/
def Slice.telemetry (s : Slice) (l : List Byte) : Slice :=
  if s.govRuns && s.frameInTime && s.frameGood l then s.acceptFrame l else s

/-- The deadline of a window without an accepted frame (R287). -/
def Slice.missedWindow (s : Slice) : Slice :=
  if !s.govRuns || s.gov.done then s
  else
    let s := { s.bump PG_TEL_CNT PG_TEL_CNT_BAD 1 with gov := { s.gov with done := true, missRun := s.gov.missRun + 1, fbRun := 0, thRun := 0 } }
    let s := s.boost false
    if s.gov.missRun < atLeast1 (s.fld PG_CTRL PG_CTRL_TEL_MISS_MAX) then s
    else
      let fl := s.fld PG_CTRL PG_CTRL_FAILSAFE_LEVEL
      let s := if s.lFb < fl then { s.setFld PG_STATUS PG_STATUS_L_FB fl with gov := { s.gov with fbReason := R_TELEMETRY } } else s
      let s := (s.raiseMgmtIf (!(s.flag PG_STATUS PG_STATUS_TEL_FAIL))).raise PG_STATUS PG_STATUS_TEL_FAIL
      (s.decideLevels s.applyCount).logLevels s.applyCount

/-- TEL_SYNC is pulsed in the launch fc of every count that is a multiple of 100 (R285). -/
def Slice.telSync (s : Slice) : Slice :=
  if s.lead && !s.start.aonReset && s.count.toNat % 100 = 0 then { s with pins := { s.pins with telSync := 1 } } else s

/-- A window ends at a count that is a multiple of 100: the activity of the window is set aside (R285, R304). -/
def Slice.windowEnd (s : Slice) : Slice :=
  { s with gov := { s.gov with window := s.count.toNat / 100 - 1, done := false, windowActivity := s.gov.activity, activity := [],
                               windowLevels := s.gov.levels, windowClamp := s.gov.clampUsed, clampUsed := s.gov.clamp } }

/-! ### Damper writes (R292, R295) -/

/-- The payload of a damper write. -/
def damperWord (level pid : Nat) (immediate : Bool) (tick : Nat) : Word :=
  setF (setF (setF (setF (0 : Word) ⟨0, 4⟩ level) ⟨4, 4⟩ pid) ⟨8, 1⟩ (b2n immediate)) ⟨16, 48⟩ tick

/-- The mapped cores that this slice dampens, in ascending core ID. -/
def Slice.dampCores (s : Slice) : List Nat :=
  (List.range 1024).filter (fun c => decide (s.fld PG_CORES PG_CORES_CORE_LO ≤ c) && decide (c ≤ s.fld PG_CORES PG_CORES_CORE_HI) && s.mapped c)

/-- One damper write for each core. -/
def Slice.queueDamper (s : Slice) (w : Word) : Slice :=
  { s with gov := { s.gov with damperQ := s.gov.damperQ ++ s.dampCores.map (fun c => (c, w)) } }

/-- The first damper write leaves as a CFG_WR under a TXN of R132 (R292). -/
def Slice.damperSend (s : Slice) : Slice :=
  match s.gov.damperQ with
  | [] => s
  | (c, w) :: rest =>
    let s := { s with gov := { s.gov with damperQ := rest } }
    match s.nodeOf c with
    | some n => s.originate ⟨s.fc, 0, s.fc, 31, true, ⟨.req, OP_CFG_WR, 0, BitVec.ofNat 11 n, 0, 0, false, 0, 0,
        BitVec.ofNat 48 (s.fld PG_CORE_REG PG_CORE_REG_ADDR * 8), 0, w.setWidth 1152⟩, .damper⟩
    | none => s

/-- The level of a partition in a LEVELS word. -/
def levelIn (w : Word) (p : Nat) : Nat := getF w ⟨4 * p, 4⟩

/-- LEVELS reaches an OPEN position (R291, R292): the writes to its cores, and the levels kept for their count. (DEDUCED, log 34) -/
def Slice.hearLevels (s : Slice) (w c : Word) : Slice :=
  let s1 := (List.range 16).foldl (fun t p =>
    if levelIn w p = levelIn t.gov.heard p then t else t.queueDamper (damperWord (levelIn w p) p false (c.toNat % 2 ^ 48))) s
  ({ s1 with gov := { s1.gov with heard := w } }).ringTimed c (.levels w c)

/-- New levels take effect at this slice's banks (R291); every change is a timing event. -/
def Slice.applyLevels (s : Slice) (w : Word) : Slice :=
  (List.range 16).foldl (fun t p =>
    let l := if t.ptActive p then levelIn w p else 0
    if l = Tbl.at 0 t.gov.levels p then t
    else ({ t with gov := { t.gov with levels := Tbl.put 0 t.gov.levels p l } }).tevt TV_DAMP) s

/-! ### The droop clamp (R295) -/

/-- A trip of the droop detector. -/
def Slice.droopTrip (s : Slice) : Slice :=
  if s.fld PG_DROOP PG_DROOP_THRESH = 0 || s.gov.clamp then s
  else
    let l := s.fld PG_DROOP PG_DROOP_LEVEL
    let s := { s with gov := { s.gov with clamp := true, clampUsed := true, droopLevel := l } }
    (((s.bump PG_DROOP PG_DROOP_COUNT 1).tevt TV_DROOP).queueDamper (damperWord l 0 true 0)).episode R_DROOP 0 false l s.count.toNat

/-- The clamp ends. -/
def Slice.droopEnd (s : Slice) : Slice :=
  if !s.gov.clamp then s
  else (({ s with gov := { s.gov with clamp := false } }).queueDamper (damperWord 0 0 true 0)).episode R_DROOP 0 false 0 s.count.toNat

/-! ### Energy per partition (R304, R305) -/

/-- A_k[p] of the window set aside. (DEDUCED, log 35) -/
def Slice.actOf (s : Slice) (k p : Nat) : Nat := Tbl.at 0 s.gov.windowActivity (k * 16 + p)

/-- T_k of this slice. -/
def Slice.actTotal (s : Slice) (k : Nat) : Nat := ((List.range 16).map (s.actOf k)).sum

/-- The token names the window that this slice has set aside. -/
def Slice.sameWindow (s : Slice) (win : Nat) : Bool := s.gov.window % 2 ^ 15 = win

/-- A word of a token plus this slice's own total. -/
def Slice.addTotal (s : Slice) (win k : Nat) (w : Word) : Word :=
  if s.isOpen && s.sameWindow win then w + BitVec.ofNat 64 (s.actTotal k) else w

/-- learn of R299 for one kind. -/
def learned (dyn a t l d : Nat) : Int :=
  let x : Int := ((dyn * a * 16 / (t * (16 - l)) : Nat) : Int)
  (d : Int) + (x - (d : Int)).tdiv 8

/-- The current above idle of the rails of a kind in the window under attribution. -/
def Slice.dynOf (s : Slice) (k : Nat) : Nat :=
  ((s.gov.energy.filter (fun e => s.railKind e.1 = k)).map (fun e => e.2.1 - s.railIdle e.1)).sum

/-- A learned draw; one that leaves its 16 bits is a value that R299 does not state. -/
def drawFit (k fresh : Nat) (v : Int) : Nat := if 0 ≤ v ∧ v < 65536 then v.toNat else (Config.drawOpen k fresh).toNat

/-- The entries of the running phases learn (R299). -/
def Slice.learn (s : Slice) (tk : Nat → Nat) : Slice :=
  s.running.foldl (fun t p =>
    match t.phaseOwn p (t.announcedOf p) with
    | none => t
    | some i =>
      let e := t.phase i
      let d := (List.range 3).map (fun k => if tk k = 0 then e.d.getD k 0 else
        drawFit k t.fresh (learned (t.dynOf k) (t.actOf k p) (tk k) (Tbl.at 0 t.gov.windowLevels p) (e.d.getD k 0)))
      ({ t with fresh := t.fresh + 1 }).setPhase i { e with d := d, samples := min 0xFFFF (e.samples + 1), lastUse := t.gov.energyWin }) s

/-- κ of a rail (R305). -/
def kappaOf (volt current idle t : Nat) : Nat :=
  if t = 0 then 0 else min 0xFFFFFFFF ((current * volt - idle * volt) * 2 ^ 16 / t)

/-- κ of each rail of the window under attribution, for the KAPPA packet. -/
def Slice.kappas (s : Slice) (tk : Nat → Nat) : List (BitVec 32) :=
  (List.range 8).map (fun r => match s.gov.energy.find? (fun e => e.1 = r) with
    | some (_, cur, volt) => if s.railKind r = 3 then 0 else BitVec.ofNat 32 (kappaOf volt cur (s.railIdle r) (tk (s.railKind r)))
    | none => 0)

/-- The activity-sum token returns to the lead (R305): the entries learn, and KAPPA is broadcast. `clamped` says that a droop clamp of another slice was
active in the window (R299), which no packet of the spec tells the lead. (DEDUCED, log 34) -/
def Slice.sumBack (s : Slice) (win : Nat) (l m h : Word) (clamped : Bool) : Slice :=
  if s.gov.energyWin % 2 ^ 15 != win || s.gov.energy = [] then s
  else
    let tk := fun (k : Nat) => if k = 0 then l.toNat else if k = 1 then m.toNat else h.toNat
    let ks := s.kappas tk
    let s := if s.gov.windowClamp || clamped then s else s.learn tk
    s.ringPut ⟨RG_KAPPA, RG_ALL, win, ks⟩

/-- A residue gains energy, and whole µJ move to its register. -/
def Slice.addEnergy (s : Slice) (key reg e : Nat) : Slice :=
  let r := Tbl.at 0 s.gov.residue key + e
  let s := { s with gov := { s.gov with residue := Tbl.put 0 s.gov.residue key (r % 10000) } }
  s.setFld reg PG_ENERGY_UJ (satAdd (2 ^ 48 - 1) (s.fld reg PG_ENERGY_UJ) (r / 10000))

/-- e of a partition and rail (R305). (DEDUCED, log 35) -/
def Slice.energyOf (s : Slice) (ks : BitVec 256) (p r : Nat) : Nat :=
  if s.railValid r && s.railKind r != 3 then getF ks ⟨32 * r, 32⟩ * s.actOf (s.railKind r) p / 2 ^ 16 else 0

/-- The energy of a partition in the window. -/
def Slice.energySum (s : Slice) (ks : BitVec 256) (p : Nat) : Nat := ((List.range 8).map (s.energyOf ks p)).sum

/-- KAPPA reaches an OPEN position (R305). (DEDUCED, log 35) -/
def Slice.takeKappa (s : Slice) (win : Nat) (ks : BitVec 256) : Slice :=
  if !(s.sameWindow win) then { s with gov := { s.gov with attributed := 0 } }
  else
    let total := ((List.range 16).map (s.energySum ks)).sum
    let t := (List.range 16).foldl (fun t p => t.addEnergy p (PG_ENERGY p) (s.energySum ks p)) s
    { t with gov := { t.gov with attributed := total } }

/-- The attributed energy of this slice is added to a passing token. -/
def Slice.addAttr (s : Slice) (e : Word) : Word := if s.isOpen then e + BitVec.ofNat 64 s.gov.attributed else e

/-- ATTR_SUM returns to the lead: the rest of the window's energy is unattributed (R305). -/
def Slice.attrBack (s : Slice) (win : Nat) (e : Word) : Slice :=
  if s.gov.energyWin % 2 ^ 15 != win || s.gov.energy = [] then s
  else
    let total := (s.gov.energy.map (fun x => x.2.1 * x.2.2)).sum
    ({ s with gov := { s.gov with energy := [] } }).addEnergy 16 PG_ENERGY_UNATTR (total - e.toNat)

/-! ### Group-locked damping (R301 to R303) -/

/-- This host's board-ring ID. -/
def Slice.hostId (s : Slice) : Nat := s.fld RG_BR_CFG RG_BR_CFG_HOST_ID

/-- The member hosts of an entry. -/
def Slice.members (s : Slice) (g : Nat) : List Nat := (List.range 16).filter (fun h => (s.fld (PG_GROUP g) PG_GROUP_HOSTS).testBit h)

/-- The member hosts whose proposal for the boundary has not arrived. -/
def Slice.missing (s : Slice) (g : Nat) : List Nat :=
  let v := s.group g
  (s.members g).filter (fun h => (Tbl.at (0, 0) v.props h).1 = 0 || (Tbl.at (0, 0) v.props h).2 != v.boundary % 2 ^ 56)

/-- The maximum of the members' last proposals. -/
def Slice.groupMax (s : Slice) (g : Nat) : Nat :=
  (s.members g).foldl (fun m h => max m ((Tbl.at (0, 0) (s.group g).props h).1 - 1)) 0

/-- GLEAD of an entry. -/
def Slice.glead (s : Slice) (g : Nat) : Nat := s.fld (PG_GROUP g) PG_GROUP_GLEAD

/-- The group level is decided and sent to the slices with the count at which it applies (R301). -/
def Slice.groupDecide (s : Slice) (g : Nat) : Slice :=
  let v := s.group g
  (s.setGroup g { v with waiting := false, next := s.groupMax g + 1 }).sendLevels (v.boundary + s.glead g)

/-- The group level is decided as soon as every proposal has arrived. (DEDUCED, log 34) -/
def Slice.groupTry (s : Slice) (g : Nat) : Slice :=
  if (s.group g).waiting && (s.missing g).isEmpty then (s.setGroup g { s.group g with missed := [] }).groupDecide g else s

/-- A proposal of a host for a partition at a boundary (R301, R302). -/
def Slice.takeProp (s : Slice) (host pid level clamp b : Nat) : Slice :=
  match s.groupOf pid with
  | none => s
  | some g =>
    if !((s.members g).contains host) then s
    else
      let v := s.group g
      let s := s.setGroup g { v with props := Tbl.put (0, 0) v.props host (level + 1, b) }
      let s := if host = s.hostId then s.bump (PG_GSTAT g) PG_GSTAT_CLAMP clamp else s.bump (PG_GSTAT g) PG_GSTAT_STRAGGLE clamp
      s.groupTry g

/-- The deadline of the proposals of a boundary (R303). -/
def Slice.groupDeadline (s : Slice) (g : Nat) : Slice :=
  let v := s.group g
  if !s.govRuns || !v.waiting || decide (s.count.toNat + 2 < v.boundary + s.glead g) then s
  else
    let m := s.missing g
    let twice := m.any (fun h => v.missed.contains h)
    let s := s.bump (PG_GSTAT g) PG_GSTAT_MISS m.length
    let s := if twice then (s.raise (PG_GSTAT g) PG_GSTAT_LOST).raiseMgmt else s
    (s.setGroup g { s.group g with missed := m }).groupDecide g

/-- The group level applies at B + GLEAD (R301). -/
def Slice.groupApply (s : Slice) (g : Nat) : Slice :=
  let v := s.group g
  let c := v.boundary + s.glead g
  if !s.govRuns || v.next = 0 || decide (s.count.toNat < c) then s
  else
    let l := v.next - 1
    let s := ((s.setFld (PG_GSTAT g) PG_GSTAT_L_GRP l).setGroup g { v with next := 0 })
    ((s.episode R_GROUP (s.fld (PG_GROUP g) PG_GROUP_PID) false l c).logLocal g c).sendLevels c

/-- The end of a tick: one in which the applied level exceeds the group level is a clamp tick (R301). -/
def Slice.clampTick (s : Slice) : Slice :=
  if !s.govRuns then s
  else (List.range 4).foldl (fun t g =>
    if t.flag (PG_GROUP g) PG_GROUP_VALID
        && decide (t.fld (PG_GSTAT g) PG_GSTAT_L_GRP < Tbl.at 0 t.gov.levels (t.fld (PG_GROUP g) PG_GROUP_PID)) then
      t.setGroup g { t.group g with clampTicks := (t.group g).clampTicks + 1 }
    else t) s

/-- A change of the fast-clock frequency (R300, R231). -/
def Slice.freqChange (s : Slice) (hi : Bool) : Slice :=
  if s.freqHi = hi then s else ({ s with freqHi := hi }.setFld PG_STATUS PG_STATUS_BOOST (b2n hi)).tevt TV_FREQ

end Sys2Proof.Machine
end

