-- ==== Sys2Proof/Machine/Board.lean ====
section
/-! DEFINITION. The board-ring port of the lead slice (spec 15_control_ring.md R356 to R362): training, frames and their link protocol, the alignment of
counts, proposals, and the adjustment of the count. -/

namespace Sys2Proof.Machine

/-- Update the port. -/
def Slice.modBoard (s : Slice) (f : Board → Board) : Slice := { s with board := f s.board }

/-- The port listens: in the lead, with BR_EN = 1, out of ember reset (R356). -/
def Slice.boardOn (s : Slice) : Bool := s.lead && !s.start.aonReset && s.flag RG_CTRL RG_CTRL_BR_EN

/-- NHOSTS; 0 and values above 16 act as 1. -/
def Slice.nhosts (s : Slice) : Nat :=
  let n := s.fld RG_BR_CFG RG_BR_CFG_NHOSTS
  if n = 0 || 16 < n then 1 else n

/-- Host 0 is the count master (R356). -/
def Slice.master (s : Slice) : Bool := s.hostId = 0

abbrev BF_COUNT : Nat := 1
abbrev BF_PROP : Nat := 2
abbrev BF_PING : Nat := 3

/-- A frame leaves at the edge of the present tick with the next link sequence number; the sender keeps 8 (R359). -/
def Slice.boardSend (s : Slice) (typ origin : Nat) (payload : BitVec 96) : Slice :=
  if s.board.down then s
  else
    let f : BoardFrame := ⟨typ, s.board.seq, origin, payload, s.refs⟩
    s.modBoard (fun b => { b with seq := (b.seq + 1) % 16, out := b.out ++ [f], kept := ((b.kept ++ [f]).reverse.take 8).reverse })

/-- A control or training frame leaves (R357). -/
def Slice.boardCtl (s : Slice) (f : CtlFrame) : Slice := s.modBoard (fun b => { b with ctl := b.ctl ++ [f] })

/-- A change of BR_UP raises SL_IRQ_MGMT when BR_IRQ_EN = 1 (R363). -/
def Slice.setBrUp (s : Slice) (v : Bool) : Slice :=
  (s.setFld RG_STATUS RG_STATUS_BR_UP (b2n v)).raiseMgmtIf (s.flag RG_STATUS RG_STATUS_BR_UP != v && s.flag RG_CTRL RG_CTRL_BR_IRQ_EN)

/-- The payload of a COUNT frame: the count at the edge of its departure, and the UI since (R357). -/
def countPayload (value : Word) (acc : Nat) : BitVec 96 := setF (setF (0 : BitVec 96) ⟨0, 64⟩ value.toNat) ⟨64, 32⟩ acc

/-- The payload of a PROP frame. -/
def propPayload (pid level clamp b : Nat) : BitVec 96 :=
  setF (setF (setF (setF (0 : BitVec 96) ⟨0, 4⟩ pid) ⟨4, 4⟩ level) ⟨8, 32⟩ clamp) ⟨40, 56⟩ b

/-- A frame of another host is to leave at the edge 10 ticks after the present one (R359). -/
def Slice.boardForward (s : Slice) (typ origin : Nat) (payload : BitVec 96) : Slice :=
  s.modBoard (fun b => { b with fwd := b.fwd ++ [⟨s.refs + 10, typ, origin, payload⟩] })

/-- A frame may be originated in the present tick: none is forwarded within 7 ticks either side, and one that the host originated has left the line, which it takes
for 72 ns (R357, R359). (DEDUCED, log 37) -/
def Slice.boardFree (s : Slice) : Bool :=
  (match s.board.fwdAt with
    | some t => decide (t + 7 < s.refs)
    | none => true)
  && (match s.board.ownAt with
    | some t => decide (t + 8 ≤ s.refs)
    | none => true)
  && s.board.fwd.all (fun f => decide (s.refs + 7 < f.tick))

/-- The first frame that the host originates leaves, if it may; a COUNT frame carries the count of this edge (R357, R359). (DEDUCED, log 37) -/
def Slice.boardOwn (s : Slice) : Slice :=
  match s.board.own with
  | [] => s
  | f :: rest =>
    if decide (f.tick ≤ s.refs) && s.boardFree then
      (s.modBoard (fun b => { b with own := rest, ownAt := some s.refs })).boardSend f.typ f.origin (if f.typ = BF_COUNT then countPayload s.count 0 else f.payload)
    else s

/-- The host originates a frame, `after` ticks from now at the earliest. -/
def Slice.boardOriginate (s : Slice) (typ after : Nat) (payload : BitVec 96) : Slice :=
  let s := s.modBoard (fun b => { b with own := b.own ++ [⟨s.refs + after, typ, s.hostId, payload⟩] })
  if after = 0 then s.boardOwn else s

/-- At an edge the frames to forward whose tick has come leave, and the host may originate one; while the port is off it sends idles (R356, R359). -/
def Slice.boardEdge (s : Slice) : Slice :=
  let go := s.board.fwd.filter (fun f => decide (f.tick ≤ s.refs))
  let s := s.modBoard (fun b => { b with fwd := b.fwd.filter (fun f => decide (s.refs < f.tick)), fwdAt := if go = [] then b.fwdAt else some s.refs })
  if s.boardOn then (go.foldl (fun t f => t.boardSend f.typ f.origin f.payload) s).boardOwn else s

/-! ### Training (R358) -/

/-- Training starts: ECHO goes downstream. -/
def Slice.trainStart (s : Slice) : Slice :=
  (s.modBoard (fun b => { Board.init with
    training := true, out := b.out, ctl := b.ctl, adjAt := b.adjAt, fwd := b.fwd, own := b.own, fwdAt := b.fwdAt, ownAt := b.ownAt })).boardCtl ⟨true, 3, 0, 0⟩

/-- BR_TRAIN (R358): ignored while a partition other than PID 0 counts as active. -/
def Slice.trainCmd (s : Slice) : Slice := if s.boardOn && !s.anyActive then s.trainStart else s

/-- A training step did not complete in time (R358). -/
def Slice.trainTimeout (s : Slice) : Slice :=
  if s.boardOn && s.board.training then
    ((s.modBoard (fun b => { b with training := false })).raise RG_STATUS RG_STATUS_BR_DOWN).raiseMgmt
  else s

/-- LAT of a round trip: half of it less the 64 UI of the echo, to the nearest; a round trip shorter than 64 UI gives a latency that R358 does not
state. (DEDUCED, log 37) -/
def latOf (r : Nat) : Nat := if 64 ≤ r then (r - 64 + 1) / 2 else (Config.latencyOpen r).toNat

/-- ECHO (R358): the downstream end returns it upstream; at its originator it closes the round trip, LAT goes downstream, and the master sends
PING. -/
def Slice.echo (s : Slice) (returned : Bool) (r : Nat) : Slice :=
  if !s.boardOn then s
  else if !returned then s.boardCtl ⟨false, 3, 0, 0⟩
  else if !s.board.training then s
  else
    let l := latOf r
    let s := (s.setFld RG_BR_LAT RG_BR_LAT_LAT_OUT l).boardCtl ⟨true, 4, 0, l % 65536⟩
    if s.master then s.boardOriginate BF_PING 0 (BitVec.ofNat 96 (2 ^ s.hostId)) else s

/-- LAT arrives (R358). -/
def Slice.latIn (s : Slice) (x : Nat) : Slice := if s.boardOn then s.setFld RG_BR_LAT RG_BR_LAT_LAT_IN x else s

/-! ### The link (R359) -/

/-- A frame of a link sequence number arrives sound: it is acknowledged and goes to `f`, unless frames are discarded until another one. -/
def Slice.boardRx (s : Slice) (seq : Nat) (f : Slice → Slice) : Slice :=
  if !s.boardOn || s.board.down || (s.board.resync && s.board.rxSeq != seq) then s
  else f ((s.modBoard (fun b => { b with resync := false, rxNaks := 0, rxSeq := (seq + 1) % 16 })).boardCtl ⟨false, 1, seq, 0⟩)

/-- The link fails and stays down until it is trained again. -/
def Slice.boardFail (s : Slice) : Slice :=
  ((s.modBoard (fun b => { b with down := true })).setBrUp false).raise RG_STATUS RG_STATUS_BR_DOWN

/-- A retry on the board ring: counted, and a timing event. -/
def Slice.boardRetry (s : Slice) : Slice := (s.bump RG_RETRY RG_RETRY_BOARD 1).tevt TV_RING

/-- A frame fails its CRC, or its TYPE is unknown. (DEDUCED, log 37; DESIGN CHOICE, log 56) -/
def Slice.boardBad (s : Slice) (crcBad : Bool) (seq : Nat) : Slice :=
  if !s.boardOn || s.board.down then s
  else if !crcBad then
    if s.board.resync && s.board.rxSeq != seq then s
    else (s.bump RG_RETRY RG_RETRY_BOARD 1).boardRx seq (fun t => t)
  else if s.board.resync && s.board.rxSeq != seq then s
  else
    let s := (s.boardRetry.modBoard (fun b => { b with resync := true, rxSeq := seq, rxNaks := b.rxNaks + 1 })).boardCtl ⟨false, 2, seq, 0⟩
    if 8 ≤ s.board.rxNaks then s.boardFail else s

/-- ACK: the sender keeps the frames after it. -/
def Slice.boardAck (s : Slice) (seq : Nat) : Slice :=
  if !s.boardOn then s
  else s.modBoard (fun b =>
    if b.kept.any (fun f => f.seq = seq) then { b with kept := (b.kept.dropWhile (fun f => f.seq != seq)).drop 1, naks := 0 } else b)

/-- A frame sent again in a tick: ACC of a COUNT frame counts on from the edge of its VALUE, 12.5 UI a tick (R357, R359). (DEDUCED, log 37) -/
def BoardFrame.again (f : BoardFrame) (now : Nat) : BoardFrame :=
  let d := now - f.tick
  { f with tick := now, payload := if f.typ = BF_COUNT then setF f.payload ⟨64, 32⟩ (getF f.payload ⟨64, 32⟩ + (25 * d + b2n (Config.accHalf d)) / 2) else f.payload }

/-- NAK: the sender sends again from the failed SEQ (R359). (DEDUCED, log 37) -/
def Slice.boardNak (s : Slice) (seq : Nat) : Slice :=
  if !s.boardOn || s.board.down || !(s.board.kept.any (fun f => f.seq = seq)) then s
  else
    let late := (s.board.kept.dropWhile (fun f => f.seq != seq)).map (fun f => f.again s.refs)
    let s := s.boardRetry.modBoard (fun b =>
      { b with out := b.out ++ late, kept := b.kept.takeWhile (fun f => f.seq != seq) ++ late, naks := b.naks + 1 })
    if 8 ≤ s.board.naks then s.boardFail else s

/-! ### Counts (R360, R362) -/

/-- A COUNT frame whose /S/ arrives at phi UI after the edge of the present tick. (DEDUCED, log 37) -/
def Slice.boardCount (s : Slice) (origin : Nat) (value : Word) (acc : BitVec 32) (phi : Nat) : Slice :=
  if origin = s.hostId then s
  else
    let c := s.count
    let x : Int := (acc.toNat : Int) + (s.fld RG_BR_LAT RG_BR_LAT_LAT_IN : Int) - (phi : Int)
    let m : Word := value + BitVec.ofInt 64 ((2 * x + 12) / 25)
    let s :=
      if s.master then s
      else if s.anyActive then s.raise RG_STATUS RG_STATUS_CSKIP
      else
        let delta := m - c
        ((s.setReg RG_BR_OFFSET delta).modBoard (fun b => { b with upWait := true })).sendCountSet (c + 64) (c + 64 + delta)
    s.boardForward BF_COUNT origin (setF (countPayload value 0) ⟨64, 32⟩ (wrapN 32 (x + 125)))

/-- A PROP frame: kept for this host's own use, and forwarded (R359, R361). -/
def Slice.boardProp (s : Slice) (origin pid level clamp b : Nat) : Slice :=
  if origin = s.hostId then s
  else (s.takeProp origin pid level clamp b).boardForward BF_PROP origin (propPayload pid level clamp b)

/-- A PING frame (R358): forwarded with this host's bit; back at the master with every host visited, BR_UP is set and COUNT follows. -/
def Slice.boardPing (s : Slice) (origin visited : Nat) : Slice :=
  if origin = s.hostId then
    if s.board.training && s.master && (List.range s.nhosts).all (fun h => visited.testBit h) then
      ((s.modBoard (fun b => { b with training := false })).setBrUp true).boardOriginate BF_COUNT 1 0
    else s
  else s.boardForward BF_PING origin (BitVec.ofNat 96 (visited ||| 2 ^ s.hostId))

/-- GO of RG_CNT_ADJ (R362). -/
def Slice.adjustGo (s : Slice) : Slice :=
  let ok := !s.anyActive && (s.master || !(s.flag RG_CTRL RG_CTRL_BR_EN)) && !(s.flag RG_CNT_ADJ RG_CNT_ADJ_ARMED)
  if !ok then s.raise RG_STATUS RG_STATUS_ADJ_REFUSED
  else
    let t := s.reg RG_CNT_ADJ_TICK
    let near := decide (t.toNat < s.count.toNat + 64)
    let a := if near then s.count + 64 else t
    let s := if near then s.raise RG_STATUS RG_STATUS_LATE else s
    let d : Word := BitVec.ofInt 64 (sext 32 (s.fld RG_CNT_ADJ RG_CNT_ADJ_DELTA))
    ((s.raise RG_CNT_ADJ RG_CNT_ADJ_ARMED).modBoard (fun b => { b with adjAt := some a.toNat })).sendCountSet a (a + d)

/-- The count becomes v (R355); an adjustment armed for it is applied (R362), and a host that waited for its count is up (R358). -/
def Slice.setCount (s : Slice) (a v : Word) : Slice :=
  let s := { s with count := v, start := { s.start with loaded := true } }
  let s := if s.board.adjAt = some a.toNat then
      let s := (s.clearF RG_CNT_ADJ RG_CNT_ADJ_ARMED).modBoard (fun b => { b with adjAt := none })
      if s.flag RG_CTRL RG_CTRL_BR_EN then s.boardOriginate BF_COUNT 1 0 else s
    else s
  if s.board.upWait then (s.modBoard (fun b => { b with upWait := false, training := false })).setBrUp true else s

/-- A packet sets the count. -/
def Timed.sets : Timed → Bool
  | .countSet .. => true
  | .levels .. => false

/-- The packets of a kind whose count has come are applied, in the order in which they came (R352). -/
def Slice.applyTimed (s : Slice) (sets : Bool) : Slice :=
  let due := fun (t : Timed) => t.sets = sets && decide (t.due.toNat ≤ s.count.toNat)
  (s.ring.timed.filter due).foldl (fun t x => match x with
    | .countSet a v => t.setCount a v
    | .levels l _ => t.applyLevels l) { s with ring := { s.ring with timed := s.ring.timed.filter (fun t => !(due t)) } }

/-! ### The boundary of a rope group (R301) -/

/-- At the launch fc of a boundary the governor sends its proposal on the board ring. -/
def Slice.groupBoundary (s : Slice) (g : Nat) : Slice :=
  let period := s.fld (PG_GROUP g) PG_GROUP_GPERIOD
  if !s.govRuns || !(s.flag (PG_GROUP g) PG_GROUP_VALID) || period = 0 || s.count.toNat % period != 0 then s
  else
    let pid := s.fld (PG_GROUP g) PG_GROUP_PID
    let level := max (max s.lFb s.lTh) s.lFf
    let clamp := (s.group g).clampTicks
    let b := s.count.toNat
    let s := s.setGroup g { s.group g with boundary := b, clampTicks := 0, waiting := true }
    let s := if s.boardOn then s.boardOriginate BF_PROP 0 (propPayload pid level (clamp % 2 ^ 32) (b % 2 ^ 56)) else s
    s.takeProp s.hostId pid level clamp (b % 2 ^ 56)

end Sys2Proof.Machine
end

