-- ==== Sys2Proof/Machine/BoardActs.lean ====
section
/-! DEFINITION. Frames of the board ring (spec 15_control_ring.md R356 to R362). -/

namespace Sys2Proof.Machine

/-- A training step has not completed in time (R358). -/
def execTrainingTimeout (s : State) : Host.Outcome State Fault Refusal :=
  act (fun t => t.trainTimeout) s

/-- A COUNT frame (R360). -/
def execBoardCount (origin seq : BitVec 4) (value : Word) (acc : BitVec 32) (phi : BitVec 4) (s : State) : Host.Outcome State Fault Refusal :=
  act (fun t => t.boardRx seq.toNat (fun u => u.boardCount origin.toNat value acc phi.toNat)) s

/-- A proposal frame (R361). -/
def execBoardProp (origin seq : BitVec 4) (pid level : BitVec 4) (clamp : BitVec 32) (b : BitVec 56) (s : State) : Host.Outcome State Fault Refusal :=
  act (fun t => t.boardRx seq.toNat (fun u => u.boardProp origin.toNat pid.toNat level.toNat clamp.toNat b.toNat)) s

/-- A PING frame (R358). -/
def execBoardPing (origin seq : BitVec 4) (visited : BitVec 16) (s : State) : Host.Outcome State Fault Refusal :=
  act (fun t => t.boardRx seq.toNat (fun u => u.boardPing origin.toNat visited.toNat)) s

/-- ACK of the reverse lane (R359). -/
def execBoardAck (seq : BitVec 4) (s : State) : Host.Outcome State Fault Refusal :=
  act (fun t => t.boardAck seq.toNat) s

/-- NAK of the reverse lane (R359). -/
def execBoardNak (seq : BitVec 4) (s : State) : Host.Outcome State Fault Refusal :=
  act (fun t => t.boardNak seq.toNat) s

/-- ECHO (R358). -/
def execEcho (returned : Bool) (roundTrip : BitVec 16) (s : State) : Host.Outcome State Fault Refusal :=
  act (fun t => t.echo returned roundTrip.toNat) s

/-- LAT (R358). -/
def execLat (x : BitVec 16) (s : State) : Host.Outcome State Fault Refusal :=
  act (fun t => t.latIn x.toNat) s

/-- A frame that fails its CRC, or of an unknown TYPE (R359). -/
def execBoardFrameBad (crcBad : Bool) (seq : BitVec 4) (s : State) : Host.Outcome State Fault Refusal :=
  act (fun t => t.boardBad crcBad seq.toNat) s

end Sys2Proof.Machine
end

