-- ==== Sys2Proof/Machine/Ember.lean ====
section
/-! DEFINITION. Sleep states of the halves, ageing monitors, the margin planner and the ageing record (spec 13_ember_ageing.md R310 to R323). -/

namespace Sys2Proof.Machine

/-! ### Sleep states (R310 to R315) -/

/-- A request concerns a half. -/
def Req.inHalf (r : Req) (h : Nat) : Bool := reqHalf r.op r.a = h

/-- The patrol sweep is suspended (R230, R341). -/
def Slice.patrolHeld (s : Slice) : Bool := s.detActive && !(s.flag DG_DET_CTRL DG_DET_CTRL_PATROL_IN_DET)

/-- The deferred patrol steps of a half. -/
def deferField (h : Nat) : Fld := if h = 0 then EC_PATROL_STATUS_DEFER_H0 else EC_PATROL_STATUS_DEFER_H1

/-- The half of a bank; bank 16 + h stands for the bank of half h that serves no set. -/
def halfOfBank (bk : Nat) : Nat := if bk < 16 then bk / 8 else bk - 16

/-- A walk still has work in a half. -/
def Slice.walkIn (s : Slice) (w : Walk) (h : Nat) : Bool :=
  match w.kind with
  | .retire key => keyHalf key = h
  | _ => w.banks.any (fun bk => bk / 8 = h) && !(w.rowsOver && s.nextVict w = 32)

/-- The drain engine's next frame lies in a half. -/
def Slice.drainIn (s : Slice) (h : Nat) : Bool :=
  (List.range 16).any (fun p => s.flag (EP_PSTATUS p) EP_PSTATUS_HARVEST && !(s.harvest p).stop && !(s.harvest p).aborted
    && (match s.oldestShelf p with
      | some key => keyHalf key = h
      | none => decide (2 ≤ s.epPhase p) && decide (s.epPhase p < 4) && decide (256 ≤ (s.harvest p).ledger) && (match s.nextFrozen p with
        | some (.frame key) => keyHalf key = h
        | _ => false)))

/-- The internal input of a bank of a half offers a candidate that does not come from a request: a walk other than the half's flush walk, a line of the drain engine or
of the capture, quarantine work, the reinstatement of a recalled entry, an array readback, a repair, or a step of the patrol that is not deferred by sleep (R27, R311, R313). -/
def Slice.innerWork (s : Slice) (h : Nat) : Bool :=
  s.walks.any (fun w => w.kind != .flush (decide (h = 1)) && s.walkIn w h) || s.drainIn h
    || (match s.captureAt with
      | some x => halfOfSet x = h
      | none => false)
    || s.quarantine.any (fun k => keyHalf k = h) || s.victims.any (fun v => v.2.recalling && halfOfSet v.2.setIdx = h)
    || (match s.tdReq with
      | some q => (targetBank q.arr q.idx).1 = h
      | none => false)
    || (!s.patrolHeld && s.flag EC_CTRL EC_CTRL_REPAIR_EN && (if h = 0 then s.repairs0 else s.repairs1) != [])
    || (!s.patrolHeld && s.patrols.any (fun p => halfOfBank p.1 = h))

/-- A half is idle (R311). -/
def Slice.halfIdle (s : Slice) (h : Nat) : Bool :=
  !(s.inputs.any (fun r => r.inHalf h))
    && (List.range 8).all (fun b => let k := s.bank (h * 8 + b); k.holdq = [] && k.htes = [] && k.conts = [] && decide (k.free ≤ s.fc))
    && !(s.fills.any (fun f => f.1 / 32 = h)) && !(s.pinOps.any (fun o => (List.range 8).any (fun b => o.hasStep (h * 8 + b)))) && !(s.fan.any (fun t => t.2.req.inHalf h))
    && !(s.walks.any (fun w => s.walkIn w h)) && s.capture.isNone && !(s.innerWork h) && !(s.sparing.any (fun x => b2n x.1 = h))
    && (s.patrolHeld || !(s.awake h) || s.fld EC_PATROL_STATUS (deferField h) = 0)

/-- Some partition with DET_MODE = 1 counts as active (R312, R315). -/
def Slice.detHeld (s : Slice) : Bool := (List.range 16).any (fun p => s.ptActive p && s.flag (PT_CTRL p) PT_CTRL_DET_MODE)

/-- Entry into RETENTION is committed (R312). -/
def Slice.retentionCommit (s : Slice) (h : Nat) : Slice :=
  if s.awake h && s.flag AG_CTRL AG_CTRL_GATE_EN && !s.detHeld && s.halfIdle h then s.setHalf h { s.half h with goal := some .retention } else s

/-- A masked codeword lies in the arrays of a half. -/
def flipInHalf (k h : Nat) : Bool :=
  let arr := k / 32 / 2 ^ 18
  let idx := k / 32 % 2 ^ 18
  (arr ≤ 2 && keyHalf idx = h) || (arr = 3 && idx / 2304 = h)

/-- What an OFF half loses: its frames, their replacement bits, and their armed or overlaid flips (R310); the patrol skips it (R341). (DEDUCED, log 33) -/
def Slice.dropHalf (s : Slice) (h : Nat) : Slice :=
  { s with injAt := s.injAt.filter (fun k => !(flipInHalf k h)), patrols := s.patrols.filter (fun p => halfOfBank p.1 != h), frames := s.frames.filter (fun e => keyHalf e.1 != h), repl := s.repl.filter (fun e => e.1 / 2304 != h),
           flips := s.flips.filter (fun e => !(flipInHalf e.1 h)) }

/-- The committed state is reached 4 ec later; a trigger that came meanwhile wakes the half at once (R312, R314). (DEDUCED, log 33) -/
def Slice.stateReached (s : Slice) (h : Nat) : Slice :=
  let v := s.half h
  match v.goal with
  | none => s
  | some g =>
    let s := s.setHalf h { v with power := g, goal := none, wakePending := false }
    let s := if g = .off then s.dropHalf h else s
    let s := { s with age := { s.age with broken := s.age.broken || s.age.measuring } }
    if v.wakePending then s.wakeTrigger h else s

/-- A half in RETENTION moves towards OFF (R313): it wakes for its flush walk. -/
def Slice.offStart (s : Slice) (h : Nat) : Slice :=
  if (s.half h).power = .retention && (s.half h).goal.isNone && s.flag AG_CTRL AG_CTRL_OFF_EN && !s.anyActive && s.pinMask 0 = 0 && !(s.halfLost h) then
    (s.wakeTrigger h).raise AG_PSTATE (flushField h)
  else s

/-- The applied assist level of a half. -/
def appliedField (h : Nat) : Fld := if h = 0 then AG_PLAN_APPLIED_H0 else AG_PLAN_APPLIED_H1

/-- The wakes of a half. -/
def wakeField (h : Nat) : Fld := if h = 0 then AG_WAKE_CNT_H0 else AG_WAKE_CNT_H1

/-- The arbiter pointers of a half that leaves OFF are 0 (R314). -/
def Slice.zeroPtrs (s : Slice) (h : Nat) : Slice :=
  (List.range 8).foldl (fun t b => t.modBank (h * 8 + b) (fun k => { k with ptr := 0 })) s

/-- A wake ends: the half is AWAKE, with the planned assist level, and starts the flush walk that R313 asks of it. -/
def Slice.wakeDone (s : Slice) (h : Nat) : Slice :=
  let v := s.half h
  if v.power != .waking then s
  else
    let s := if v.fromOff then s.zeroPtrs h else s
    let s := ((s.setHalf h ⟨.awake, none, false, false⟩).bump AG_WAKE_CNT (wakeField h) 1).tevt TV_WAKE
    let s := s.setFld AG_PLAN (appliedField h) (s.fld AG_PLAN AG_PLAN_ASSIST)
    if s.flag AG_PSTATE (flushField h) then s.startWalk (.flush (decide (h = 1))) else s

/-- The flush walk has finished (R313): the half goes OFF, or is held by a lost line. While a partition other than PID 0, or one with DET_MODE = 1, counts as
active it stays AWAKE (R313, R315). (DEDUCED, log 33) -/
def Slice.flushDone (s : Slice) (h : Nat) : Slice :=
  match s.walkOf (fun k => k = .flush (decide (h = 1))) with
  | none => s
  | some w =>
    if !(s.flag AG_PSTATE (flushField h)) || !(s.walkOver w) then s
    else
      let s1 := (s.endWalk w).clearF AG_PSTATE (flushField h)
      if s1.halfLost h then s1.raise AG_PSTATE (heldField h)
      else if s1.anyActive || s1.detHeld then s1
      else if s1.halfIdle h && s1.awake h then s1.setHalf h { s1.half h with goal := some .off }
      else s

/-! ### Measurement sets (R316, R317) -/

/-- A set starts (R317). -/
def Slice.measStart (s : Slice) : Slice :=
  if !(s.flag AG_CTRL AG_CTRL_MEAS_EN) || s.flag NV_STEWARD NV_STEWARD_HALT || !s.ready || s.age.measuring then s
  else if (s.half 0).power = .awake && (s.half 1).power = .awake then
    { s with age := { s.age with measuring := true, broken := false, startFc := s.fc, startGrants := s.grantsTotal, startCount := s.count } }
  else s.bump AG_MEAS_STATUS AG_MEAS_STATUS_SKIPPED 1

/-- Edges counted by monitor i in a set. -/
def monCount (counts : BitVec 192) (i : Nat) : Nat := getF counts ⟨24 * i, 24⟩

/-- The ratio r_i of monitor i; the spec states none for a count_7 of 0. -/
def monRatio (counts : BitVec 192) (i : Nat) : Nat :=
  if monCount counts 7 = 0 then (Config.ratioOpen i (monCount counts i)).toNat else monCount counts i * 2 ^ 15 / monCount counts 7

/-- A ratio as the 16-bit fields that hold one show it; a larger one is a value that R317 does not state. -/
def fitRatio (i r : Nat) : Nat := if r < 65536 then r else (Config.ratioOpen i r).toNat

/-- The slowdown of a monitor from its ratio at zero age and its ratio. -/
def slowdown (base r : Nat) : Nat := min 255 ((base - r) / 8)

/-- A table of values for monitors 0 to n − 1. -/
def monTable (n : Nat) (f : Nat → Nat) : Tbl Nat := (List.range n).foldl (fun t i => Tbl.put 0 t i (f i)) []

/-- AG_MEAS_STATUS.ACT. -/
def activityOf (g n fresh : Nat) : Nat :=
  if n = 0 ∨ 256 ≤ 256 * g / (16 * n) then (Config.activityOpen fresh).toNat else 256 * g / (16 * n)

/-! ### The planner (R318) -/

/-- The seven thresholds. -/
def thrFields : List Fld := [AG_ASSIST_THR_T1, AG_ASSIST_THR_T2, AG_ASSIST_THR_T3, AG_ASSIST_THR_T4, AG_ASSIST_THR_T5, AG_ASSIST_THR_T6, AG_ASSIST_THR_T7]

/-- VMAX. -/
def Slice.vmax (s : Slice) : Nat := s.fld AG_VSTEP AG_VSTEP_VMAX

/-- a of plan. -/
def Slice.planA (s : Slice) : Nat :=
  let sl := fun i => Tbl.at 0 s.age.slows i
  let ss := max (max (sl 0) (sl 1)) (max (sl 2) (sl 3))
  (thrFields.filter (fun f => decide (s.fld AG_ASSIST_THR f < ss))).length

/-- v of plan. -/
def Slice.planV (s : Slice) : Nat :=
  let sl := fun i => Tbl.at 0 s.age.slows i
  let m := max (max (sl 4) (sl 5)) (sl 6)
  let p := max 1 (s.fld AG_VSTEP AG_VSTEP_PER_STEP)
  min s.vmax ((m + p - 1) / p)

/-- The outputs of plan (a VMAX of 0 disables voltage requests, R320), and in the lead the token that collects the largest VOFF (R320). (DEDUCED, log 38) -/
def Slice.planOut (s : Slice) : Slice :=
  let g := s.age
  let assist := if g.fullExists then g.assistBase else min 7 (max g.assistBase g.assistProv + 2)
  let voff := if s.vmax = 0 then 0 else if g.fullExists then g.voffBase else min s.vmax (max g.voffBase g.voffProv + 2)
  let s := ((s.setFld AG_PLAN AG_PLAN_ASSIST_BASE g.assistBase).setFld AG_PLAN AG_PLAN_VOFF_BASE g.voffBase).setFld AG_PLAN AG_PLAN_ASSIST assist
  let s := (s.setFld AG_PLAN AG_PLAN_VOFF voff).setFld AG_PLAN AG_PLAN_GUARD (b2n (!g.fullExists))
  let s := s.setFld AG_MEAS_STATUS AG_MEAS_STATUS_FULL_EXISTS (b2n g.fullExists)
  if s.lead then s.ringPut ⟨RG_VOFF_MAX, RG_ALL, 0, [0]⟩ else s

/-- The planner after a set. -/
def Slice.plan (s : Slice) (full : Bool) : Slice :=
  let a := s.planA
  let v := s.planV
  let g := s.age
  let g := if full || g.fullExists then { g with assistBase := max g.assistBase a, voffBase := max g.voffBase v }
           else { g with assistProv := max g.assistProv a, voffProv := max g.voffProv v }
  ({ s with age := { g with fullExists := g.fullExists || full } }).planOut

/-- A set ends with the counts of its eight monitors (R317). -/
def Slice.measEnd (s : Slice) (counts : BitVec 192) : Slice :=
  if !s.age.measuring then s
  else if s.age.broken then ({ s with age := { s.age with measuring := false } }).bump AG_MEAS_STATUS AG_MEAS_STATUS_SKIPPED 1
  else
    let g := s.grantsTotal - s.age.startGrants
    let n := s.fc - s.age.startFc
    let full := decide (3 * 16 * n ≤ 5 * g)
    let ratio := monRatio counts
    let first := !s.age.present && full
    let base := if first then monTable 7 (fun i => fitRatio i (ratio i)) else s.age.base
    let slows := if s.age.present then monTable 7 (fun i => slowdown (Tbl.at 0 base i) (ratio i)) else []
    let age := { s.age with measuring := false, counts := monTable 8 (monCount counts), ratios := monTable 7 ratio, slows := slows, base := base,
                            present := s.age.present || full, fullSlows := if full then slows else s.age.fullSlows }
    let s := { s with fresh := s.fresh + 1, age := age }
    let st := AG_MEAS_STATUS
    let s := (((s.raise st AG_MEAS_STATUS_VALID).setFld st AG_MEAS_STATUS_PROV (b2n (!full))).setFld st AG_MEAS_STATUS_ACT (activityOf g n s.fresh)).bump st
      AG_MEAS_STATUS_SETS 1
    (s.setReg AG_MEAS_TICK s.age.startCount).plan full

/-- A pause of 4 fc in which a half that stays AWAKE takes a new assist level (R319). -/
def Slice.assistPause (s : Slice) (h : Nat) : Slice :=
  let a := s.fld AG_PLAN AG_PLAN_ASSIST
  if !(s.awake h) || s.detHeld || s.fld AG_PLAN (appliedField h) = a || s.flag NV_STEWARD NV_STEWARD_HALT then s
  else
    let held := (List.range 4).map (s.slotFc + ·)
    let s := (List.range 8).foldl (fun t b => t.modBank (h * 8 + b) (fun k =>
      { k with free := max k.free (s.slotFc + 4), taken := k.taken ++ (held.filter k.slotFree).map (fun x => (x, 0)) })) s
    (s.setFld AG_PLAN (appliedField h) a).tevt TV_MAINT

/-- The VOFF token at a position (R320). -/
def Slice.voffPass (s : Slice) (x : Nat) : Nat := if s.isOpen then max x (s.fld AG_PLAN AG_PLAN_VOFF) else x

/-- The VOFF token is back at the lead. -/
def Slice.voffBack (s : Slice) (x : Nat) : Slice :=
  let m := max x (s.fld AG_PLAN AG_PLAN_VOFF)
  (s.setFld AG_PLAN AG_PLAN_GROUP_VOFF m).raiseMgmtIf (decide (s.fld AG_PLAN AG_PLAN_GROUP_VOFF < m) && s.flag AG_CTRL AG_CTRL_PLAN_IRQ_EN)

/-! ### The ageing record (R321 to R323) -/

abbrev AE_ASSIST_BASE : Fld := ⟨192, 3⟩
abbrev AE_VOFF_BASE : Fld := ⟨200, 4⟩
abbrev AE_FULL_EXISTS : Fld := ⟨208, 1⟩
abbrev AE_PRESENT : Fld := ⟨209, 1⟩
abbrev AE_ASSIST_PROV : Fld := ⟨216, 3⟩
abbrev AE_VOFF_PROV : Fld := ⟨224, 4⟩

/-- BASE_i and SLOW_i of an entry. -/
def aeBase (i : Nat) : Fld := ⟨16 * i, 16⟩
def aeSlow (i : Nat) : Fld := ⟨128 + 8 * i, 8⟩

/-- This slice's current entry (R321). -/
def Slice.ageNow (s : Slice) : BitVec 256 :=
  let g := s.age
  let e := (List.range 7).foldl (fun e i => setF (setF e (aeBase i) (Tbl.at 0 g.base i)) (aeSlow i) (Tbl.at 0 g.fullSlows i)) (0 : BitVec 256)
  setF (setF (setF (setF (setF (setF e AE_ASSIST_BASE g.assistBase) AE_VOFF_BASE g.voffBase) AE_FULL_EXISTS (b2n g.fullExists))
    AE_PRESENT (b2n g.present)) AE_ASSIST_PROV g.assistProv) AE_VOFF_PROV g.voffProv

/-- The ageing entry takes effect, and the planner runs on the loaded values with no set (R318, R376). (DEDUCED, log 38) -/
def Slice.loadAge (s : Slice) : Slice :=
  let e := s.start.ageEntry
  let age := { s.age with base := monTable 7 (fun i => getF e (aeBase i)), fullSlows := monTable 7 (fun i => getF e (aeSlow i)),
                          assistBase := getF e AE_ASSIST_BASE, voffBase := getF e AE_VOFF_BASE, fullExists := getF e AE_FULL_EXISTS = 1,
                          present := getF e AE_PRESENT = 1, assistProv := getF e AE_ASSIST_PROV, voffProv := getF e AE_VOFF_PROV }
  let s := { s with age := age }
  let s := s.planOut
  let a := s.fld AG_PLAN AG_PLAN_ASSIST
  (s.setFld AG_PLAN AG_PLAN_APPLIED_H0 a).setFld AG_PLAN AG_PLAN_APPLIED_H1 a

/-- NOW − LAST_WRITE has reached a day (R323). (DEDUCED, log 38) -/
def Slice.recSpaced (s : Slice) : Bool := decide (86400 ≤ s.fld AG_POH AG_POH_NOW - s.fld AG_POH AG_POH_LAST_WRITE)

/-- The slices that the last roster shows, other than this one. -/
def Slice.others (s : Slice) : List Nat := (List.range 64).filter (fun i => (s.reg RG_ROSTER).getLsbD i && i != s.id)

/-- Some collected entry differs from the stored one. -/
def Slice.recDiffers (s : Slice) : Bool :=
  (s.id :: s.others).any (fun i => Tbl.at 0 s.age.collect i != Tbl.at 0 s.age.stored i)

/-- The SEQ after a SEQ; 0xFFFFFFFF is invalid. (DEDUCED, log 38) -/
def seqNext (n : Nat) : Nat := if n + 1 < 0xFFFFFFFF then n + 1 else 0

/-- The header of the record that a write programs (R321): MAGIC, SEQ, POH and NSLICE. -/
def Slice.recHeader (s : Slice) : Nat :=
  0x41474552 + 2 ^ 32 * seqNext (s.fld AG_REC_CTRL AG_REC_CTRL_SEQ) + 2 ^ 64 * s.fld AG_POH AG_POH_NOW + 2 ^ 96 * s.fld ID_SLICE ID_SLICE_GROUP_SIZE

/-- The record that a write programs (R321): the header, the collected entries and their CRC, 2,068 bytes. -/
def Slice.record (s : Slice) : List Byte :=
  let body := leBytes 16 s.recHeader ++ (List.range 64).flatMap (fun i => leBytes 32 (Tbl.at 0 s.age.collect i).toNat)
  body ++ leBytes 4 (crc32 body).toNat

/-- Every entry has been collected: the record is formed and its write goes on, once no command of host software holds the NVM port, or the comparison ends
where nothing asks for a write (R323); a halted steward writes none (R383). (DESIGN CHOICE, log 54) -/
def Slice.recGo (s : Slice) : Slice :=
  if !s.age.collecting || s.age.waiting != [] then s
  else if !s.age.forced && !s.recDiffers then { s with age := { s.age with collecting := false } }
  else if s.flag NV_CMD NV_CMD_BUSY || s.flag NV_STEWARD NV_STEWARD_HALT then s
  else { s.raise AG_REC_CTRL AG_REC_CTRL_BUSY with age := { s.age with collecting := false, programming := true, written := s.record } }

/-- The lead collects every slice's entry over the ring, for a write that host software asks for or for the daily comparison (R323). -/
def Slice.recStart (s : Slice) (forced : Bool) : Slice :=
  let s1 := if forced then s.raise AG_REC_CTRL AG_REC_CTRL_BUSY else s
  let s1 := { s1 with age := { s1.age with collecting := true, forced := forced, waiting := s.others, collect := Tbl.put 0 s1.age.stored s.id s.ageNow } }
  (s.others.foldl (fun t i => t.ringPut ⟨RG_AGE_COLLECT, i, 0, List.replicate 8 0⟩) s1).recGo

/-- WRITE of AG_REC_CTRL (R323): one that comes during the daily comparison makes it a write. (DEDUCED, log 38; DESIGN CHOICE, log 54) -/
def Slice.recCmd (s : Slice) : Slice :=
  if !s.lead || s.flag AG_REC_CTRL AG_REC_CTRL_BUSY || s.flag NV_STEWARD NV_STEWARD_HALT then s
  else if s.age.collecting then
    { s.raise AG_REC_CTRL AG_REC_CTRL_BUSY with age := { s.age with forced := true } }.recGo
  else if s.recSpaced then s.recStart true
  else (s.setFld AG_REC_CTRL AG_REC_CTRL_RESULT 1).raise AG_REC_CTRL AG_REC_CTRL_DONE

/-- A collected entry is back at the lead. -/
def Slice.recBack (s : Slice) (dst : Nat) (e : BitVec 256) : Slice :=
  if s.age.waiting.contains dst then
    ({ s with age := { s.age with waiting := s.age.waiting.filter (fun i => i != dst), collect := Tbl.put 0 s.age.collect dst e } }).recGo
  else s

/-- The bank that a write takes: the one not selected, or bank 0 where neither is valid. (DEDUCED, log 38) -/
def Slice.recBank (s : Slice) : Nat :=
  if s.fld AG_REC_CTRL AG_REC_CTRL_SOURCE = 2 then 0 else 1 - s.fld AG_REC_CTRL AG_REC_CTRL_BANK

/-- The write of the record has ended: erased, programmed, read back and checked, as the flash answers (R323). -/
def Slice.recDone (s : Slice) (r : RecordEnd) : Slice :=
  if !s.age.programming then s
  else
    let c := AG_REC_CTRL
    let s1 := { ((s.clearF c AG_REC_CTRL_BUSY).raise c AG_REC_CTRL_DONE) with age := { s.age with programming := false } }
    match r with
    | .nvmErr => s1.setFld c AG_REC_CTRL_RESULT 2
    | .verify => s1.setFld c AG_REC_CTRL_RESULT 3
    | .ok =>
      let b := s.recBank
      let s1 := ((s1.setFld c AG_REC_CTRL_RESULT 0).setFld c AG_REC_CTRL_BANK b).setFld c AG_REC_CTRL_SOURCE b
      let s1 := s1.setFld c AG_REC_CTRL_SEQ (seqNext (s.fld c AG_REC_CTRL_SEQ))
      ({ s1 with age := { s1.age with stored := s1.age.collect } }).setFld AG_POH AG_POH_LAST_WRITE (s.fld AG_POH AG_POH_NOW)

/-- A powered-on second of the lead (R323): NOW advances, and a day after the last write the entries are compared. (DEDUCED, log 38) -/
def Slice.pohSecond (s : Slice) : Slice :=
  if !s.lead || !s.ready then s
  else
    let s := s.setFld AG_POH AG_POH_NOW (s.fld AG_POH AG_POH_NOW + 1)
    if s.recSpaced && !(s.flag AG_REC_CTRL AG_REC_CTRL_BUSY) && !s.age.collecting && !(s.flag NV_STEWARD NV_STEWARD_HALT) then s.recStart false else s

end Sys2Proof.Machine
end

