-- ==== Sys2Proof/Machine/Errors.lean ====
section
/-! DEFINITION. Repairs, the patrol sweep, the leaky bucket, injection, the retire table and spare banks (spec 14_error_protection.md R331 to
R342). -/

namespace Sys2Proof.Machine

/-- The bank in which the patrol reaches a physical bank of a half: 16 + h for the one that serves no set. -/
def Slice.patrolBank (s : Slice) (h pb : Nat) : Nat :=
  match s.activeBank h pb with
  | some b => h * 8 + b
  | none => 16 + h

/-- The physical bank of a bank. -/
def Slice.patrolPhys (s : Slice) (bk : Nat) : Nat :=
  if bk < 16 then s.physBank (bk / 8) (bk % 8) else (firstBelow 9 (fun pb => (s.activeBank (bk - 16) pb).isNone)).getD 8

/-- A candidate of the patrol's priority is granted the slot of its bank (R27, R294); no one else reaches the bank that serves no set, and no candidate does during a
copy (R342). -/
def Slice.patrolMay (s : Slice) (bk : Nat) : Bool :=
  if bk < 16 then s.innerGranted bk 5 && !(s.damped bk none)
  else (s.bank bk).slotFree s.slotFc && !(s.sparing.any (fun x => b2n x.1 = bk - 16))

/-- A two-slot grant of the patrol or a repair in a bank. -/
def Slice.patrolGrant (s : Slice) (bk : Nat) : Slice :=
  (s.grant bk s.slotFc 2 1 (some 4) 16 { Occ.none with pid := some 0, half := some (halfOfBank bk) }).2

/-- A target is read and its corrected words are written back. -/
def Slice.scrub (s : Slice) (arr idx src : Nat) : Slice :=
  if s.flips = [] then s else (s.noteReads arr idx src (fun _ => true)).writeBack arr idx

/-- A frame with its tag words. -/
def Slice.scrubFrame (s : Slice) (key src : Nat) : Slice := ((s.scrub 0 key src).scrub 1 key src).scrub 2 key src

/-! ### Repairs (R331) -/

/-- The bank of a repair: that of the frame, the row or the victim entry's set; a ledger word has none of its own. (DESIGN CHOICE, log 12) -/
def Slice.repairBank (s : Slice) (arr idx : Nat) : Nat :=
  if arr ≤ 3 then s.patrolBank (targetBank arr idx).1 (targetBank arr idx).2
  else if arr = 4 then bankKey (s.vict idx).setIdx else 0

/-- The oldest repair of a half is granted, if the arbiter of its bank grants it now (R331). -/
def Slice.repairGrant (s : Slice) (h : Nat) : Slice :=
  match (if h = 0 then s.repairs0 else s.repairs1) with
  | [] => s
  | t :: rest =>
    let arr := t / 2 ^ 18
    let idx := t % 2 ^ 18
    let bk := s.repairBank arr idx
    if !(s.flag EC_CTRL EC_CTRL_REPAIR_EN) || s.patrolHeld then s
    else if !(s.awake (halfOfBank bk)) then s.wakeTrigger (halfOfBank bk)
    else if !(s.patrolMay bk) then s
    else
      let s := (if h = 0 then { s with repairs0 := rest } else { s with repairs1 := rest }).patrolGrant bk
      if arr = 0 then s.scrubFrame idx 2 else s.scrub arr idx 2

/-! ### Quarantine work (R332) -/

/-- The quarantine work on the first frame that waits for it, at the sweep's priority, if the arbiter of its bank grants it now; what it cannot do yet waits in the
hold queue (R125, R332). -/
def Slice.quarantineWork (s : Slice) : Slice :=
  match s.quarantine with
  | [] => s
  | key :: rest =>
    let bk := s.frameBank key
    let n := (s.bank bk).holdq.length
    if !(s.awake (keyHalf key)) then s.wakeTrigger (keyHalf key)
    else if !(s.innerGranted bk 4) || s.damped bk none || !(s.room bk 1) then s
    else
      let s := { s with quarantine := rest }.touchHalf (keyHalf key)
      let (g, s1) := s.grant bk s.slotFc 1 1 (some 4) 16 { Occ.none with pid := some 0, half := some (bk / 8) }
      s1.noteTags (s1.serveQuarantine (s1.frameReq OP_QUARANTINE 1023 key) key (Gr.new g)) bk g n 16

/-! ### The patrol sweep (R340, R341) -/

/-- Step n in a bank at its grant. -/
def Slice.patrolOne (s : Slice) (bk n : Nat) : Slice :=
  let key := frameKeyOf (halfOfBank bk) (s.patrolPhys bk) (n / 16) (n % 16)
  let u := ((s.patrolGrant bk).tevt TV_MAINT).scrubFrame key 1
  if n % 16 = 0 then u.scrub 3 (key / 16) 1 else u

/-- Step n in every bank of a half, the spare included: each waits for its bank's arbiter. -/
def Slice.patrolHalf (s : Slice) (h n : Nat) : Slice :=
  ((List.range 8).map (fun b => h * 8 + b) ++ [16 + h]).foldl (fun t bk =>
    let t := if bk < 16 then t.touchHalf h else t
    if !(t.patrols.any (fun p => p.1 = bk)) && t.patrolMay bk then t.patrolOne bk n else { t with patrols := t.patrols ++ [(bk, n)] }) s

/-- A list without its first entry of a bank. -/
def dropPatrol (bk : Nat) : List (Nat × Nat) → List (Nat × Nat)
  | [] => []
  | p :: t => if p.1 = bk then t else p :: dropPatrol bk t

/-- A step that waits in a bank is granted. -/
def Slice.patrolWaits (s : Slice) (bk n : Nat) : Slice := ({ s with patrols := dropPatrol bk s.patrols }).patrolOne bk n

/-- The deferred steps of a half, as runs of a first step and a length, oldest first. -/
def Slice.deferred (s : Slice) (h : Nat) : List (Nat × Nat) := Tbl.at [] s.defers h

/-- A step joins the runs of deferred steps. -/
def deferAdd (n : Nat) : List (Nat × Nat) → List (Nat × Nat)
  | [] => [(n, 1)]
  | [r] => if (r.1 + r.2) % 4096 = n then [(r.1, r.2 + 1)] else [r, (n, 1)]
  | r :: t => r :: deferAdd n t

/-- A step at a half: skipped in OFF, deferred outside AWAKE, performed in AWAKE. -/
def Slice.patrolAt (s : Slice) (h n : Nat) : Slice :=
  if (s.half h).power = .off then s
  else if s.awake h then s.patrolHalf h n
  else
    let d0 := s.fld EC_PATROL_STATUS (deferField h)
    let d := min 4096 (d0 + 1)
    let s := if d0 < 4096 then { s.setFld EC_PATROL_STATUS (deferField h) d with defers := Tbl.put [] s.defers h (deferAdd n (s.deferred h)) } else s
    let b := min 4096 (s.fld EC_PATROL EC_PATROL_BATCH)
    if b != 0 && decide (b ≤ d) then s.wakeTrigger h else s

/-- One patrol step (R340). -/
def Slice.patrolStep (s : Slice) : Slice :=
  if !(s.flag EC_PATROL EC_PATROL_EN) || s.patrolHeld || s.flag NV_STEWARD NV_STEWARD_HALT || !s.ready then s
  else
    let n := s.fld EC_PATROL_STATUS EC_PATROL_STATUS_STEP
    let s := (s.patrolAt 0 n).patrolAt 1 n
    let s := ((s.scrub 4 (n % 32) 1).scrub 5 n 1).scrub 5 (4096 + n) 1
    let s := if n = 4095 then s.bump EC_PATROL_STATUS EC_PATROL_STATUS_PASSES 1 else s
    s.setFld EC_PATROL_STATUS EC_PATROL_STATUS_STEP ((n + 1) % 4096)

/-- One deferred step of a half that is AWAKE, the oldest first (R341). -/
def Slice.patrolDeferred (s : Slice) (h : Nat) : Slice :=
  match s.deferred h with
  | [] => s
  | r :: rest =>
    if !(s.awake h) || s.patrolHeld then s
    else
      let left := if r.2 ≤ 1 then rest else ((r.1 + 1) % 4096, r.2 - 1) :: rest
      let s := { s with defers := Tbl.put [] s.defers h left }
      (s.setFld EC_PATROL_STATUS (deferField h) (s.fld EC_PATROL_STATUS (deferField h) - 1)).patrolHalf h r.1

/-- LEVEL falls by 1 at each count that is a multiple of 2^LEAK_SHIFT (R338). -/
def Slice.bucketLeak (s : Slice) : Slice :=
  if s.count.toNat % 2 ^ (s.fld EC_BUCKET EC_BUCKET_LEAK_SHIFT) = 0 then
    s.setFld EC_BUCKET EC_BUCKET_LEVEL (s.fld EC_BUCKET EC_BUCKET_LEVEL - 1)
  else s

/-! ### Injection (R339) -/

/-- ARM of EC_FLIP_CTRL: ignored for ARRAY 6 and 7. -/
def Slice.flipArm (s : Slice) : Slice :=
  if 6 ≤ s.fld EC_FLIP_CTRL EC_FLIP_CTRL_ARRAY then s else s.raise EC_FLIP_CTRL EC_FLIP_CTRL_ARMED

/-! ### The retire table (R335) -/

/-- The frame that a word in the layout of EC_RT names. -/
def rtKey (v : Word) : Nat := frameKeyOf (getF v EC_RT_HALF) (getF v EC_RT_BANK) (getF v EC_RT_ROW) (getF v EC_RT_WAY)

/-- The fields of EC_RT that a write changes. -/
def rtFields (old v : Word) : Word :=
  [EC_RT_VALID, EC_RT_STATE, EC_RT_HALF, EC_RT_BANK, EC_RT_ROW, EC_RT_WAY].foldl (fun w f => setF w f (getF v f)) old

/-- A write of EC_RT (R335): one that names a frame of another valid entry, or that clears VALID while LOST = 1, is ignored; one that enters a
frame with a line in the cache evicts it. -/
def Slice.rtWrite (s : Slice) (i : Nat) (v : Word) : Slice :=
  let old := s.reg (EC_RT i)
  let on := getF v EC_RT_VALID = 1
  let taken := on && (match firstBelow 64 (fun j => j != i && s.flag (EC_RT j) EC_RT_VALID && rtKey (s.reg (EC_RT j)) = rtKey v) with
    | some _ => true
    | none => false)
  if taken || (!on && getF old EC_RT_LOST = 1) then s
  else
    let was := (s.rtFind (rtKey v)).isSome
    let s := s.setReg (EC_RT i) (rtFields old v)
    let key := rtKey v
    if on && !was && getF (s.frame key).w0 T0_VALID = 1 && !(s.outsideCache (keyWay key)) && (s.keySet key).isSome then
      (s.raise (EC_RT i) EC_RT_BUSY).startWalk (.retire key)
    else s

/-! ### Spare banks (R342) -/

/-- The fields of a half in EC_SPARE. -/
def spareValid (h : Nat) : Fld := if h = 0 then EC_SPARE_H0_VALID else EC_SPARE_H1_VALID
def spareBank (h : Nat) : Fld := if h = 0 then EC_SPARE_H0_BANK else EC_SPARE_H1_BANK

/-- A mapping write asks for a half. -/
def mapsHalf (v : Word) (h : Nat) : Bool := getF v (spareValid h) = 1

/-- The slice is quiesced: it holds requests at its inputs, and none is under way (R26). (DEDUCED, log 64) -/
def Slice.quiesced (s : Slice) : Bool :=
  s.flag ID_CTRL ID_CTRL_QUIESCE
    && s.banks.all (fun b => b.2.holdq = [] && b.2.htes = [] && b.2.conts = []) && s.fills = [] && s.pinOps = [] && s.fan = [] && s.walks = []
    && s.txns = [] && s.txnWait = []

/-- A write of EC_SPARE that maps a bank onto the spare starts a copy, or is refused (R342). A half already mapped keeps its mapping. (DEDUCED, log 13) -/
def Slice.spareWrite (s : Slice) (v : Word) : Slice :=
  let wants := [0, 1].filter (mapsHalf v)
  if wants != [] && (!s.quiesced || s.flag EC_SPARE EC_SPARE_BUSY || wants.any (fun h => s.flag EC_SPARE (spareValid h))) then
    s.raise EC_SPARE EC_SPARE_REFUSED
  else
    let s := [0, 1].foldl (fun t h =>
      if t.flag EC_SPARE (spareValid h) then t
      else
        let t := t.setFld EC_SPARE (spareBank h) (getF v (spareBank h))
        if mapsHalf v h then
          { t.raise EC_SPARE (spareValid h) with sparing := t.sparing ++ [(decide (h = 1), getF v (spareBank h))] }
        else t) s
    if wants = [] then s else s.raise EC_SPARE EC_SPARE_BUSY

/-- One word of a copy: corrected, or left uncorrectable with c0 and c1 inverted. (DEDUCED, log 13) -/
def Slice.copyWord (s : Slice) (arr src' dst w : Nat) : Slice :=
  let bad := s.readCw arr src' w = .bad
  let t := ((s.noteRead arr src' 4 w).putWord arr dst w (s.usedWord arr src' w)).wrote arr dst w
  if bad then { t with flips := Tbl.put 0 t.flips (cwOf arr dst w) (BitVec.ofNat 72 (3 * 2 ^ 64)) } else t

/-- The words of a frame or row that a copy has to look at: the masked ones, and while an injection waits every one (R339). -/
def Slice.copyWords (s : Slice) (arr src' : Nat) : List Nat :=
  if s.flag EC_FLIP_CTRL EC_FLIP_CTRL_ARMED then List.range (if arr = 0 then 16 else 1) else s.flipWords arr src'

/-- One frame of a copy, with its tag words; a lost line stays lost (R342). -/
def Slice.copyFrame (s : Slice) (src' dst : Nat) : Slice :=
  let f := Tbl.at Frame.zero s.frames src'
  let s := { s with frames := Tbl.put Frame.zero s.frames dst f, lostKeys := if s.frameLost src' then s.lostKeys ++ [dst] else s.lostKeys }
  [0, 1, 2].foldl (fun t arr => (t.copyWords arr src').foldl (fun u w => u.copyWord arr src' dst w) t) s

/-- A physical bank holds nothing: its frames, replacement words and masks go. -/
def Slice.wipeBank (s : Slice) (h b : Nat) : Slice :=
  let inBank := fun (k : Nat) => keyHalf k = h && keyPBank k = b
  let masked := fun (k : Nat) => (decide (k / 32 / 2 ^ 18 ≤ 2) && inBank (k / 32 % 2 ^ 18)) || (decide (k / 32 / 2 ^ 18 = 3) && inBank (k / 32 % 2 ^ 18 * 16))
  { s with injAt := s.injAt.filter (fun k => !(masked k)), lostKeys := s.lostKeys.filter (fun k => !(inBank k)),
           frames := s.frames.filter (fun e => !(inBank e.1)), repl := s.repl.filter (fun e => !(inBank (e.1 * 16))),
           flips := s.flips.filter (fun e => !(masked e.1)) }

/-- What the replaced bank held is out of reach; its retire-table entries have no effect. (DEDUCED, log 13) -/
def Slice.dropBank (s : Slice) (h b : Nat) : Slice :=
  let s := s.wipeBank h b
  (List.range 64).foldl (fun t i =>
    if t.flag (EC_RT i) EC_RT_LOST && t.fld (EC_RT i) EC_RT_HALF = h && t.fld (EC_RT i) EC_RT_BANK = b then t.clearF (EC_RT i) EC_RT_LOST else t) s

/-- The rows of a physical bank that a copy has to look at: those in which something is stored or masked, and the first, in which an injection that waits takes its
word. -/
def Slice.copyRows (s : Slice) (h b : Nat) : List Nat :=
  (List.range 256).filter (fun r => r = 0 || s.repl.any (fun e => e.1 = (h * 9 + b) * 256 + r) || s.flips.any (fun e => e.1 / 32 = targetOf 3 ((h * 9 + b) * 256 + r)))

/-- The frames of a physical bank that a copy has to look at. -/
def Slice.copyKeys (s : Slice) (h b : Nat) : List Nat :=
  (List.range 4096).map (fun n => frameKeyOf h b (n / 16) (n % 16)) |>.filter (fun k => k % 4096 = 0 || s.frames.any (fun e => e.1 = k)
    || s.flips.any (fun e => decide (e.1 / 32 / 2 ^ 18 ≤ 2) && e.1 / 32 % 2 ^ 18 = k))

/-- The copy of one bank onto the spare, whose every word is written. (DEDUCED, log 13) -/
def Slice.copyBank (s : Slice) (h b : Nat) : Slice :=
  let s := s.wipeBank h 8
  let s := (s.copyKeys h b).foldl (fun t k => t.copyFrame k (frameKeyOf h 8 (keyRow k) (keyWay k))) s
  let s := (s.copyRows h b).foldl (fun t r =>
    let k := (h * 9 + b) * 256 + r
    let t := { t with repl := Tbl.put 0 t.repl ((h * 9 + 8) * 256 + r) (Tbl.at 0 t.repl k) }
    (t.copyWords 3 k).foldl (fun u w => u.copyWord 3 k ((h * 9 + 8) * 256 + r) w) t) s
  s.dropBank h b

/-- The copy ends: B8 serves the sets of the bank (R342). -/
def Slice.spareCopyDone (s : Slice) : Slice :=
  if s.sparing = [] then s
  else
    let s := s.sparing.foldl (fun t x => t.copyBank (b2n x.1) x.2) s
    (({ s with sparing := [] }).clearF EC_SPARE EC_SPARE_BUSY).raise EC_SPARE EC_SPARE_DONE

end Sys2Proof.Machine
end

