-- ==== Sys2Proof/Machine/Nvm.lean ====
section
/-! DEFINITION. The NVM port as host software commands it (spec 16_startup_image.md R381), and the readback of arrays (17_counters_debug.md
R397). -/

namespace Sys2Proof.Machine

/-! ### NV_CMD (R381) -/

/-- The results of NV_CMD (R385). -/
abbrev NVR_OK : Nat := 0
abbrev NVR_PROTECTED : Nat := 1
abbrev NVR_TIMEOUT : Nat := 2
abbrev NVR_NO_SUPPORT : Nat := 3
abbrev NVR_RANGE : Nat := 4

/-- The operations of NV_CMD (R385). -/
abbrev NVO_READ : Nat := 1
abbrev NVO_PROGRAM : Nat := 2
abbrev NVO_ERASE : Nat := 3

/-- A command ends with a result: DONE is set and BUSY clears. -/
def Slice.nvEnd (s : Slice) (code : Nat) : Slice :=
  ((s.setFld NV_CMD NV_CMD_RESULT code).clearF NV_CMD NV_CMD_BUSY).raise NV_CMD NV_CMD_DONE

/-- The first and the last byte that a command changes. -/
def nvTouched (op addr len : Nat) : Nat × Nat := if op = NVO_PROGRAM then (addr, addr + len - 1) else (addr / 4096 * 4096, addr / 4096 * 4096 + 4095)

/-- Two byte ranges meet. -/
def rangesMeet (a b : Nat × Nat) : Bool := decide (a.1 ≤ b.2) && decide (b.1 ≤ a.2)

/-- The selected image bank and the sectors of both ageing-record banks. -/
def Slice.nvProtected (s : Slice) : List (Nat × Nat) :=
  let b := s.fld NV_STATUS NV_STATUS_BANK * 0x100000
  let img := if s.flag NV_STATUS NV_STATUS_NO_IMAGE then [] else [(b, b + 0xFFFFF)]
  match s.start.recBanks with
  | some (x, y) => img ++ [(x / 4096 * 4096, x / 4096 * 4096 + 4095), (y / 4096 * 4096, y / 4096 * 4096 + 4095)]
  | none => img

/-- The command may run: in the lead, once READY, or through the test port in step 15 (R381, R395). (DEDUCED, log 43) -/
def Slice.nvAllowed (s : Slice) : Bool := s.lead && (s.ready || s.fld NV_STATUS NV_STATUS_STEP = 15)

/-- START of NV_CMD (R381): ignored while BUSY; OP 0 and OP 4 to 7 do nothing. (DEDUCED, log 43) -/
def Slice.nvStart (s : Slice) : Slice :=
  let op := s.fld NV_CMD NV_CMD_OP
  let len := s.fld NV_CMD NV_CMD_LEN
  let addr := s.fld NV_ADDR NV_ADDR_ADDR
  if !s.nvAllowed || s.flag NV_CMD NV_CMD_BUSY || op = 0 || 4 ≤ op then s
  else if len = 0 || 256 < len || (op = NVO_PROGRAM && 256 < addr % 256 + len) then s.nvEnd NVR_RANGE
  else if op != NVO_READ && s.nvProtected.any (rangesMeet (nvTouched op addr len)) then s.nvEnd NVR_PROTECTED
  else { s.raise NV_CMD NV_CMD_BUSY with start := { s.start with nv := (op, len) } }

/-- The bytes that a READ brought are kept in NV_BUF from byte 0. (DEDUCED, log 43) -/
def Slice.nvKeep (s : Slice) (data : List Byte) : Slice :=
  ((List.range data.length).zip data).foldl (fun t e => t.setFld (NV_BUF (e.1 / 8)) ⟨8 * (e.1 % 8), 8⟩ e.2.toNat) s

/-- The flash ends the command (R381). A command waits while a write of the ageing record is in progress; the record may be written next. -/
def Slice.nvDone (s : Slice) (r : FlashEnd) (data : List Byte) : Slice :=
  if !(s.flag NV_CMD NV_CMD_BUSY) || s.age.programming then s
  else
    let (op, len) := s.start.nv
    match r with
    | .ok => ((if op = NVO_READ then s.nvKeep (data.take (min len 256)) else s).nvEnd NVR_OK).recGo
    | .timeout => if op = NVO_READ then s else (s.nvEnd NVR_TIMEOUT).recGo
    | .noSupport => if op = NVO_ERASE then (s.nvEnd NVR_NO_SUPPORT).recGo else s

/-! ### Array readback (R397) -/

/-- The results of a readback (R399). -/
abbrev TDR_OK : Nat := 0
abbrev TDR_SEALED : Nat := 1
abbrev TDR_ASLEEP : Nat := 2
abbrev TDR_BAD_SEL : Nat := 3

/-- The index of the selected codeword in its array; none for a selection beyond the array (R336, R397). -/
def tdIndex (arr half bank index word : Nat) : Option Nat :=
  match arr with
  | 0 => if bank < 9 ∧ index < 4096 then some ((half * 9 + bank) * 4096 + index) else none
  | 1 => if bank < 9 ∧ index < 4096 ∧ word = 0 then some ((half * 9 + bank) * 4096 + index) else none
  | 2 => if bank < 9 ∧ index < 4096 ∧ word = 0 then some ((half * 9 + bank) * 4096 + index) else none
  | 3 => if bank < 9 ∧ index < 256 ∧ word = 0 then some ((half * 9 + bank) * 256 + index) else none
  | 4 => if index < 32 then some index else none
  | 5 => if index < 8192 ∧ word = 0 then some index else none
  | _ => none

/-- The partition to which a frame, victim entry or shelf frame belongs, by its pinned owner or its tag (R397). -/
def Slice.tdOwner (s : Slice) (arr idx : Nat) : Option Nat :=
  if arr ≤ 2 then
    match s.pinOwner (keyWay idx) with
    | some p => some p
    | none => let w := (s.frame idx).w0
              if w.getLsbD 0 then some (getF w ⟨1, 4⟩) else none
  else if arr = 4 && s.victUsed idx then some (getF (s.vict idx).frame.w0 ⟨1, 4⟩) else none

/-- A readback ends. -/
def Slice.tdEnd (s : Slice) (code : Nat) : Slice :=
  ((s.setFld TD_ARR_CMD TD_ARR_CMD_RESULT code).clearF TD_ARR_CMD TD_ARR_CMD_BUSY).raise TD_ARR_CMD TD_ARR_CMD_DONE

/-- The arrays have been filled since power-on, and nothing but the kindling fill keeps them (R329, R364). -/
def Slice.arraysUp (s : Slice) : Bool :=
  let n := s.fld NV_STATUS NV_STATUS_STEP
  s.start.powered && decide (5 ≤ n) && decide (n ≤ 8)

/-- The codeword that a readback reads belongs to a sealed partition (R397). -/
def Slice.tdHidden (s : Slice) (q : TdReq) : Bool :=
  match s.tdOwner q.arr q.idx with
  | some p => s.sealed p
  | none => false

/-- A readback of a sealed partition's codeword ends: DATA and CHECK read as zero, and the access is logged (R56, R397). (DEDUCED, log 43) -/
def Slice.tdSealed (s : Slice) (q : TdReq) : Slice :=
  (((s.setReg TD_ARR_DATA 0).setReg TD_ARR_CHECK 0).tdEnd TDR_SEALED).logErr 0x0B (log1Addr (s.ownAddr TD_ARR_CMD) q.node.toNat)
    ((s.tdOwner q.arr q.idx).getD 0)

/-- The codeword is read in fc g: the stored bits, the stored check byte and the syndrome, and DONE 12 fc on (R397). -/
def Slice.tdRead (s : Slice) (q : TdReq) (g : Nat) : Slice :=
  let d := storedD (s.trueWord q.arr q.idx q.word) (s.flip q.arr q.idx q.word)
  let c := storedC (s.trueWord q.arr q.idx q.word) (s.flip q.arr q.idx q.word)
  let s := ((s.tevt TV_MAINT).setReg TD_ARR_DATA d).setReg TD_ARR_CHECK (setF (setF (0 : Word) TD_ARR_CHECK_SYNDROME (syndromeOf d c).toNat) TD_ARR_CHECK_CHECK c.toNat)
  { s with tdAt := some (g + 12) }

/-- START of TD_ARR_CMD by a node (R397): ignored while BUSY. The tests come in the order BAD_SEL, ASLEEP, SEALED. A word of the banks waits for the grant of its
bank; a victim or ledger word is read beside the banks. (DEDUCED, log 43) -/
def Slice.tdStart (s : Slice) (n : Node) : Slice :=
  let sel := fun (f : Fld) => s.fld TD_ARR_SEL f
  let arr := sel TD_ARR_SEL_ARRAY
  let word := sel TD_ARR_SEL_WORD
  if s.flag TD_ARR_CMD TD_ARR_CMD_BUSY then s
  else match tdIndex arr (sel TD_ARR_SEL_HALF) (sel TD_ARR_SEL_BANK) (sel TD_ARR_SEL_INDEX) word with
    | none => s.tdEnd TDR_BAD_SEL
    | some idx =>
      let q : TdReq := ⟨arr, idx, word, n⟩
      if !s.arraysUp || (arr ≤ 3 && (s.half (targetBank arr idx).1).power != .awake) then s.tdEnd TDR_ASLEEP
      else if s.tdHidden q then s.tdSealed q
      else
        let s := (s.raise TD_ARR_CMD TD_ARR_CMD_BUSY).setFld TD_ARR_CMD TD_ARR_CMD_RESULT TDR_OK
        if 4 ≤ arr then s.tdRead q s.fc else { s with tdReq := some q }

/-- The readback that waits is a candidate in a bank; bank 16 + h is the one of half h that serves no set (R397). -/
def Slice.tdIn (s : Slice) (bk : Nat) : Bool :=
  match s.tdReq with
  | some q => s.patrolBank (targetBank q.arr q.idx).1 (targetBank q.arr q.idx).2 = bk
  | none => false

/-- The readback that waits is granted its bank's slot of the present fc (R397): a codeword that has become a sealed partition's since START is not shown.
(DEDUCED, log 43) -/
def Slice.tdGrant (s : Slice) (bk : Nat) : Slice :=
  match s.tdReq with
  | none => s
  | some q =>
    let s := { s with tdReq := none }
    if s.tdHidden q then s.tdSealed q
    else
      let (g, s) := s.grant bk s.slotFc 1 1 (some 4) 16 { Occ.none with pid := some 0, half := some (halfOfBank bk) }
      s.tdRead q g

/-- The fc in which a readback sets DONE has come. -/
def Slice.tdGo (s : Slice) : Slice :=
  match s.tdAt with
  | none => s
  | some t => if t ≤ s.fc then { s.tdEnd TDR_OK with tdAt := none } else s

end Sys2Proof.Machine
end

