-- ==== Sys2Proof/Machine/RegView.lean ====
section
/-! DEFINITION. Reads of the register window (spec 00_scope.md R9 to R12): the stored value of each field, or the view its chapter
gives it; fields that a slice or a counter lacks; and what the lead alone shows. -/

namespace Sys2Proof.Machine

/-! ### Decoding an offset (R11) -/

/-- The index of an offset within an array of equal registers. -/
def RegDef.index (r : RegDef) (off : Nat) : Option Nat :=
  if r.base ≤ off ∧ (off - r.base) % r.stride = 0 ∧ (off - r.base) / r.stride < r.count then some ((off - r.base) / r.stride) else none

/-- The register at an offset, and its index. -/
def regAt (off : Nat) : Option (RegDef × Nat) := regTable.findSome? (fun r => (r.index off).map (fun i => (r, i)))

/-- The mask of a field. -/
def fldMask (f : Fld) : Word := (BitVec.allOnes f.len).setWidth 64 <<< f.lo

/-- The mask of the fields of a register that a test selects. -/
def RegDef.mask (r : RegDef) (p : FldDef → Bool) : Word := r.flds.foldl (fun m f => if p f then m ||| fldMask f.fld else m) 0

/-! ### Fields that are not there -/

/-- Registers that read as zero and ignore writes outside the lead (R324, R363, R385). -/
def leadOnly (base : Nat) : Bool :=
  base = RG_CTRL || base = RG_RING_LAT || base = RG_BR_CFG || base = RG_BR_LAT || base = RG_BR_OFFSET || base = RG_CNT_ADJ || base = RG_CNT_ADJ_TICK
    || base = NV_CMD || base = NV_ADDR || base = NV_BUF 0 || base = AG_REC_CTRL || base = AG_POH

/-- The governor's registers, which read as zero outside the lead (R307). -/
def governorReg (base : Nat) : Bool :=
  decide (0x3000 ≤ base) && decide (base < 0x3800)
    && !(base = PG_DROOP || base = PG_CORES || base = PG_CORE_REG || base = PG_ACT_WT || base = PG_ACT_REPORT || base = PG_ENERGY 0
      || base = PG_LOG_SEL || base = PG_LOG0 || base = PG_LOG1 || base = PG_LOG_STATUS)

/-- Fields that this slice, or this copy of a register, does not have: they read as zero and ignore writes (R324, R363, R398). -/
def Slice.absent (s : Slice) (base i : Nat) (f : Fld) : Bool :=
  (base = PC_CFG 0 && ((decide (i < 28) && f = PC_CFG_IRQ_EN) || (decide (28 ≤ i) && f = PC_CFG_OWNER)))
    || (!s.lead && ((base = RG_STATUS && (f = RG_STATUS_BR_DOWN || f = RG_STATUS_BR_UP || f = RG_STATUS_CSKIP || f = RG_STATUS_ADJ_REFUSED))
      || (base = RG_RETRY && f = RG_RETRY_BOARD) || (base = AG_PLAN && f = AG_PLAN_GROUP_VOFF)))

/-! ### Views -/

/-- Eight home-map entries as in ID_HM_DATA. -/
def Slice.mapGroup (s : Slice) (g : Nat) : Word :=
  (List.range 8).foldl (fun w k => setF w ⟨8 * k, 6⟩ (Tbl.at 0 s.homeMap (8 * g + k)).toNat) 0

/-- The CRC of the map as it stood 1,100 fc ago. -/
def Slice.mapCrc (s : Slice) : Nat :=
  match (s.hmCrc.filter (fun e => decide (e.1 + 1100 ≤ s.fc))).getLast? with
  | some e => e.2.toNat
  | none => s.fld ID_HM_CRC ID_HM_CRC_CRC

/-- The clock of a half runs. -/
def Slice.halfClock (s : Slice) (h : Nat) : Bool := s.start.powered && (s.half h).power = .awake

/-- ID_STATUS (R41). -/
def Slice.viewStatus (s : Slice) (w : Word) : Word :=
  setF (setF (setF w ID_STATUS_H0_AWAKE (b2n (s.halfClock 0))) ID_STATUS_H1_AWAKE (b2n (s.halfClock 1))) ID_STATUS_QUIESCED (b2n s.quiesced)

/-- The occupancies of SY_STATUS. -/
def Slice.viewSync (s : Slice) (w : Word) : Word :=
  setF (setF w SY_STATUS_WT_OCC s.waiters.length) SY_STATUS_DRAIN_OCC (s.drains.filter (fun d => d.2.busy)).length

/-- The selected waiter-table entry; an entry of a sealed partition reads as zero (R56, R216). -/
def Slice.viewWaiter (s : Slice) (f : Waiter → Word) : Word :=
  let e := s.fld SY_WT_SEL SY_WT_SEL_ENTRY
  if s.waiters.any (fun x => x.1 = e) && !(s.sealed (s.waiter e).pid.toNat) then f (s.waiter e) else 0

/-- The encoding of a transient state (R123). -/
def hteCode : HteState → Nat
  | .free => 0 | .wMem => 1 | .wAck => 2 | .wFwd => 3 | .wInv => 4 | .wPush => 5 | .wMemAck => 6 | .wRecall => 7

/-- The selected HTE. -/
def Slice.selHte (s : Slice) : Hte :=
  let f := fun x => s.fld CO_HTE_SEL x
  s.hte (f CO_HTE_SEL_HALF * 8 + f CO_HTE_SEL_BANK) (f CO_HTE_SEL_ENTRY)

/-- CO_HTE_VIEW0 (R146). -/
def Hte.view0 (e : Hte) : Word :=
  setF (setF (setF (setF (setF (setF (setF (setF (setF (0 : Word) CO_HTE_VIEW0_STATE (hteCode e.st)) CO_HTE_VIEW0_GRANT e.grant)
    CO_HTE_VIEW0_NEED_ACK (b2n e.needAck)) CO_HTE_VIEW0_GOT_ACK (b2n e.gotAck)) CO_HTE_VIEW0_GOT_ANS (b2n e.gotAns)) CO_HTE_VIEW0_DCLASS (b2n e.dclass))
    CO_HTE_VIEW0_PID e.pid) CO_HTE_VIEW0_OP e.op.toNat) CO_HTE_VIEW0_LINE e.line

/-- CO_HTE_VIEW1 (R146). (DEDUCED, log 69) -/
def Hte.view1 (e : Hte) : Word :=
  setF (setF (setF (setF (0 : Word) CO_HTE_VIEW1_PEND e.pend) CO_HTE_VIEW1_RNODE e.rnode.toNat) CO_HTE_VIEW1_COVER e.cover.toNat)
    CO_HTE_VIEW1_RTXN e.rtxn.toNat

/-- CZ_OCC: the cache frames of each layout, and the victim entries. -/
def Slice.viewOcc (s : Slice) : Word :=
  setF (setF (setF (setF (0 : Word) CZ_OCC_RAW (s.countLayout 0)) CZ_OCC_PAIR (s.countLayout 1)) CZ_OCC_QUAD (s.countLayout 2)) CZ_OCC_VB s.victCount

/-- CZ_FO_ACTIVE: the busy fan-out entries. -/
def Slice.viewFan (s : Slice) : Word :=
  (List.range 16).foldl (fun w k => if s.fanBusy k then setF w ⟨k, 1⟩ 1 else w) 0

/-- The sum of the 32 MIN fields. -/
def Slice.minSum (s : Slice) : Nat := ((List.range 32).map s.bwMin).sum

/-- PG_PH_VIEW0 and PG_PH_VIEW1. -/
def Phase.view0 (e : Phase) : Word :=
  setF (setF (setF (setF (setF (0 : Word) PG_PH_VIEW0_VALID (b2n e.valid)) PG_PH_VIEW0_ANY (b2n e.any)) PG_PH_VIEW0_PID e.pid.toNat)
    PG_PH_VIEW0_PHASE e.phase) PG_PH_VIEW0_SAMPLES e.samples
def Phase.view1 (e : Phase) : Word :=
  setF (setF (setF (setF (0 : Word) PG_PH_VIEW1_LAST_USE e.lastUse) PG_PH_VIEW1_D_LOGIC (e.d.getD 0 0)) PG_PH_VIEW1_D_SRAM (e.d.getD 1 0))
    PG_PH_VIEW1_D_MEM (e.d.getD 2 0)

/-- PG_LEVEL: the levels in effect at this slice. -/
def Slice.viewLevels (s : Slice) : Word := (List.range 16).foldl (fun w p => setF w ⟨4 * p, 4⟩ (Tbl.at 0 s.gov.levels p)) 0

/-- The encoding of the power states (R310). -/
def powerCode : Power → Nat
  | .awake => 0 | .retention => 1 | .off => 2 | .waking => 3

/-- The states of the halves, and whether a partition holds them awake (R310, R315). -/
def Slice.viewPower (s : Slice) (w : Word) : Word :=
  setF (setF (setF w AG_PSTATE_H0_STATE (powerCode s.half0.power)) AG_PSTATE_H1_STATE (powerCode s.half1.power)) AG_PSTATE_HELD (b2n s.detHeld)

/-- AG_MON_VIEW of the selected monitor. -/
def Slice.viewMon (s : Slice) : Word :=
  let i := s.fld AG_MON_SEL AG_MON_SEL_MON
  setF (setF (setF (setF (0 : Word) AG_MON_VIEW_COUNT (Tbl.at 0 s.age.counts i)) AG_MON_VIEW_BASE (Tbl.at 0 s.age.base i))
    AG_MON_VIEW_RATIO (fitRatio i (Tbl.at 0 s.age.ratios i))) AG_MON_VIEW_SLOW (Tbl.at 0 s.age.slows i)

/-- The selected error-log entry. -/
def Slice.selLog (s : Slice) : LogEntry := Tbl.at ⟨0, 0, 0⟩ s.errLog (s.fld EC_LOG_SEL EC_LOG_SEL_ENTRY)

/-- DG_DET_STATUS: fixed frequency, and whether timing repeats (R238). -/
def Slice.viewDet (s : Slice) (w : Word) : Word :=
  let fixed := s.flag PG_CTRL PG_CTRL_FIXED_FREQ
  let ok := fixed && getF w DG_DET_STATUS_XING_ALIGNED = 15 && !(s.flag DG_DET_CTRL DG_DET_CTRL_SEAM_ASYNC)
  setF (setF w DG_DET_STATUS_FIXED_FREQ (b2n fixed)) DG_DET_STATUS_DET_TIMING (b2n ok)

/-- The value of a register before its write-only and absent fields are removed. -/
def Slice.viewReg (s : Slice) (base i : Nat) (w : Word) : Word :=
  if base = ID_STATUS then s.viewStatus w
  else if base = ID_HM_DATA then s.mapGroup (s.fld ID_HM_INDEX ID_HM_INDEX_GROUP)
  else if base = ID_HM_CRC then setF w ID_HM_CRC_CRC s.mapCrc
  else if base = SY_STATUS then s.viewSync w
  else if base = SY_WT_VIEW0 then s.viewWaiter Waiter.view0
  else if base = SY_WT_VIEW1 then s.viewWaiter Waiter.view1
  else if base = CO_HTE_VIEW0 then s.selHte.view0
  else if base = CO_HTE_VIEW1 then s.selHte.view1
  else if base = CZ_OCC then s.viewOcc
  else if base = CZ_FO_ACTIVE then s.viewFan
  else if base = CZ_FO_CRED_VAL then setF w CZ_FO_CRED_VAL_COUNT (s.foCredits (s.fld CZ_FO_CRED_SEL CZ_FO_CRED_SEL_CORE))
  else if base = BW_STATUS then setF w BW_STATUS_MIN_SUM s.minSum
  else if base = PG_LEVEL then s.viewLevels
  else if base = PG_PH_VIEW0 then (s.phase (s.fld PG_PH_SEL PG_PH_SEL_ENTRY)).view0
  else if base = PG_PH_VIEW1 then (s.phase (s.fld PG_PH_SEL PG_PH_SEL_ENTRY)).view1
  else if base = PG_LOG0 then (s.logWord (s.fld PG_LOG_SEL PG_LOG_SEL_ENTRY)).1
  else if base = PG_LOG1 then (s.logWord (s.fld PG_LOG_SEL PG_LOG_SEL_ENTRY)).2
  else if base = AG_PSTATE then s.viewPower w
  else if base = AG_MON_VIEW then s.viewMon
  else if base = EC_LOG0 then s.selLog.stamp
  else if base = EC_LOG1 then s.selLog.log1
  else if base = EC_LOG2 then s.selLog.log2
  else if base = EC_PATROL_STATUS then setF w EC_PATROL_STATUS_SUSPENDED (b2n s.patrolHeld)
  else if base = EC_REPAIR then setF (setF w EC_REPAIR_OCC_H0 s.repairs0.length) EC_REPAIR_OCC_H1 s.repairs1.length
  else if base = PC_VAL 0 then setF w PC_VAL_STAMP (s.count.toNat % 65536)
  else if base = PC_SMP0 0 then (if s.sealed (s.fld (PC_SMP1 i) PC_SMP1_PID) then setF w PC_SMP0_ADDR 0 else w)
  else if base = EP_SHELF then setF w EP_SHELF_OCC s.shelfOcc
  else if base = DG_DET_STATUS then s.viewDet w
  else if base = RG_STATUS then setF w RG_STATUS_STOP s.stop
  else if base = RG_COUNT then s.count
  else w

/-- What a read of an offset returns (R11, R12): write-only and reserved bits, absent fields and undefined offsets read as zero. -/
def Slice.peek (s : Slice) (off : Nat) : Word :=
  match regAt off with
  | none => 0
  | some (r, i) =>
    if !s.lead && (leadOnly r.base || governorReg r.base) then 0
    else s.viewReg r.base i (s.reg off) &&& r.mask (fun f => f.acc != .wo && !(s.absent r.base i f.fld))

end Sys2Proof.Machine
end

