-- ==== Sys2Proof/Machine/RegFile.lean ====
section
/-! DEFINITION. Writes of the register window: access codes, locks and refusals (spec 00_scope.md R9 to R15, and the register sections of every
chapter), and the actions of write-only fields. `load` marks a REG entry of register load (16_startup_image.md R376): no field is
locked and no write-only field acts. -/

namespace Sys2Proof.Machine

/-! ### Locks (R13, R49, R109, R176, R236, R307, R390) -/

/-- The lock of a structure that carries a PID while it is in use. (DEDUCED, log 40) -/
def Slice.pidLock (s : Slice) (valid : Bool) (p : Nat) : Bool := valid && (if p = 0 then s.anyActive else s.ptActive p)

/-- The RWL fields of a register are locked. (DEDUCED, log 40) -/
def Slice.lockedReg (s : Slice) (base i : Nat) : Bool :=
  if base = PT_CTRL 0 || base = PT_WAYS 0 || base = BW_PLIM 0 || (decide (0x5C20 ≤ base) && decide (base ≤ 0x5C38)) then s.ptActive i
  else if base = EP_PCTRL 1 || base = EP_PDRAIN 1 then s.ptActive (i + 1)
  else if base = RM_LO 0 || base = RM_HI 0 then s.pidLock (s.flag (RM_HI i) RM_HI_VALID) (s.fld (RM_HI i) RM_HI_PID)
  else if base = AX_CFG 0 || base = AX_BASE 0 || base = AX_LIMIT 0 then s.pidLock (s.flag (AX_CFG i) AX_CFG_VALID) (s.fld (AX_CFG i) AX_CFG_PID)
  else if base = DG_REG_LO 0 || base = DG_REG_HI 0 then s.pidLock (s.flag (DG_REG_LO i) DG_REG_LO_VALID) (s.fld (DG_REG_LO i) DG_REG_LO_PID)
  else if base = CZ_FO_CFG 0 || base = CZ_FO_TGT 0 then
    s.flag (CZ_FO_CFG i) CZ_FO_CFG_VALID && (if s.fld (CZ_FO_CFG i) CZ_FO_CFG_PID = 0 then s.fanBusy i else s.ptActive (s.fld (CZ_FO_CFG i) CZ_FO_CFG_PID))
  else if base = PC_CFG 0 then decide (i < 28) && s.fld (PC_CFG i) PC_CFG_OWNER != 0 && s.ptActive (s.fld (PC_CFG i) PC_CFG_OWNER)
  else if base = PG_GROUP 0 then s.pidLock true (s.fld (PG_GROUP i) PG_GROUP_PID)
  else s.anyActive

/-- A write that would put a structure in use, or a counter, under an active partition other than PID 0: it is refused as a locked write. -/
def Slice.takesActive (s : Slice) (base i : Nat) (v : Word) : Bool :=
  let act := fun (valid pid : Fld) => getF v valid = 1 && getF v pid != 0 && s.ptActive (getF v pid)
  if base = RM_HI 0 then act RM_HI_VALID RM_HI_PID
  else if base = AX_CFG 0 then act AX_CFG_VALID AX_CFG_PID
  else if base = DG_REG_LO 0 then act DG_REG_LO_VALID DG_REG_LO_PID
  else if base = CZ_FO_CFG 0 then act CZ_FO_CFG_VALID CZ_FO_CFG_PID
  else if base = PC_CFG 0 then decide (i < 28) && getF v PC_CFG_OWNER != 0 && s.ptActive (getF v PC_CFG_OWNER)
  else false

/-! ### Access codes (R12) -/

/-- What a write leaves in one field; `now` holds the bits that events have set in the present fc, which a clear leaves set (R14). -/
def FldDef.write (d : FldDef) (locked : Bool) (now v w : Word) : Word :=
  let m := fldMask d.fld
  match d.acc with
  | .ro => w
  | .wo => w
  | .rw => (w &&& ~~~m) ||| (v &&& m)
  | .rwl => if locked then w else (w &&& ~~~m) ||| (v &&& m)
  | .rw1c => w &&& ~~~(v &&& m &&& ~~~now)
  | .rw1s => w ||| (v &&& m)

/-- What a write leaves in a register; absent fields ignore it. (DESIGN CHOICE, log 10) -/
def Slice.written (s : Slice) (r : RegDef) (i : Nat) (locked : Bool) (v w : Word) : Word :=
  r.flds.foldl (fun x d => if s.absent r.base i d.fld then x else d.write locked (s.nowIn (r.base + i * r.stride)) v x) w

/-- A write would change an RWL field. -/
def Slice.changesRwl (s : Slice) (r : RegDef) (i : Nat) (old v : Word) : Bool :=
  (old ^^^ v) &&& r.mask (fun d => d.acc = .rwl && !(s.absent r.base i d.fld)) != 0

/-! ### Refusals of unlocked writes -/

/-- Two closed ranges of numbers meet. -/
def meets (a b c d : Nat) : Bool := decide (a ≤ d) && decide (c ≤ b)

/-- RM_STATUS of a refused region-map write, with its log entry (R50). -/
def Slice.rmRefuse (s : Slice) (off i : Nat) (n : Node) (f : Fld) : Slice :=
  ((s.raise RM_STATUS f).setFld RM_STATUS RM_STATUS_INDEX i).logReg 0x0A off n 0

/-- The refusal of a region-map write, if any (R50). (DEDUCED, log 40) -/
def Slice.rmBad (s : Slice) (base i : Nat) (v : Word) : Option Fld :=
  if base = RM_LO 0 then (if s.flag (RM_HI i) RM_HI_VALID then some RM_STATUS_BAD_RANGE else none)
  else if base = RM_HI 0 && getF v RM_HI_VALID = 1 then
    let lo := s.fld (RM_LO i) RM_LO_BASE
    let hi := getF v RM_HI_LIMIT
    if hi < lo then some RM_STATUS_BAD_RANGE
    else if (List.range 64).any (fun j => j != i && s.flag (RM_HI j) RM_HI_VALID && meets lo hi (s.fld (RM_LO j) RM_LO_BASE) (s.fld (RM_HI j) RM_HI_LIMIT)) then
      some RM_STATUS_OVERLAP
    else none
  else none

/-- The refusal of a descriptor write that sets VALID = 1 (R177): cause 7 or 8. (DEDUCED, log 40) -/
def Slice.axBad (s : Slice) (d : Nat) (v : Word) : Option Nat :=
  let lo := s.fld (AX_BASE d) AX_BASE_BASE
  let hi := s.fld (AX_LIMIT d) AX_LIMIT_LIMIT
  let kind := getF v AX_CFG_KIND
  if getF v AX_CFG_VALID = 0 then none
  else if hi < lo || (kind = 1 && (2 ^ 14 ≤ lo || 2 ^ 14 ≤ hi)) then some 7
  else if (List.range 32).any (fun e => e != d && s.flag (AX_CFG e) AX_CFG_VALID && s.fld (AX_CFG e) AX_CFG_KIND = kind
      && (kind = 0 || s.fld (AX_CFG e) AX_CFG_PID = getF v AX_CFG_PID) && meets lo hi (s.fld (AX_BASE e) AX_BASE_BASE) (s.fld (AX_LIMIT e) AX_LIMIT_LIMIT)) then some 8
  else none

/-- A mapping write of EC_SPARE is refused (R342). (DEDUCED, log 13) -/
def Slice.spareRefuses (s : Slice) (v : Word) : Bool :=
  let wants := [0, 1].filter (mapsHalf v)
  wants != [] && (!s.quiesced || s.flag EC_SPARE EC_SPARE_BUSY || wants.any (fun h => s.flag EC_SPARE (spareValid h)))

/-- A write of EP_CTRL is refused (R260). (DEDUCED, log 40) -/
def Slice.shelfRefuses (s : Slice) (n : Nat) : Bool :=
  let w := shelfWaysOf n
  n = 3 || w &&& s.pinMask 0 != 0 || decide (14 < popcount (w ||| s.pinnedWays ||| s.pinMask 0))

/-- The sum of the MIN fields with one register replaced (R278). -/
def Slice.minSumWith (s : Slice) (k : Nat) (v : Word) : Nat := (s.setReg (BW_MIN k) v).minSum

/-- The minima are refused: REFUSED and a log entry (R278). (DEDUCED, log 40) -/
def Slice.minRefuse (s : Slice) (off : Nat) (n : Node) : Slice :=
  (({ s with fresh := s.fresh + 1 }).raise BW_STATUS BW_STATUS_REFUSED).logReg (Config.minimumsLogType s.fresh).toNat off n 0

/-- An unlocked write that its chapter refuses whole, with what the refusal sets. (DEDUCED, log 72) -/
def Slice.refusedWrite (s : Slice) (base i off : Nat) (n : Node) (v : Word) (load : Bool) : Option Slice :=
  if base = AX_CFG 0 then (s.axBad i v).map (fun c => s.noteAx c (getF v AX_CFG_PID) i)
  else if base = EC_SPARE then (if s.spareRefuses v then some (s.raise EC_SPARE EC_SPARE_REFUSED) else none)
  else if base = EP_CTRL then (if s.shelfRefuses (getF v EP_CTRL_SHELF_WAYS) then some (s.raise EP_SHELF EP_SHELF_REFUSED) else none)
  else if base = BW_MIN 0 then
    (if !load && decide (224 < s.minSumWith i v) then some (s.minRefuse off n) else none)
  else (s.rmBad base i v).map (fun f => s.rmRefuse off i n f)

/-! ### The home map (R24, R41) -/

/-- The CRC of the map (R41). -/
def Slice.crcOfMap (s : Slice) : BitVec 32 := crc32 ((List.range 1024).map (fun i => (Tbl.at 0 s.homeMap i).setWidth 8))

/-- GROUP advances after an access when AUTOINC is set. (DEDUCED, log 41) -/
def Slice.mapAdvance (s : Slice) : Slice :=
  if s.flag ID_HM_INDEX ID_HM_INDEX_AUTOINC then s.setFld ID_HM_INDEX ID_HM_INDEX_GROUP ((s.fld ID_HM_INDEX ID_HM_INDEX_GROUP + 1) % 128) else s

/-- Eight entries of the map are stored. -/
def Slice.mapStore (s : Slice) (g : Nat) (v : Word) : Slice :=
  { s with homeMap := (List.range 8).foldl (fun m k => Tbl.put 0 m (8 * g + k) (BitVec.ofNat 6 (getF v ⟨8 * k, 6⟩))) s.homeMap }

/-- The CRC follows a write 1,100 fc after its grant, the register arbiter's last one. (DEDUCED, log 41) -/
def Slice.mapCrcNote (s : Slice) : Slice :=
  let old := s.mapCrc
  let s := { s with hmCrc := s.hmCrc.filter (fun (e : Nat × BitVec 32) => decide (s.fc < e.1 + 1100)) ++ [(s.regFree - 1, s.crcOfMap)] }
  s.setFld ID_HM_CRC ID_HM_CRC_CRC old

/-- A write of ID_HM_DATA: the entries, the CRC, and the check once a roster has been stored. (DEDUCED, log 41) -/
def Slice.mapWrite (s : Slice) (v : Word) (load : Bool) : Slice :=
  let s := s.mapStore (s.fld ID_HM_INDEX ID_HM_INDEX_GROUP) v
  let s := if load then s else s.mapCrcNote
  (if s.start.rosterSeen && !load then s.checkMap else s).mapAdvance

/-! ### Actions of a write -/

/-- A maintenance walk starts (R93). -/
def Slice.maintStart (s : Slice) : Slice :=
  let c := fun f => s.fld CZ_MAINT_CTRL f
  let op := c CZ_MAINT_CTRL_OP
  if op = 0 || s.flag CZ_MAINT_STATUS CZ_MAINT_STATUS_BUSY then s
  else
    let kind := WalkKind.maint op (c CZ_MAINT_CTRL_SCOPE) (c CZ_MAINT_CTRL_PID) (s.fld CZ_MAINT_RANGE CZ_MAINT_RANGE_LO) (s.fld CZ_MAINT_RANGE CZ_MAINT_RANGE_HI)
    let st := CZ_MAINT_STATUS
    (((s.raise st CZ_MAINT_STATUS_BUSY).clearF st CZ_MAINT_STATUS_INVALIDATED).clearF st CZ_MAINT_STATUS_WRITTEN_BACK).startWalk kind

/-- A maintenance walk has finished (R93). -/
def Slice.maintDone (s : Slice) : Slice :=
  match s.walkOf (fun k => match k with
    | .maint _ _ _ _ _ => true
    | _ => false) with
  | none => s
  | some w =>
    if s.walkOver w then
      (((s.endWalk w).clearF CZ_MAINT_STATUS CZ_MAINT_STATUS_BUSY).raise CZ_MAINT_STATUS CZ_MAINT_STATUS_DONE).raiseMgmtIf
        (s.flag CZ_MAINT_CTRL CZ_MAINT_CTRL_IRQ_EN)
    else s

/-- SHELF_WAYS takes a new value (R260): added ways are passed over, and ways that leave are zeroed. In register load no array holds anything. -/
def Slice.shelfWrite (s : Slice) (n : Nat) (load : Bool) : Slice :=
  let old := s.shelfWays
  let new := shelfWaysOf n
  let s := s.setFld EP_CTRL EP_CTRL_SHELF_WAYS n
  let gone := old &&& ~~~new
  let added := new &&& ~~~old
  let s := (s.frames.filter (fun e => gone.getLsbD (keyWay e.1) && (s.keySet e.1).isSome)).foldl (fun t e => t.zeroFrame e.1) s
  if added = 0 || load then s
  else (s.raise EP_SHELF EP_SHELF_BUSY).startWalk (.shelf added)

/-- The shelf-way pass has finished. -/
def Slice.shelfPassDone (s : Slice) : Slice :=
  let shelf := fun (k : WalkKind) => match k with
    | .shelf _ => true
    | _ => false
  match s.walkOf shelf with
  | none => s
  | some w =>
    if s.walkOver w then
      let s := s.endWalk w
      if (s.walkOf shelf).isNone then s.clearF EP_SHELF EP_SHELF_BUSY else s
    else s

/-- PG_ACT_REPORT (R304): activity that a core reports. -/
def Slice.actReport (s : Slice) (v : Word) : Slice := s.addAct K_LOGIC (getF v PG_ACT_REPORT_PID) (s.weight PG_ACT_WT_W_MACT * getF v PG_ACT_REPORT_MACT)

/-- PG_PHASE_HINT (R296): the lead samples the hint at the next frame. -/
def Slice.phaseHint (s : Slice) (v : Word) : Slice :=
  if s.lead then { s with gov := { s.gov with hints := s.gov.hints ++ [(getF v PG_PHASE_HINT_PID, getF v PG_PHASE_HINT_PHASE)] } } else s

/-- The counters of a register that its CLEAR bit zeroes: every read-only count, and every field of PG_GSTAT. -/
def clearMask (r : RegDef) : Word :=
  if r.base = PG_GSTAT 0 then r.mask (fun d => d.acc != .wo)
  else r.mask (fun d => d.acc = .ro && d.fld.lo + d.fld.len < 64)

/-- The registers whose bit 63 is CLEAR. -/
def hasClear (base : Nat) : Bool :=
  [ID_MISROUTE_CNT, PT_DENY_CNT 0, CZ_DROP_CNT, CZ_CONFLICT_CNT, CZ_FO_VIOL, CZ_DEAD_CNT 0, CO_HQ_PEAK, CO_NACK_CNT, CO_PUSH_CNT, CO_VIOL_CNT,
   AX_VIOL_CNT, SY_LOP_VIOL_CNT, SY_ODC 0, SY_SVIOL_CNT, SY_PCNT 0, DG_TEVT_CNT, EP_PCNT 1, BW_SHORT, BW_EGR_CNT 0, BW_FILL_CNT 0, PG_TEL_CNT, PG_GSTAT 0,
   PG_ENERGY 0, PG_ENERGY_UNATTR, AG_WAKE_CNT, EC_CNT, EC_REPAIR, EC_BANK_CNT 0, RG_RETRY].contains base

/-- CLEAR of a counter register: what it has counted in the present fc is counted after the clear. The energy counters lose what they hold below one
unit as well (R305). -/
def Slice.clearCount (s : Slice) (r : RegDef) (i off : Nat) : Slice :=
  let s := s.setReg off ((s.reg off &&& ~~~(clearMask r)) ||| (s.nowIn off &&& clearMask r))
  let zero := fun (t : Slice) (k : Nat) => { t with gov := { t.gov with residue := Tbl.put 0 t.gov.residue k 0 } }
  if r.base = PG_ENERGY 0 then zero s i else if r.base = PG_ENERGY_UNATTR then zero s 16 else s

/-- The actions of the write-only fields of a write. -/
def Slice.writeActs (s : Slice) (r : RegDef) (i off : Nat) (n : Node) (v : Word) : Slice :=
  let b := r.base
  let on := fun (f : Fld) => getF v f = 1
  if hasClear b then (if v.getLsbD 63 then s.clearCount r i off else s)
  else if b = PT_CTRL 0 then s.ptCommand (BitVec.ofNat 4 i) (on PT_CTRL_ACTIVATE) (on PT_CTRL_RELEASE) (on PT_CTRL_FLUSH) (on PT_CTRL_SEAL)
  else if b = SY_DBG_CMD then (if on SY_DBG_CMD_START then s.dbgCommand n else s)
  else if b = SY_SAVE_CTRL then (if on SY_SAVE_CTRL_START then s.saveCommand else s)
  else if b = CZ_MAINT_CTRL then (if on CZ_MAINT_CTRL_START then s.maintStart else s)
  else if b = CZ_FO_CFG 0 then (if on CZ_FO_CFG_ABORT then s.foEnd i RS_BAD_TARGET else s)
  else if b = DG_LAUNCH then s.launchCmd (on DG_LAUNCH_ARM) (on DG_LAUNCH_CANCEL)
  else if b = EP_PCTRL 1 then
    let s := s.epArmCancel (i + 1) (on EP_PCTRL_ARM) (on EP_PCTRL_CANCEL)
    let s := if on EP_PCTRL_RELEASE then s.harvestRelease (i + 1) else s
    if on EP_PCTRL_ABORT then s.harvestAbort (i + 1) else s
  else if b = EC_FLIP_CTRL then (if on EC_FLIP_CTRL_ARM then s.flipArm else s)
  else if b = PG_ACT_REPORT then s.actReport v
  else if b = AG_REC_CTRL then (if on AG_REC_CTRL_WRITE then s.recCmd else s)
  else if b = RG_CTRL then
    let s := if on RG_CTRL_EMBER then s.sendMode false else s
    let s := if on RG_CTRL_ROSTER then s.sendRoster else s
    if on RG_CTRL_BR_TRAIN then s.trainCmd else s
  else if b = RG_CNT_ADJ then (if on RG_CNT_ADJ_GO then s.adjustGo else s)
  else if b = NV_CMD then (if on NV_CMD_START then s.nvStart else s)
  else if b = TD_ARR_CMD then (if on TD_ARR_CMD_START then s.tdStart n else s)
  else s

/-- A write that the register takes: its fields, with what hangs on them. -/
def Slice.storeReg (s : Slice) (r : RegDef) (i off : Nat) (locked load : Bool) (v : Word) : Slice :=
  let b := r.base
  let plain := fun (w : Word) => s.setReg off (s.written r i locked w (s.reg off))
  if b = ID_HM_DATA then (if locked then s else s.mapWrite v load)
  else if b = PT_CTRL 0 then plain (v &&& ~~~(fldMask PT_CTRL_SEAL))
  else if b = AX_STATUS 0 then (if getF v AX_STATUS_SAT = 1 then (plain v).setFld off AX_STATUS_SAT_CNT (getF (s.nowIn off) AX_STATUS_SAT_CNT) else plain v)
  else if b = CZ_PIN_CTRL then (if locked then s else s.foLoad (getF v CZ_PIN_CTRL_FO_CREDIT_INIT))
  else if b = CZ_FO_CRED_VAL then s.foWrite (s.fld CZ_FO_CRED_SEL CZ_FO_CRED_SEL_CORE) (getF v CZ_FO_CRED_VAL_COUNT)
  else if b = EP_CTRL then (if locked then s else s.shelfWrite (getF v EP_CTRL_SHELF_WAYS) load)
  else if b = EC_SPARE then
    let t := s.setReg off (s.written r i true v (s.reg off))
    if locked then t else t.spareWrite v
  else if b = EC_RT 0 then s.rtWrite i v
  else if decide (0x5C00 ≤ b) && decide (b ≤ 0x5C18) then (if getF v ⟨0, 61⟩ = 2 ^ 61 - 1 then plain 0 else plain v)
  else if b = PG_PHASE_HINT then (plain v).phaseHint v
  else if b = PG_CTRL then (plain v).boostStop
  else if b = PG_GROUP 0 then (plain v).groupStop i
  else plain v

/-! ### Writes -/

/-- ARM of an armed slot: the whole write is ignored (R234, R253). -/
def Slice.armIgnored (s : Slice) (base i : Nat) (v : Word) : Bool :=
  (base = DG_LAUNCH && getF v DG_LAUNCH_ARM = 1 && s.flag DG_LAUNCH DG_LAUNCH_ARMED)
    || (base = EP_PCTRL 1 && getF v EP_PCTRL_ARM = 1 && s.flag (EP_PSTATUS (i + 1)) EP_PSTATUS_ARMED)

/-- A register of an accumulation descriptor. -/
def axReg (base : Nat) : Bool := base = AX_CFG 0 || base = AX_BASE 0 || base = AX_LIMIT 0 || base = AX_STATUS 0

/-- The descriptor of an access belongs to a sealed partition (R56, R176). -/
def Slice.axSealed (s : Slice) (base i : Nat) : Bool :=
  axReg base && s.flag (AX_CFG i) AX_CFG_VALID && s.sealed (s.fld (AX_CFG i) AX_CFG_PID)

/-- The value that a locked field of a register is compared with. -/
def Slice.oldWord (s : Slice) (base off : Nat) : Word :=
  if base = ID_HM_DATA then s.mapGroup (s.fld ID_HM_INDEX ID_HM_INDEX_GROUP) else s.reg off

/-- A write that its chapter ignores or refuses whatever is locked, with what that sets: a write with ARM = 1 of an armed slot (R234, R253), and one of the
range of a descriptor in use (R176). -/
def Slice.ignoredWrite (s : Slice) (base i : Nat) (v : Word) : Option Slice :=
  if s.armIgnored base i v then some s
  else if (base = AX_BASE 0 || base = AX_LIMIT 0) && s.flag (AX_CFG i) AX_CFG_VALID then some (s.noteAx 7 (s.fld (AX_CFG i) AX_CFG_PID) i)
  else none

/-- A write that changes a locked field is recorded (R13). One of RM_LO of a valid entry is refused as R50 says as well. A refusal of R177 is not tested:
the locked fields stay as they are, and the others take effect. (DEDUCED, log 40) -/
def Slice.noteLocked (s : Slice) (base i off : Nat) (n : Node) (v : Word) : Slice :=
  let s := s.logReg 0x09 off n 0
  if base = RM_LO 0 then
    match s.rmBad base i v with
    | some f => s.rmRefuse off i n f
    | none => s
  else s

/-- A write of a register by a node (R9 to R15, R376). (DESIGN CHOICE, log 39; DEDUCED, log 73) -/
def Slice.writeReg (s : Slice) (n : Node) (off : Nat) (v : Word) (load : Bool) : Slice :=
  match regAt off with
  | none => s
  | some (r, i) =>
    let b := r.base
    if (!s.lead && leadOnly b) || (load && axReg b) then s
    else if s.axSealed b i then s.logReg 0x0B off n (s.fld (AX_CFG i) AX_CFG_PID)
    else
      let locked := !load && (s.lockedReg b i || s.takesActive b i v)
      let bad := locked && s.changesRwl r i (s.oldWord b off) v
      let s := if bad then s.noteLocked b i off n v else s
      match s.ignoredWrite b i v with
      | some t => t
      | none => match (if bad then none else s.refusedWrite b i off n v load) with
        | some t => t
        | none =>
          let s := if b = PC_CFG 0 && !load then s.pcKeep i else s
          let s := if b = ID_HM_DATA && locked && !bad then s.mapAdvance else s.storeReg r i off locked load v
          if load then s else (s.noteWrote off).writeActs r i off n v

/-- A read of a register by a node: its value, and what the read does (R41, R56). (DESIGN CHOICE, log 10) -/
def Slice.readReg (s : Slice) (n : Node) (off : Nat) : Slice × Word :=
  match regAt off with
  | none => (s, 0)
  | some (r, i) =>
    if s.axSealed r.base i then (s.logReg 0x0B off n (s.fld (AX_CFG i) AX_CFG_PID), 0)
    else (if r.base = ID_HM_DATA then s.mapAdvance else s, s.peek off)

/-- The register arbiter grants an access in its next free fc, 3 fc from the present one or later (R31, R32). (DESIGN CHOICE, log 39) -/
def Slice.takeReg (s : Slice) : Slice := { s with regFree := max s.regFree (s.fc + 3) + 1 }

/-- A write of host software in PID 0, once the slice is READY (R31, R367, R229). (DESIGN CHOICE, log 39) -/
def Slice.hostWrite (s : Slice) (n : Node) (off : Nat) (v : Word) : Slice :=
  if s.ready then (s.takeReg.tevt TV_MAINT).writeReg n off v false else s

end Sys2Proof.Machine
end

