-- ==== Sys2Proof/Machine/ClearActs.lean ====
section
/-! DEFINITION. CLEAR of the counter registers (spec 00_scope.md R12): bit 63 of the write. -/

namespace Sys2Proof.Machine

/-- CLEAR of the misroute count (R41). -/
def execIdMisrouteCntClear (n : Node) (v : Word) (s : State) : Host.Outcome State Fault Refusal :=
  act (fun t => t.hostWrite n ID_MISROUTE_CNT (setF v ⟨63, 1⟩ 1)) s

/-- CLEAR of the refused-DROP count (R94). -/
def execCzDropCntClear (n : Node) (v : Word) (s : State) : Host.Outcome State Fault Refusal :=
  act (fun t => t.hostWrite n CZ_DROP_CNT (setF v ⟨63, 1⟩ 1)) s

/-- CLEAR of the bank-conflict count (R117). -/
def execCzConflictCntClear (n : Node) (v : Word) (s : State) : Host.Outcome State Fault Refusal :=
  act (fun t => t.hostWrite n CZ_CONFLICT_CNT (setF v ⟨63, 1⟩ 1)) s

/-- CLEAR of the fan-out violation count (R117). -/
def execCzFoViolClear (n : Node) (v : Word) (s : State) : Host.Outcome State Fault Refusal :=
  act (fun t => t.hostWrite n CZ_FO_VIOL (setF v ⟨63, 1⟩ 1)) s

/-- CLEAR of the hold-queue peak (R146). -/
def execCoHqPeakClear (n : Node) (v : Word) (s : State) : Host.Outcome State Fault Refusal :=
  act (fun t => t.hostWrite n CO_HQ_PEAK (setF v ⟨63, 1⟩ 1)) s

/-- CLEAR of the NACK_GONE count (R146). -/
def execCoNackCntClear (n : Node) (v : Word) (s : State) : Host.Outcome State Fault Refusal :=
  act (fun t => t.hostWrite n CO_NACK_CNT (setF v ⟨63, 1⟩ 1)) s

/-- CLEAR of the push counts (R146). -/
def execCoPushCntClear (n : Node) (v : Word) (s : State) : Host.Outcome State Fault Refusal :=
  act (fun t => t.hostWrite n CO_PUSH_CNT (setF v ⟨63, 1⟩ 1)) s

/-- CLEAR of the coherence violation count (R146). -/
def execCoViolCntClear (n : Node) (v : Word) (s : State) : Host.Outcome State Fault Refusal :=
  act (fun t => t.hostWrite n CO_VIOL_CNT (setF v ⟨63, 1⟩ 1)) s

/-- CLEAR of the accumulation refusal count (R176). -/
def execAxViolCntClear (n : Node) (v : Word) (s : State) : Host.Outcome State Fault Refusal :=
  act (fun t => t.hostWrite n AX_VIOL_CNT (setF v ⟨63, 1⟩ 1)) s

/-- CLEAR of the line-operation refusal count (R194). -/
def execSyLopViolCntClear (n : Node) (v : Word) (s : State) : Host.Outcome State Fault Refusal :=
  act (fun t => t.hostWrite n SY_LOP_VIOL_CNT (setF v ⟨63, 1⟩ 1)) s

/-- CLEAR of the sync refusal count (R221). -/
def execSySviolCntClear (n : Node) (v : Word) (s : State) : Host.Outcome State Fault Refusal :=
  act (fun t => t.hostWrite n SY_SVIOL_CNT (setF v ⟨63, 1⟩ 1)) s

/-- CLEAR of the timing-event count (R248). -/
def execDgTevtCntClear (n : Node) (v : Word) (s : State) : Host.Outcome State Fault Refusal :=
  act (fun t => t.hostWrite n DG_TEVT_CNT (setF v ⟨63, 1⟩ 1)) s

/-- CLEAR of the short-window counts (R284). -/
def execBwShortClear (n : Node) (v : Word) (s : State) : Host.Outcome State Fault Refusal :=
  act (fun t => t.hostWrite n BW_SHORT (setF v ⟨63, 1⟩ 1)) s

/-- CLEAR of the telemetry counts (R307). -/
def execPgTelCntClear (n : Node) (v : Word) (s : State) : Host.Outcome State Fault Refusal :=
  act (fun t => t.hostWrite n PG_TEL_CNT (setF v ⟨63, 1⟩ 1)) s

/-- CLEAR of the wake counts (R324). -/
def execAgWakeCntClear (n : Node) (v : Word) (s : State) : Host.Outcome State Fault Refusal :=
  act (fun t => t.hostWrite n AG_WAKE_CNT (setF v ⟨63, 1⟩ 1)) s

/-- CLEAR of the error counts (R343). -/
def execEcCntClear (n : Node) (v : Word) (s : State) : Host.Outcome State Fault Refusal :=
  act (fun t => t.hostWrite n EC_CNT (setF v ⟨63, 1⟩ 1)) s

/-- CLEAR of the dropped-repair count (R343). -/
def execEcRepairClear (n : Node) (v : Word) (s : State) : Host.Outcome State Fault Refusal :=
  act (fun t => t.hostWrite n EC_REPAIR (setF v ⟨63, 1⟩ 1)) s

/-- CLEAR of the retry counts (R363). -/
def execRgRetryClear (n : Node) (v : Word) (s : State) : Host.Outcome State Fault Refusal :=
  act (fun t => t.hostWrite n RG_RETRY (setF v ⟨63, 1⟩ 1)) s

/-- CLEAR of the refusal count of a partition (R64). -/
def execPtDenyCntClear (p : Pid) (n : Node) (v : Word) (s : State) : Host.Outcome State Fault Refusal :=
  act (fun t => t.hostWrite n (PT_DENY_CNT p.toNat) (setF v ⟨63, 1⟩ 1)) s

/-- CLEAR of the dead-read count of a PID (R117). -/
def execCzDeadCntClear (p : Pid) (n : Node) (v : Word) (s : State) : Host.Outcome State Fault Refusal :=
  act (fun t => t.hostWrite n (CZ_DEAD_CNT p.toNat) (setF v ⟨63, 1⟩ 1)) s

/-- CLEAR of the order-decision count of a PID (R194). -/
def execSyOdcClear (p : Pid) (n : Node) (v : Word) (s : State) : Host.Outcome State Fault Refusal :=
  act (fun t => t.hostWrite n (SY_ODC p.toNat) (setF v ⟨63, 1⟩ 1)) s

/-- CLEAR of the sync event counts of a PID (R221). -/
def execSyPcntClear (p : Pid) (n : Node) (v : Word) (s : State) : Host.Outcome State Fault Refusal :=
  act (fun t => t.hostWrite n (SY_PCNT p.toNat) (setF v ⟨63, 1⟩ 1)) s

/-- CLEAR of the capture and stall counts (R272). -/
def execEpPcntClear (p : Pid) (n : Node) (v : Word) (s : State) : Host.Outcome State Fault Refusal :=
  act (fun t => t.hostWrite n (EP_PCNT p.toNat) (setF v ⟨63, 1⟩ 1)) s

/-- CLEAR of the egress count of a class (R284). -/
def execBwEgrCntClear (c : Fin 32) (n : Node) (v : Word) (s : State) : Host.Outcome State Fault Refusal :=
  act (fun t => t.hostWrite n (BW_EGR_CNT c.val) (setF v ⟨63, 1⟩ 1)) s

/-- CLEAR of the fill count of a class (R284). -/
def execBwFillCntClear (c : Fin 32) (n : Node) (v : Word) (s : State) : Host.Outcome State Fault Refusal :=
  act (fun t => t.hostWrite n (BW_FILL_CNT c.val) (setF v ⟨63, 1⟩ 1)) s

/-- CLEAR of the statistics of a group entry (R307). -/
def execPgGstatClear (g : Fin 4) (n : Node) (v : Word) (s : State) : Host.Outcome State Fault Refusal :=
  act (fun t => t.hostWrite n (PG_GSTAT g.val) (setF v ⟨63, 1⟩ 1)) s

/-- CLEAR of the error counts of a bank (R343). -/
def execEcBankCntClear (i : Fin 18) (n : Node) (v : Word) (s : State) : Host.Outcome State Fault Refusal :=
  act (fun t => t.hostWrite n (EC_BANK_CNT i.val) (setF v ⟨63, 1⟩ 1)) s

/-- CLEAR of an energy counter and its residue (R305). -/
def execPgEnergyClear (unattr : Bool) (p : Pid) (n : Node) (v : Word) (s : State) : Host.Outcome State Fault Refusal :=
  act (fun t => t.hostWrite n (if unattr then PG_ENERGY_UNATTR else PG_ENERGY p.toNat) (setF v ⟨63, 1⟩ 1)) s

end Sys2Proof.Machine
end

