-- ==== Sys2Proof/Machine/EmberActs.lean ====
section
/-! DEFINITION. Sleep states, ageing and error protection (spec 13_ember_ageing.md, 14_error_protection.md). -/

namespace Sys2Proof.Machine

/-- An idle half commits to RETENTION (R312). -/
def execHalfRetentionCommit (half : Bool) (s : State) : Host.Outcome State Fault Refusal :=
  act (fun t => t.retentionCommit (b2n half)) s

/-- The committed state is reached (R312). -/
def execHalfStateReached (half : Bool) (s : State) : Host.Outcome State Fault Refusal :=
  act (fun t => t.stateReached (b2n half)) s

/-- A half in RETENTION moves towards OFF (R313). -/
def execHalfOffStart (half : Bool) (s : State) : Host.Outcome State Fault Refusal :=
  act (fun t => t.offStart (b2n half)) s

/-- The flush walk of a half ends (R313). -/
def execHalfFlushDone (half : Bool) (s : State) : Host.Outcome State Fault Refusal :=
  act (fun t => t.flushDone (b2n half)) s

/-- A half is woken (R314). -/
def execHalfWake (half : Bool) (s : State) : Host.Outcome State Fault Refusal :=
  act (fun t => t.wakeTrigger (b2n half)) s

/-- A wake ends (R314). -/
def execHalfWakeDone (half : Bool) (s : State) : Host.Outcome State Fault Refusal :=
  act (fun t => t.wakeDone (b2n half)) s

/-- A measurement set starts (R317). -/
def execMeasSetStart (s : State) : Host.Outcome State Fault Refusal :=
  act (fun t => t.measStart) s

/-- A measurement set ends with the counts of its monitors (R317). (DESIGN CHOICE, log 26) -/
def execMeasSetEnd (counts : BitVec 192) (s : State) : Host.Outcome State Fault Refusal :=
  act (fun t => t.measEnd counts) s

/-- An awake half takes a new assist level (R319). -/
def execAssistPause (half : Bool) (s : State) : Host.Outcome State Fault Refusal :=
  act (fun t => t.assistPause (b2n half)) s

/-- A powered-on second (R323). -/
def execPohSecond (s : State) : Host.Outcome State Fault Refusal :=
  act (fun t => t.pohSecond) s

/-- The write of the ageing record ends (R323). -/
def execAgeingRecordDone (r : RecordEnd) (s : State) : Host.Outcome State Fault Refusal :=
  act (fun t => t.recDone r) s

/-- A queued repair is granted (R331). -/
def execRepairGrant (half : Bool) (s : State) : Host.Outcome State Fault Refusal :=
  act (fun t => t.repairGrant (b2n half)) s

/-- Quarantine work on a frame (R332). -/
def execQuarantineWork (s : State) : Host.Outcome State Fault Refusal :=
  act (fun t => t.quarantineWork) s

/-- A patrol step (R340). -/
def execPatrolStep (s : State) : Host.Outcome State Fault Refusal :=
  act (fun t => t.patrolStep) s

/-- A deferred patrol step (R341). -/
def execPatrolDeferredStep (half : Bool) (s : State) : Host.Outcome State Fault Refusal :=
  act (fun t => t.patrolDeferred (b2n half)) s

/-- The leaky bucket falls (R338). -/
def execBucketLeak (s : State) : Host.Outcome State Fault Refusal :=
  act (fun t => t.bucketLeak) s

/-- The copy onto the spare ends (R342). -/
def execSpareCopyDone (s : State) : Host.Outcome State Fault Refusal :=
  act (fun t => t.spareCopyDone) s

end Sys2Proof.Machine
end

