-- ==== Sys2Proof/Machine/Cfg.lean ====
section
/-! DEFINITION. Register accesses of the mesh (spec 00_scope.md R7 to R11, 01_slice_anatomy.md R31, R32, 05_coherence_home.md R129,
15_control_ring.md R353, 17_counters_debug.md R391). -/

namespace Sys2Proof.Machine

/-- What an access addresses (R129). -/
inductive CfgAt where
  | own (off : Nat)
  | broadcast (off : Nat)
  | away
  deriving DecidableEq, Repr

/-- The decoding of an address against CFG_BASE (R129). The lead takes the broadcast window, and every slice its own. -/
def Slice.cfgAt (s : Slice) (addr : Nat) : CfgAt :=
  let base := s.fld ID_CFG_BASE ID_CFG_BASE_BASE * 2 ^ 22
  let d := addr - base
  if addr < base then .away
  else if d / 0x10000 = s.id then .own (d % 0x10000 / 8 * 8)
  else if d / 0x10000 = 0x40 && s.lead then .broadcast (d % 0x10000 / 8 * 8)
  else .away

/-- A read that R391 opens to a partition: the counters it owns, and the overflow bits. -/
def Slice.userRead (s : Slice) (op : BitVec 6) (p off : Nat) : Bool :=
  op = OP_CFG_RD && s.flag (PT_CTRL p) PT_CTRL_PC_USER
    && (off = PC_OVF || (match regAt off with
      | some (r, n) => r.base = PC_VAL 0 && decide (n < 28) && s.fld (PC_CFG n) PC_CFG_OWNER = p
      | none => false))

/-- The check stage of a register access (R25, R51, R129): the refusal, if any. -/
def Slice.cfgCheck (s : Slice) (op : BitVec 6) (a : Arr) : Option Verdict :=
  let p := a.pid.toNat
  if !(s.mine a.dst) then some .misrouted
  else match s.cfgAt a.addr.toNat with
    | .away => some .misrouted
    | .own off => if s.ptState p != 2 || (p != 0 && !(s.userRead op p off)) then some .denied else none
    | .broadcast _ => if s.ptState p != 2 || p != 0 then some .denied else none

/-- The bits of PC_OVF that a partition sees: those of its own counters (R391). (DEDUCED, log 45) -/
def Slice.ownedOvf (s : Slice) (p : Nat) : Word :=
  (List.range 28).foldl (fun w n => if s.fld (PC_CFG n) PC_CFG_OWNER = p then w ||| (s.reg PC_OVF &&& fldMask ⟨n, 1⟩) else w) 0

/-- The register arbiter grants input i in the slot of the present fc (R29, R31). -/
def Slice.regGrant (s : Slice) (i : Nat) : Slice := { s with regFree := s.slotFc + 1, regPtr := nextPtr i }

/-- The answers of a register access leave on a port of H0 (R22, R31, R32). (DEDUCED, log 8) -/
def Slice.cfgComp (s : Slice) (a : Arr) (due : Nat) : Slice := s.sendRsp (outPort 0 a.port) due a RS_COMP 0
def Slice.cfgData (s : Slice) (a : Arr) (due : Nat) (v : Word) : Slice := s.sendDat (outPort 0 a.port) due a DT_CFG_DATA 0 (v.setWidth 1152)

/-- An access of another size or alignment (R9). -/
def cfgBad (a : Arr) (full : Bool) : Bool := !full || a.addr.toNat % 8 != 0

/-- The log entry of such an access. -/
def Slice.noteCfgBad (s : Slice) (a : Arr) : Slice := s.logErr 0x08 (log1Addr a.addr.toNat a.src.toNat) a.pid.toNat

/-- CFG_RD at its grant in fc g (R9, R11, R391). -/
def Slice.cfgRead (s : Slice) (a : Arr) (full : Bool) (g : Nat) : Slice :=
  let p := a.pid.toNat
  if cfgBad a full then (s.noteCfgBad a).cfgData a (g + 21) 0
  else match s.cfgAt a.addr.toNat with
    | .own off =>
      if p = 0 then
        let (t, v) := (s.tevt TV_MAINT).readReg a.src off
        t.cfgData a (g + 21) v
      else s.cfgData a (g + 21) (if off = PC_OVF then s.ownedOvf p else s.peek off)
    | _ => s.cfgData a (g + 21) 0

/-- CFG_WR at its grant in fc g. (DESIGN CHOICE, log 39) -/
def Slice.cfgWrite (s : Slice) (a : Arr) (full : Bool) (g : Nat) : Slice :=
  if cfgBad a full then (s.noteCfgBad a).cfgComp a (g + 17)
  else match s.cfgAt a.addr.toNat with
    | .own off => ((s.tevt TV_MAINT).writeReg a.src off (a.pl.extractLsb' 0 64) false).cfgComp a (g + 17)
    | _ => s

/-- A register access at its grant. -/
def Slice.cfgServe (s : Slice) (op : BitVec 6) (a : Arr) (full : Bool) (g : Nat) : Slice :=
  if op = OP_CFG_RD then s.cfgRead a full g else s.cfgWrite a full g

/-- The lead places a broadcast write in its ring queue (R353). -/
def Slice.bcastQueue (s : Slice) (a : Arr) (off : Nat) (v : Word) : Slice :=
  ({ s with ring := { s.ring with bcasts := s.ring.bcasts ++ [a] } }).ringPut ⟨RG_BCAST_WR, RG_ALL, 0, BitVec.ofNat 32 off :: flits2 v⟩

/-- A write to the broadcast window of the lead, which goes to the ring and not to the register arbiter. -/
def Slice.cfgCast (s : Slice) (op : BitVec 6) (a : Arr) (full : Bool) : Option Nat :=
  if op = OP_CFG_WR && !(cfgBad a full) then (match s.cfgAt a.addr.toNat with
    | .broadcast off => some off
    | _ => none)
  else none

/-- The register arbiter need not choose: its slot of the present fc is free, nothing waits for it, and no other register access arrives.
(DESIGN CHOICE, log 75) -/
def Slice.regIdle (s : Slice) : Bool :=
  decide (s.regFree ≤ s.slotFc) && s.regWait = [] && !(s.ahead.any (fun c => match c with
    | .req op _ => isCfg op
    | _ => false))

/-- A REQ that is a register access: its payload is an ingress message (R386). Admitted, it takes the slot of the present fc where no other access may, and else waits for
the register arbiter (R29, R31); `foreign` marks an access of another size while it waits. -/
def Slice.cfgArrive (s : Slice) (op : BitVec 6) (a : Arr) (full : Bool) : Slice :=
  let s := if op = OP_CFG_WR then s.ingress .req op a else s
  match s.cfgCheck op a with
  | some v => (s.refuse op a v).returnRx a.port .req
  | none =>
    match s.cfgCast op a full with
    | some off => (s.bcastQueue a off (a.pl.extractLsb' 0 64)).returnRx a.port .req
    | none =>
      if a.port.val / 2 = 0 && s.regIdle then ((s.regGrant (inputOf 0 a.port)).cfgServe op a full s.slotFc).returnRx a.port .req
      else { s with regWait := insInput ⟨op, a, a.pid.toNat, !full, false, s.fc⟩ s.regWait }

/-- The candidate of input i of the register arbiter: an access of H1 crosses the link (R31). -/
def Slice.regHead (s : Slice) (i : Nat) : Option Req :=
  s.regWait.find? (fun r => inputOf 0 r.a.port = i && decide (r.t + 3 + (if r.a.port.val / 2 = 0 then 0 else 2) ≤ s.slotFc))

/-- The register arbiter grants one of the accesses that wait, by the round robin of R29 (R31). -/
def Slice.regArb (s : Slice) : Slice :=
  if s.slotFc < s.regFree then s
  else match arbChoose [(s.regHead 0).isSome, (s.regHead 1).isSome, (s.regHead 2).isSome, false, false] s.regPtr with
    | none => s
    | some i => match s.regHead i with
      | none => s
      | some r =>
        let s := { s with regWait := s.regWait.erase r }
        ((s.regGrant i).cfgServe r.op r.a (!r.foreign) s.slotFc).returnRx r.a.port .req

/-- The offset of a broadcast write (R10): the windows are 64 KiB apart, and CFG_BASE is aligned to 4 MiB (R7). -/
def bcastOff (a : Arr) : Nat := a.addr.toNat % 0x10000 / 8 * 8

/-- BCAST_WR at a position that is OPEN and READY (R353). (DEDUCED, log 45) -/
def Slice.bcastApply (s : Slice) (off : Nat) (v : Word) : Slice :=
  if s.isOpen && s.ready then (({ s.takeReg with regPtr := nextPtr 3 }).tevt TV_MAINT).writeReg 0 off v false else s

/-- BCAST_WR back at the lead: its writer is answered 16 fc later (R353). -/
def Slice.bcastBack (s : Slice) (off : Nat) (v : Word) : Slice :=
  match s.ring.bcasts.find? (fun a => bcastOff a = off && a.pl.extractLsb' 0 64 = v) with
  | some a => ({ s with ring := { s.ring with bcasts := s.ring.bcasts.erase a } }).cfgComp a (s.fc + 16)
  | none => s

/-- BCAST_WR at this position. -/
def Slice.bcast (s : Slice) (off : Nat) (v : Word) : Slice :=
  let t := s.bcastApply off v
  if s.lead then t.bcastBack off v else t

end Sys2Proof.Machine
end

