-- ==== Sys2Proof/Machine/Answers.lean ====
section
/-! DEFINITION. Messages by class and opcode: the answers to what the slice itself asked for (spec 01_slice_anatomy.md R25, R36, R39;
05_coherence_home.md R132, R133; 08_sync_objects.md R219; 12_power_governor.md R292; 16_startup_image.md R379). -/

namespace Sys2Proof.Machine

/-- No router write is outstanding or waits for a TXN (R379). -/
def Slice.routersDone (s : Slice) : Bool := !(s.txns.any (fun t => t.2 = .router)) && !(s.txnWait.any (fun w => w.use = .router))

/-- COMP answers a CFG_WR of the slice, or a WR_NC of a save (R292, R379, R219). -/
def Slice.compIn (s : Slice) (a : Arr) : Slice :=
  let k := a.txn.toNat
  match Tbl.at TxnUse.none s.txns k with
  | .damper => s.freeTxnAt k
  | .router =>
    let t := s.freeTxnAt k
    if t.routersDone then t.raise NV_STATUS NV_STATUS_ROUTER_DONE else t
  | .saveWrite => (s.freeTxnAt k).saveAnswer false
  | _ => s.stray a

/-- DATA answers an RD_NC of a restore (R219). -/
def Slice.dataIn (s : Slice) (a : Arr) : Slice :=
  match Tbl.at TxnUse.none s.txns a.txn.toNat with
  | .restoreRead _ => (s.freeTxnAt a.txn.toNat).restoreData a.line
  | _ => s.stray a

/-- A refusal or DATA_ERR answers a request of a save or restore (R219). (DEDUCED, log 22) -/
def Slice.errorIn (s : Slice) (a : Arr) : Slice :=
  let k := a.txn.toNat
  match Tbl.at TxnUse.none s.txns k with
  | .saveWrite => (s.freeTxnAt k).saveAnswer true
  | .restoreRead n => (s.freeTxnAt k).saveEnd 3 n
  | _ => s.stray a

/-- A FWD is discarded: to another node it is a misroute, to this one a violation (R25, R133). (DEDUCED, log 22) -/
def Slice.fwdIn (s : Slice) (op : BitVec 6) (a : Arr) : Slice :=
  let s := if op = FW_PUSH then s.ingress .fwd op a else s
  if s.mine a.dst then s.noteViol 0 a.src.toNat a.addr.toNat a.pid.toNat else s.noteMisroute a.addr.toNat a.src.toNat

/-- The response opcodes that refuse a request or report an error (R128). -/
def isErrorRsp (op : BitVec 6) : Bool :=
  op = RS_ACCESS_DENIED || op = RS_BAD_TARGET || op = RS_DATA_ERR || op = RS_MISROUTED || op = RS_UNSUPPORTED

/-- An RSP by its opcode. -/
def Slice.rspIn (s : Slice) (op : BitVec 6) (a : Arr) : Slice :=
  if op = RS_COMP then s.compIn a
  else if op = RS_COMP_ACK then s.compAck a
  else if op = RS_FWD_ACK then s.fwdAck a
  else if op = RS_INV_ACK then s.invAck a
  else if op = RS_NACK_GONE then s.nackGone a
  else if op = RS_PUSH_ACK then s.pushAck a
  else if op = RS_PUSH_DECLINE then s.pushDecline a
  else if op = RS_FO_CREDIT then s.foCredit a
  else if op = RS_MEM_ACK then s.memAck a
  else if isErrorRsp op then s.errorIn a
  else s.stray a

/-- A DAT by its opcode. -/
def Slice.datIn (s : Slice) (op : BitVec 6) (a : Arr) : Slice :=
  if op = DT_DATA then s.dataIn a
  else if op = DT_SNP_DATA then s.snpData a
  else if op = DT_MEM_DATA then s.memData a
  else s.stray a

/-- A REQ by its opcode. -/
def Slice.reqIn (s : Slice) (op : BitVec 6) (a : Arr) : Slice := if isCfg op then s.cfgArrive op a true else s.arriveReq op a

/-- Any message, by its class and opcode (R36). (DEDUCED, log 22) -/
def actAny (c : Cls) (op : BitVec 6) (a : Arr) (s : State) : Host.Outcome State Fault Refusal :=
  match c with
  | .req => actMsg .req a (fun t => t.reqIn op a) s
  | .fwd => actSunk .fwd a (fun t => t.fwdIn op a) s
  | .rsp => actSunk .rsp a (fun t => t.sunk op false a (fun u => u.rspIn op a)) s
  | .dat => actSunk .dat a (fun t => t.sunk op true a (fun u => u.datIn op a)) s

end Sys2Proof.Machine
end

