-- ==== Sys2Proof/Machine/Tick.lean ====
section
/-! DEFINITION. One fast-clock cycle of the idle block: messages leave, requests at the inputs are offered again, the walks go on, and time
passes (spec 01_slice_anatomy.md R20, R29; 11_bandwidth.md R275, R276; 12_power_governor.md R285, R294; 09_determinism.md R233; 15_control_ring.md R352, R355;
18_ports_signals.md R403, R408, R411, R414). -/

namespace Sys2Proof.Machine

/-! ### Egress (R276, R403, R414) -/

/-- The key of a port's egress credits of a class. -/
def Slice.txHeld (s : Slice) (p : Port) (c : Cls) : Nat := Tbl.at 0 s.txCred (credKey p c)

/-- The rank of a class among payload messages that became ready in the same fc: DAT, FWD, REQ (R276). -/
def payRank : Cls → Nat
  | .dat => 0
  | .rsp => 1
  | .fwd => 1
  | .req => 2

/-- The order of two payload messages by age. -/
def outBefore (a b : Out) : Bool :=
  decide (a.due < b.due) || (a.due = b.due && (decide (payRank a.msg.cls < payRank b.msg.cls)
    || (payRank a.msg.cls = payRank b.msg.cls && decide (a.ord < b.ord))))

/-- The first message of a list by age. -/
def oldestOut : List Out → Option Out
  | [] => none
  | a :: l => match oldestOut l with
    | some b => if outBefore b a then some b else some a
    | none => some a

/-- The messages formed at a port by now. -/
def Slice.formed (s : Slice) (p : Port) (payload : Bool) : List Out :=
  s.egress.filter (fun o => o.port = p && o.payload = payload && decide (o.due ≤ s.fc))

/-- The ready message of a master class at a port (R276, R414). -/
def Slice.readyOf (s : Slice) (p : Port) (c : Nat) : Option Out :=
  match oldestOut ((s.formed p true).filter (fun o => o.mclass = c)) with
  | none => none
  | some o =>
    if 0 < s.txHeld p o.msg.cls && !((s.formed p false).any (fun h => h.msg.cls = o.msg.cls && decide (h.due ≤ o.due))) then some o else none

/-- The first class of a list at or after a class, wrapping. -/
def firstFrom (start : Nat) (q : Nat → Bool) : Option Nat :=
  ((List.range 32).map (fun k => (start + k) % 32)).find? q

/-- The choice of the egress arbiter among the classes with a ready message, and its state after it; `reg` is REG_EN, without which no guarantee counts (R276). -/
def egressChoose (e : Egress) (reg : Bool) (wt : Nat → Nat) (r : Nat → Bool) : Option (Nat × Egress) :=
  match firstFrom e.gptr (fun c => reg && r c && decide (0 < e.g.getD c 0)) with
  | some c => some (c, { e with g := e.g.set c (e.g.getD c 0 - 1), gptr := (c + 1) % 32 })
  | none =>
    if (List.range 32).any (fun c => r c && decide (0 < wt c)) then
      if r e.wptr && decide (0 < wt e.wptr) && decide (e.burst < wt e.wptr) then some (e.wptr, { e with burst := e.burst + 1 })
      else (firstFrom (e.wptr + 1) (fun c => r c && decide (0 < wt c))).map (fun c => (c, { e with wptr := c, burst := 1 }))
    else (firstFrom 0 r).map (fun c => (c, e))

/-- A message of the FWD class is counted as it leaves, under its line's PID (R386). (DEDUCED, log 62) -/
def Slice.noteFwd (s : Slice) (o : Out) : Slice :=
  if o.msg.cls = .fwd then
    s.pcEv 0x0D 1 { Occ.none with pid := some o.msg.pid.toNat, half := some (halfOfSet (lineSet (o.msg.addr.toNat / 128))),
                                  addr := o.msg.addr.toNat / 128 * 128, port := o.port.val, cls := clsCode o.msg.cls, op := o.msg.op.toNat }
  else s

/-- A message leaves: its credit is spent, and a release frees its waiter-table entry. -/
def Slice.leave (s : Slice) (o : Out) : Slice :=
  let u : Slice :=
    { s with egress := s.egress.filter (fun x => x.ord != o.ord), sent := s.sent ++ [⟨s.fc, o.port, o.msg⟩],
             txCred := Tbl.put 0 s.txCred (credKey o.port o.msg.cls) (s.txHeld o.port o.msg.cls - 1) }
  let s := u.noteFwd o
  match o.rel with
  | some (slot, drain, tick) => s.releaseLeft slot drain tick
  | none => s

/-- A payload message leaves: it is counted, and is activity of its PID (R276, R304, R386). (DEDUCED, log 62) -/
def Slice.leavePayload (s : Slice) (o : Out) : Slice :=
  let p := o.msg.pid.toNat
  (((s.leave o).bump (BW_EGR_CNT o.mclass) BW_EGR_CNT_COUNT 1).addAct K_LOGIC p (s.weight PG_ACT_WT_W_EGR)).pcEv 0x1C 1
    { Occ.none with pid := some p, addr := o.msg.addr.toNat / 128 * 128, port := o.port.val, cls := clsCode o.msg.cls, op := o.msg.op.toNat }

/-- The payload message of a port in this fc: the state, and its class. -/
def Slice.egressPayload (s : Slice) (p : Port) : Slice × Option Cls :=
  let e := Tbl.at Egress.init s.eports p.val
  match egressChoose e (s.flag BW_CTRL BW_CTRL_REG_EN) s.bwWt (fun c => (s.readyOf p c).isSome) with
  | none => (s, none)
  | some (c, e2) =>
    let s := { s with eports := Tbl.put Egress.init s.eports p.val e2 }
    match s.readyOf p c with
    | some o => (s.leavePayload o, some o.msg.cls)
    | none => (s, none)

/-- The oldest header-only message of a channel leaves, if it has credit (R414). -/
def Slice.egressHeader (s : Slice) (p : Port) (c : Cls) : Slice :=
  match oldestOut ((s.formed p false).filter (fun o => o.msg.cls = c)) with
  | some o => if 0 < s.txHeld p c then s.leave o else s
  | none => s

/-- What leaves a port in this fc. -/
def Slice.egressPort (s : Slice) (p : Port) : Slice :=
  let (s, sent) := s.egressPayload p
  [Cls.req, Cls.fwd, Cls.rsp, Cls.dat].foldl (fun t c => if sent = some c then t else t.egressHeader p c) s

/-- What leaves the slice in this fc; clamped outputs send nothing (R400). (DESIGN CHOICE, log 27) -/
def Slice.egressAll (s : Slice) : Slice := if s.clamped then s else (List.finRange 4).foldl Slice.egressPort s

/-- The router returns a credit of an egress channel (R403); while fast outputs are clamped it is ignored (R400). (DESIGN CHOICE, log 27) -/
def Slice.egressCredit (s : Slice) (p : Port) (c : Cls) : Slice :=
  if s.clamped then s else { s with txCred := Tbl.put 0 s.txCred (credKey p c) (s.txHeld p c + 1) }

/-! ### The bank arbiters (R27 to R29, R107, R108) -/

/-- What the internal input of a bank offers by itself: a walk, a step of the patrol that waits, the capture's next line, or an
array readback. -/
inductive Inner where
  | walk (w : Walk)
  | patrol (n : Nat)
  | capture (x : Nat)
  | readback
  deriving DecidableEq, Repr

/-- The capture's next line is a candidate in a bank, whose hold queue has a place for it (R126, R245). -/
def Slice.captureIn (s : Slice) (bk : Nat) : Option Inner :=
  match s.captureAt with
  | some x => if bankKey x = bk && s.room bk 1 then some (.capture x) else none
  | none => none

/-- The candidate that the internal input of a bank offers by itself, by the priority of R27: none while a replay, a continuation, a
reinstatement or a step goes before it, which the commands of those grants take. (DESIGN CHOICE, log 75) -/
def Slice.innerAt (s : Slice) (bk : Nat) : Option Inner :=
  if s.bankShut bk || s.damped bk none then none
  else match s.walkAt bk 1 with
    | some w => some (.walk w)
    | none =>
      if (s.replayAt bk).isSome || (s.contAt bk).isSome || s.recallIn bk || (s.stepAt bk).isSome then none
      else match s.walkAt bk 5 with
        | some w => some (.walk w)
        | none => match s.patrols.find? (fun p => p.1 = bk && !s.patrolHeld) with
          | some p => some (.patrol p.2)
          | none => match s.walkAt bk 7 with
            | some w => some (.walk w)
            | none => (s.captureIn bk).orElse (fun _ => if s.tdIn bk then some .readback else none)

/-- A candidate of the internal input is granted. -/
def Slice.innerGo (s : Slice) (bk : Nat) : Inner → Slice
  | .walk w => s.walkGrant w bk
  | .patrol n => s.patrolWaits bk n
  | .capture x => s.captureGrant x
  | .readback => s.tdGrant bk

/-- A request that waits at an input is granted its bank's slot of the present fc, and its credit goes back. -/
def Slice.headGo (s : Slice) (r : Req) : Slice :=
  let s := { s with inputs := s.inputs.erase r }
  if r.op = OP_MEM_FILL then
    match s.fills.find? (fun f => f.1 + 0x100 = r.a.txn.toNat) with
    | some (k, f) => (match f.use with
        | .hte n => s.grantFill k (n / 16) (n % 16) r.a
        | .capture _ _ => s)
    | none => s
  else (s.offer r r.input).returnRx r.a.port .req

/-- The scheduled access that a bank arbiter grants before all others: that of the lowest port, writes that R107 demotes left out. -/
def schedBest (l : List Req) : Option Req :=
  (l.filter (fun r => r.scheduled && !(r.demoted l))).foldl (fun b r => match b with
    | none => some r
    | some m => if r.a.port.val < m.a.port.val then some r else some m) none

/-- A candidate that a bank arbiter has not granted waits: an event for each, and a conflict for a scheduled access (R33, R108, R386). (DEDUCED, log 25) -/
def Slice.headWaits (s : Slice) (bk : Nat) (second : Bool) (l : List Req) : Slice :=
  l.foldl (fun t r =>
    let t := if r.op = OP_MEM_FILL then t else t.pcEv 0x1E 1 r.occ
    if r.scheduled then t.noteConflict r bk (conflictCause second (r.demoted l)) else t) s

/-- One bank arbiter in one fc (R29). -/
def Slice.arbitrate (s : Slice) (bk : Nat) : Slice :=
  let heads := s.headsIn s.inputs bk
  let b := s.bank bk
  if !(b.slotFree s.slotFc) then s.headWaits bk (b.taken.contains (s.slotFc, 0)) heads
  else match schedBest heads with
    | some r => ((s.headGo r).headWaits bk false (heads.filter (fun q => q != r)))
    | none =>
      let inner := s.innerAt bk
      let at' := fun (i : Nat) => heads.find? (fun r => inputOf (bk / 8) r.a.port = i)
      match arbChoose [(at' 0).isSome, (at' 1).isSome, (at' 2).isSome, false, inner.isSome] b.ptr with
      | none => s
      | some i => match at' i, inner with
        | some r, _ => (s.headGo r).headWaits bk false (heads.filter (fun q => q != r))
        | none, some x => (s.innerGo bk x).headWaits bk false heads
        | none, none => s

/-- The bank of a half that serves no set, which no candidates reach but the patrol's step and, after it, an array readback (R340, R397). -/
def Slice.spareArb (s : Slice) (h : Nat) : Slice :=
  if !(s.awake h) || !(s.patrolMay (16 + h)) then s
  else match s.patrols.find? (fun p => p.1 = 16 + h && !s.patrolHeld) with
    | some p => s.patrolWaits (16 + h) p.2
    | none => if s.tdIn (16 + h) then s.tdGrant (16 + h) else s

/-- A candidate waits at an input of a bank of a half. -/
def Slice.headIn (s : Slice) (h : Nat) : Bool :=
  !(s.flag ID_CTRL ID_CTRL_QUIESCE) && (List.range 8).any (fun b => [0, 1, 2].any (fun i => (headAt s.inputs (h * 8 + b) i s.slotFc).isSome))

/-- Candidates end the flush walk of their half, and wake it (R313, R314). -/
def Slice.wakeHalves (s : Slice) : Slice :=
  [0, 1].foldl (fun t h => if t.headIn h || t.innerWork h then t.touchHalf h else t) s

/-- Multi-frame operations that have waited at an input go to the step generators (R102). -/
def Slice.startOps (s : Slice) : Slice :=
  (s.inputs.filter (fun r => isMulti r.op r.a && !(s.blocked r))).foldl (fun t r =>
    (({ t with inputs := t.inputs.erase r }).startPinOp r).returnRx r.a.port .req) s

/-- The request at the head of each port's input. -/
def Slice.inputHeads (s : Slice) : List Req := (List.finRange 4).filterMap (fun p => s.inputs.find? (fun r => r.a.port = p))

/-- One DAMP_WAIT for each request that a damper withholds at its input. (DEDUCED, log 62) -/
def Slice.dampWaits (s : Slice) : Slice :=
  s.inputHeads.foldl (fun t r => if t.damped (bankKey (reqSet r.op r.a)) (some r.lp) then t.pcEv 0x1F 1 r.occ else t) s

/-- Every arbiter in one fc. (DESIGN CHOICE, log 7) -/
def Slice.arbiters (s : Slice) : Slice :=
  let s := s.dampWaits.wakeHalves.startOps
  let s := (List.range 16).foldl Slice.arbitrate s
  ((s.spareArb 0).spareArb 1).regArb

/-- What follows the grants of an fc: walks that end or go round again, passes that may start, the capture's hash, and a save that may go on.
(DESIGN CHOICE, log 7) -/
def Slice.follow (s : Slice) : Slice :=
  let s := (s.walks.foldl Slice.walkAgain s).pruneWalks
  let s := (List.range 16).foldl (fun t p => t.passStart (BitVec.ofNat 4 p)) s
  s.captureHash.captureMove.saveGo

/-- A damper period of 16 fc begins, if one does in this fc (R294). -/
def Slice.damperPeriod (s : Slice) : Slice :=
  if s.damperDue then
    { (List.range 18).foldl (fun t bk => t.modBank bk (fun _ => t.bankNow bk)) s with damperDue := false }
  else s

/-! ### SL_IRQ_MGMT (R411) -/

/-- The pulse at a REFCLK edge: an owed pulse starts at the second edge after its event, and the 4-tick intervals run down. (DEDUCED, log 46) -/
def Pins.mgmtEdge (p : Pins) : Pins :=
  if p.mgmt || p.mgmtGap then { p with mgmtCount := p.mgmtCount - 1 }
  else if p.mgmtCount = 1 then { p with mgmt := true, mgmtCount := 4 }
  else if p.mgmtMore then { p with mgmtMore := false, mgmtCount := 1 }
  else p

/-- The 4 ticks of the high or low interval are over: high is followed by low, and low by the pulse of the merged events at the next edge. (DEDUCED, log 46) -/
def Pins.mgmtEnd (p : Pins) : Pins :=
  if p.mgmtCount != 0 then p
  else if p.mgmt then { p with mgmt := false, mgmtGap := true, mgmtCount := 4 }
  else if p.mgmtGap then { p with mgmtGap := false, mgmtMore := false, mgmtCount := b2n p.mgmtMore }
  else p

/-! ### Time -/

/-- What a REFCLK edge does outside ember reset (R232, R285, R301, R352, R355, R411): the tick that ends may have been a clamp tick, the count advances, packets whose
count has come apply, a window that has ended is set aside before new levels apply, and the level lines and SL_IRQ_MGMT move. -/
def Slice.edgeOn (s : Slice) : Slice :=
  let s := s.clampTick
  let s := ({ s with count := s.count + 1, pins := { s.pins with telSync := s.pins.telSync - 1 } }).applyTimed true
  let s := (if s.count.toNat % 100 = 0 then s.windowEnd else s).applyTimed false
  let s := s.logGroups.boardEdge.sampleIrq
  { s with pins := s.pins.mgmtEdge }

/-- A REFCLK edge. (DESIGN CHOICE, log 7) -/
def Slice.edge (s : Slice) : Slice :=
  let s := { s with refs := s.refs + 1 }
  if s.start.aonReset then s else (s.pcEv 0x02 1 Occ.none).edgeOn

/-- Packets that came in or after the launch fc of their count apply in the next fc (R352). -/
def Slice.lateTimed (s : Slice) : Slice := if s.start.aonReset then s else (s.applyTimed true).applyTimed false

/-- The regulation window counter after an fc: it stops at its end, where the next window starts, and does not run in slice reset (R275). -/
def Slice.nextWin (s : Slice) : Nat := if s.start.sliceReset then s.winFc else min WINDOW_FC (s.winFc + 1)

/-- The next fc begins, with a REFCLK edge where one falls (R233, R275, R294): what the events and writes of the last fc were no longer counts (R14, R15, R165, R387),
late packets apply (R352), and
quarantines that a table write has held up are entered (R335). (DESIGN CHOICE, log 2, 4) -/
def Slice.advance (s : Slice) : Slice :=
  let s := { s with fc := s.fc + 1, winFc := s.nextWin, frac := s.frac + 2, now := [], wroteRegs := [], pcWas := [], anchors := [],
                    damperDue := s.damperDue || (!s.start.sliceReset && (s.nextWin + 3) % 16 = 0) }
  let s := s.rtLateAlloc
  if s.edgeAt ≤ s.frac then ({ s with frac := s.frac - s.edgeAt }).edge else s.lateTimed

/-- What begins in an fc without a command: a damper period, a regulation window, the end of the walk of TIME_BASE, and fan-out entries that free.
(DESIGN CHOICE, log 7) -/
def Slice.begin (s : Slice) : Slice := s.damperPeriod.windowStart.timeBaseEnd.foFree

/-- One fc in which no command arrives. (DESIGN CHOICE, log 4, 7) -/
def Slice.tick (s : Slice) : Slice :=
  let s := (s.begin.pcEv 0x01 1 Occ.none).egressAll
  s.arbiters.follow.tdGo.advance

end Sys2Proof.Machine
end

