-- ==== Sys2Proof/Machine/Events.lean ====
section
/-! DEFINITION. Events of the slice itself: grants, walks, and launch fcs (spec 95_what_each_step_holds.md). An event whose condition does not hold changes
nothing. -/

namespace Sys2Proof.Machine

/-- One step of a multi-frame pinned operation is granted in a bank (R102). -/
def execPinStep (half : Bool) (bank : Fin 8) (s : State) : Host.Outcome State Fault Refusal :=
  act (fun t => t.offerStep (bankIn half bank)) s

/-- The 256 fc window of a fan-out ends (R113). -/
def execFanoutWindowExpiry (k : Fin 16) (s : State) : Host.Outcome State Fault Refusal :=
  act (fun t => t.foExpire k.val) s

/-- One fan-out delivery leaves (R114). -/
def execFoData (k : Fin 16) (s : State) : Host.Outcome State Fault Refusal :=
  act (fun t => t.foDeliver k.val) s

/-- The release sequencer sends one release (R212). -/
def execSyncReleaseSend (s : State) : Host.Outcome State Fault Refusal :=
  act (fun t => t.releaseSend) s

/-- The drain of a tracker entry ends (R208). -/
def execBarrierDrainEnd (t : Fin 8) (s : State) : Host.Outcome State Fault Refusal :=
  act (fun u => u.drainEnd t.val) s

/-- The oldest ready held request of a bank is replayed (R125). -/
def execHoldQueueReplay (half : Bool) (bank : Fin 8) (s : State) : Host.Outcome State Fault Refusal :=
  act (fun t => (t.replay (bankIn half bank)).saveGo) s

/-- The first continuation of a bank is granted (R127). -/
def execContinuationGrant (half : Bool) (bank : Fin 8) (s : State) : Host.Outcome State Fault Refusal :=
  act (fun t => t.continuation (bankIn half bank)) s

/-- A recalled victim entry is written back into its set (R81). -/
def execRecallReinstate (e : Fin 32) (s : State) : Host.Outcome State Fault Refusal :=
  act (fun t => t.reinstate e.val) s

/-- The oldest victim entry that may depart starts to (R80). -/
def execVictimDeparture (s : State) : Host.Outcome State Fault Refusal :=
  act (fun t => t.victimDepart) s

/-- A departed victim entry frees (R80). -/
def execVictimEntryFree (e : Fin 32) (s : State) : Host.Outcome State Fault Refusal :=
  act (fun t => t.victimFree e.val (t.fc + 3)) s

/-- The activation pass ends (R47). -/
def execActivationDone (p : Pid) (s : State) : Host.Outcome State Fault Refusal :=
  act (fun t => t.activationDone p) s

/-- The recall phase of a release begins (R60). -/
def execSweepRecall (p : Pid) (s : State) : Host.Outcome State Fault Refusal :=
  act (fun t => t.sweepRecall p) s

/-- The zero phase of a release (R60). -/
def execSweepZero (p : Pid) (s : State) : Host.Outcome State Fault Refusal :=
  act (fun t => t.sweepZero p) s

/-- The sweep completes (R62). -/
def execSweepDone (p : Pid) (s : State) : Host.Outcome State Fault Refusal :=
  act (fun t => t.sweepDone p) s

/-- The maintenance walk finishes (R93). -/
def execMaintWalkDone (s : State) : Host.Outcome State Fault Refusal :=
  act (fun t => t.maintDone) s

/-- The launch fc of the armed count (R235). -/
def execLaunch (s : State) : Host.Outcome State Fault Refusal :=
  act (fun t => t.launch) s

/-- The replacement-bit walk of TIME_BASE ends (R228). -/
def execTimeBaseWalkEnd (s : State) : Host.Outcome State Fault Refusal :=
  act (fun t => t.timeBaseEnd) s

/-- The capture walk ends (R245). -/
def execCaptureWalkDone (s : State) : Host.Outcome State Fault Refusal :=
  act (fun t => t.captureDone) s

/-- The close fc of the armed count (R255). -/
def execEpochClose (p : Pid) (s : State) : Host.Outcome State Fault Refusal :=
  act (fun t => t.epochClose p) s

/-- The close recall has merged every answer (R256). -/
def execCloseRecallDone (p : Pid) (s : State) : Host.Outcome State Fault Refusal :=
  act (fun t => t.closeRecallDone p) s

/-- The drain engine writes one line (R262). -/
def execDrainWrite (s : State) : Host.Outcome State Fault Refusal :=
  act (fun t => t.drainWrite) s

/-- The normalise walk and the ledger clear finish (R265). -/
def execHarvestDone (p : Pid) (s : State) : Host.Outcome State Fault Refusal :=
  act (fun t => t.harvestDone p.toNat) s

/-- The pass over added shelf ways ends (R260). -/
def execShelfPassDone (s : State) : Host.Outcome State Fault Refusal :=
  act (fun t => t.shelfPassDone) s

/-- A regulation window starts (R279). -/
def execRegWindowStart (s : State) : Host.Outcome State Fault Refusal :=
  act (fun t => t.windowStart) s

/-- A damper period begins (R294). -/
def execDamperPeriodStart (s : State) : Host.Outcome State Fault Refusal :=
  act (fun t => t.damperPeriod) s

/-- The router returns an egress credit (R403). -/
def execMeshEgressCredit (p : Port) (c : Cls) (s : State) : Host.Outcome State Fault Refusal :=
  act (fun t => t.egressCredit p c) s

/-- A 4-tick interval of an SL_IRQ_MGMT pulse ends (R411). -/
def execSlIrqMgmtPulse (s : State) : Host.Outcome State Fault Refusal :=
  act (fun t => { t with pins := t.pins.mgmtEnd }) s

end Sys2Proof.Machine
end

