-- ==== Sys2Proof/Machine/GovActs.lean ====
section
/-! DEFINITION. The rail governor and the dampers (spec 12_power_governor.md). -/

namespace Sys2Proof.Machine

/-- The lead pulses TEL_SYNC (R285). -/
def execTelSync (s : State) : Host.Outcome State Fault Refusal :=
  act (fun t => t.telSync) s

/-- A telemetry frame arrives (R287). (DESIGN CHOICE, log 26) -/
def execTelemetryFrame (bytes : List Byte) (s : State) : Host.Outcome State Fault Refusal :=
  act (fun t => t.telemetry bytes) s

/-- The deadline of a window without an accepted frame (R287). -/
def execMissedWindow (s : State) : Host.Outcome State Fault Refusal :=
  act (fun t => t.missedWindow) s

/-- A LEVELS packet (R291). -/
def execLevels (levels : Word) (c : Word) (s : State) : Host.Outcome State Fault Refusal :=
  act (fun t => t.ringTake ⟨RG_LEVELS, RG_ALL, 0, flits2 levels ++ flits2 c⟩ (fun u => if u.isOpen then u.hearLevels levels c else u)) s

/-- One damper write leaves (R292). -/
def execDamperWriteSend (s : State) : Host.Outcome State Fault Refusal :=
  act (fun t => t.damperSend) s

/-- A rail droop trips the clamp (R295). -/
def execDroopTrip (s : State) : Host.Outcome State Fault Refusal :=
  act (fun t => t.droopTrip) s

/-- The clamp ends (R295). -/
def execDroopClampEnd (s : State) : Host.Outcome State Fault Refusal :=
  act (fun t => t.droopEnd) s

/-- A group boundary (R301). -/
def execGroupBoundary (g : Fin 4) (s : State) : Host.Outcome State Fault Refusal :=
  act (fun t => t.groupBoundary g.val) s

/-- The deadline of the proposals (R303). -/
def execProposalDeadline (g : Fin 4) (s : State) : Host.Outcome State Fault Refusal :=
  act (fun t => t.groupDeadline g.val) s

/-- The group level applies (R301). -/
def execGroupApply (g : Fin 4) (s : State) : Host.Outcome State Fault Refusal :=
  act (fun t => t.groupApply g.val) s

/-- SL_FREQ_HI changes (R409). -/
def execFreqChange (hi : Bool) (s : State) : Host.Outcome State Fault Refusal :=
  act (fun t => t.freqChange hi) s

end Sys2Proof.Machine
end

