-- ==== Sys2Proof/Machine/MeshAns.lean ====
section
/-! DEFINITION. Answers that arrive on a mesh port, each sunk under its own credit (spec 01_slice_anatomy.md R25, R39; 05_coherence_home.md R131 to R137). -/

namespace Sys2Proof.Machine

/-- A requester confirms a cacheable grant (R137). -/
def execCompAck (a : Arr) (s : State) : Host.Outcome State Fault Refusal :=
  actSunk .rsp a (fun t => t.sunk RS_COMP_ACK false a (fun u => u.compAck a)) s

/-- A forwardee has sent the data (R137). -/
def execFwdAck (a : Arr) (s : State) : Host.Outcome State Fault Refusal :=
  actSunk .rsp a (fun t => t.sunk RS_FWD_ACK false a (fun u => u.fwdAck a)) s

/-- A core acknowledges an invalidation (R137). -/
def execInvAck (a : Arr) (s : State) : Host.Outcome State Fault Refusal :=
  actSunk .rsp a (fun t => t.sunk RS_INV_ACK false a (fun u => u.invAck a)) s

/-- A forwardee does not hold the line (R137). -/
def execNackGone (a : Arr) (s : State) : Host.Outcome State Fault Refusal :=
  actSunk .rsp a (fun t => t.sunk RS_NACK_GONE false a (fun u => u.nackGone a)) s

/-- A core accepts a pushed line (R137). -/
def execPushAck (a : Arr) (s : State) : Host.Outcome State Fault Refusal :=
  actSunk .rsp a (fun t => t.sunk RS_PUSH_ACK false a (fun u => u.pushAck a)) s

/-- A core declines a pushed line (R137). -/
def execPushDecline (a : Arr) (s : State) : Host.Outcome State Fault Refusal :=
  actSunk .rsp a (fun t => t.sunk RS_PUSH_DECLINE false a (fun u => u.pushDecline a)) s

/-- A memory write is acknowledged (R137). -/
def execMemAck (a : Arr) (s : State) : Host.Outcome State Fault Refusal :=
  actSunk .rsp a (fun t => t.sunk RS_MEM_ACK false a (fun u => u.memAck a)) s

/-- A completion of a CFG_WR that the slice originated, or of a write of a save (R292). -/
def execComp (a : Arr) (s : State) : Host.Outcome State Fault Refusal :=
  actSunk .rsp a (fun t => t.sunk RS_COMP false a (fun u => u.compIn a)) s

/-- A core returns delivery credits (R112). -/
def execFoCredit (a : Arr) (s : State) : Host.Outcome State Fault Refusal :=
  actSunk .rsp a (fun t => t.sunk RS_FO_CREDIT false a (fun u => u.foCredit a)) s

/-- Dirty data that a core returns (R137). -/
def execSnpData (a : Arr) (s : State) : Host.Outcome State Fault Refusal :=
  actSunk .dat a (fun t => t.sunk DT_SNP_DATA true a (fun u => u.snpData a)) s

/-- Fill data arrives from memory (R84). -/
def execMemData (a : Arr) (s : State) : Host.Outcome State Fault Refusal :=
  actSunk .dat a (fun t => t.sunk DT_MEM_DATA true a (fun u => u.memData a)) s

/-- Data for a restore (R219). -/
def execData (a : Arr) (s : State) : Host.Outcome State Fault Refusal :=
  actSunk .dat a (fun t => t.sunk DT_DATA true a (fun u => u.dataIn a)) s

/-- A FWD, or an RSP or DAT that nothing expects; a message that something does expect is what it is (R133). -/
def execUnmatched (c : Cls) (op : BitVec 6) (a : Arr) (s : State) : Host.Outcome State Fault Refusal :=
  actAny c op a s

/-- A message whose address or destination this slice does not home; one that it does home is what it is (R25). -/
def execMisrouted (c : Cls) (op : BitVec 6) (a : Arr) (s : State) : Host.Outcome State Fault Refusal :=
  actAny c op a s

end Sys2Proof.Machine
end

