-- ==== Sys2Proof/Machine/MeshReq.lean ====
section
/-! DEFINITION. Requests that arrive on a mesh port (spec 03_cache.md, 04_pinned_buffer.md, 05_coherence_home.md, 06_exact_accumulation.md,
07_line_operations.md, 08_sync_objects.md): the check stage refuses each or admits it to its bank, whose grant performs it. -/

namespace Sys2Proof.Machine

/-- A request other than a register access reaches ingress under a credit (R51, R403). -/
def actReq (op : BitVec 6) (a : Arr) (s : State) : Host.Outcome State Fault Refusal := actMsg .req a (fun t => t.arriveReq op a) s

/-- A read for a shared copy (R136). -/
def execRdS (a : Arr) (s : State) : Host.Outcome State Fault Refusal :=
  actReq OP_RD_S a s

/-- A read for an exclusive copy (R136). -/
def execRdX (a : Arr) (s : State) : Host.Outcome State Fault Refusal :=
  actReq OP_RD_X a s

/-- An upgrade of a held copy (R140). -/
def execUpg (a : Arr) (s : State) : Host.Outcome State Fault Refusal :=
  actReq OP_UPG a s

/-- A non-caching read (R136). -/
def execRdNc (a : Arr) (s : State) : Host.Outcome State Fault Refusal :=
  actReq OP_RD_NC a s

/-- A non-caching write (R136). -/
def execWrNc (a : Arr) (s : State) : Host.Outcome State Fault Refusal :=
  actReq OP_WR_NC a s

/-- A writeback of a line held in M (R136). -/
def execWb (a : Arr) (s : State) : Host.Outcome State Fault Refusal :=
  actReq OP_WB a s

/-- A write of a cacheless agent, with a push to a core (R141). -/
def execStash (a : Arr) (s : State) : Host.Outcome State Fault Refusal :=
  actReq OP_STASH a s

/-- The line becomes zero and dirty with no fetch (R90). -/
def execZeroLine (a : Arr) (s : State) : Host.Outcome State Fault Refusal :=
  actReq OP_ZERO_LINE a s

/-- Dirty data of the line is written back (R91). -/
def execCleanLine (a : Arr) (s : State) : Host.Outcome State Fault Refusal :=
  actReq OP_CLEAN_LINE a s

/-- The line is recalled, written back and invalidated (R91). -/
def execFlushLine (a : Arr) (s : State) : Host.Outcome State Fault Refusal :=
  actReq OP_FLUSH_LINE a s

/-- The line is recalled and its dirty data discarded (R91). -/
def execInvalLine (a : Arr) (s : State) : Host.Outcome State Fault Refusal :=
  actReq OP_INVAL_LINE a s

/-- A pinned frame is read (R101). -/
def execPinRd (a : Arr) (s : State) : Host.Outcome State Fault Refusal :=
  actReq OP_PIN_RD a s

/-- Sectors of a pinned frame are written (R101). -/
def execPinWr (a : Arr) (s : State) : Host.Outcome State Fault Refusal :=
  actReq OP_PIN_WR a s

/-- A range of pinned frames is filled with a pattern (R103). -/
def execPinFill (a : Arr) (s : State) : Host.Outcome State Fault Refusal :=
  actReq OP_PIN_FILL a s

/-- A range of pinned frames is copied within each bank (R104). -/
def execPinCopy (a : Arr) (s : State) : Host.Outcome State Fault Refusal :=
  actReq OP_PIN_COPY a s

/-- Pinned frames are marked DEAD, or one accumulation line is written with DEAD elements (R105). -/
def execPinDrop (a : Arr) (s : State) : Host.Outcome State Fault Refusal :=
  actReq OP_PIN_DROP a s

/-- A pinned frame is read for delivery to the targets of a fan-out entry (R113). -/
def execPinFanout (a : Arr) (s : State) : Host.Outcome State Fault Refusal :=
  actReq OP_PIN_FANOUT a s

/-- A line of contributions is added (R160). -/
def execAccAdd (a : Arr) (s : State) : Host.Outcome State Fault Refusal :=
  actReq OP_ACC_ADD a s

/-- A half-line of contributions is added (R160). -/
def execAccAddS (a : Arr) (s : State) : Host.Outcome State Fault Refusal :=
  actReq OP_ACC_ADD_S a s

/-- A line of partials is merged (R152). -/
def execAccMerge (a : Arr) (s : State) : Host.Outcome State Fault Refusal :=
  actReq OP_ACC_MERGE a s

/-- A run of elements is finalized (R167). -/
def execAccFin (a : Arr) (s : State) : Host.Outcome State Fault Refusal :=
  actReq OP_ACC_FIN a s

/-- A run of elements is finalized with a fused second tensor (R168). -/
def execAccFinFuse (a : Arr) (s : State) : Host.Outcome State Fault Refusal :=
  actReq OP_ACC_FIN_FUSE a s

/-- The largest exponent of the inputs is reduced into a word (R166). -/
def execExpmax (a : Arr) (s : State) : Host.Outcome State Fault Refusal :=
  actReq OP_EXPMAX a s

/-- The anchor of a descriptor is rewritten (R165). -/
def execAccAnchor (a : Arr) (s : State) : Host.Outcome State Fault Refusal :=
  actReq OP_ACC_ANCHOR a s

/-- An element operation on every element of a line (R181). -/
def execLineOp (a : Arr) (s : State) : Host.Outcome State Fault Refusal :=
  actReq OP_LINE_OP a s

/-- An element operation on one element, which returns the old value (R183). -/
def execFetchOp (a : Arr) (s : State) : Host.Outcome State Fault Refusal :=
  actReq OP_FETCH_OP a s

/-- One element is replaced (R183). -/
def execSwap (a : Arr) (s : State) : Host.Outcome State Fault Refusal :=
  actReq OP_SWAP a s

/-- One element is replaced if it equals the compare value (R183). -/
def execCas (a : Arr) (s : State) : Host.Outcome State Fault Refusal :=
  actReq OP_CAS a s

/-- An object is initialised (R203). -/
def execSyInit (a : Arr) (s : State) : Host.Outcome State Fault Refusal :=
  actReq OP_SY_INIT a s

/-- A counter or semaphore gains a signed delta (R204). -/
def execSyAdd (a : Arr) (s : State) : Host.Outcome State Fault Refusal :=
  actReq OP_SY_ADD a s

/-- A semaphore acquisition (R206). -/
def execSyAcq (a : Arr) (s : State) : Host.Outcome State Fault Refusal :=
  actReq OP_SY_ACQ a s

/-- A barrier arrival (R207). -/
def execSyArrive (a : Arr) (s : State) : Host.Outcome State Fault Refusal :=
  actReq OP_SY_ARRIVE a s

/-- A wait on a counter condition or a generation (R205). -/
def execSyWait (a : Arr) (s : State) : Host.Outcome State Fault Refusal :=
  actReq OP_SY_WAIT a s

/-- The 16 bytes of an object are returned (R210). -/
def execSyRead (a : Arr) (s : State) : Host.Outcome State Fault Refusal :=
  actReq OP_SY_READ a s

/-- A register read; `full` says that its size is 8 bytes (R129). -/
def execCfgRd (a : Arr) (full : Bool) (s : State) : Host.Outcome State Fault Refusal :=
  actMsg .req a (fun t => t.cfgArrive OP_CFG_RD a full) s

/-- A register write; `full` says that its size is 8 bytes (R129). -/
def execCfgWr (a : Arr) (full : Bool) (s : State) : Host.Outcome State Fault Refusal :=
  actMsg .req a (fun t => t.cfgArrive OP_CFG_WR a full) s

/-- A REQ of an opcode that the slice does not receive (R39). (DEDUCED, log 59) -/
def execUndefinedReq (op : BitVec 6) (a : Arr) (s : State) : Host.Outcome State Fault Refusal :=
  actMsg .req a (fun t => t.reqIn op a) s

end Sys2Proof.Machine
end

