-- ==== Sys2Proof/Machine/RegActs.lean ====
section
/-! DEFINITION. Writes of registers by host software in PID 0 (spec 00_scope.md R11 to R15): each row with the bits it stands for set in the value. -/

namespace Sys2Proof.Machine

/-- ACTIVATE (R45). -/
def execPtActivate (p : Pid) (n : Node) (v : Word) (s : State) : Host.Outcome State Fault Refusal :=
  act (fun t => t.hostWrite n (PT_CTRL p.toNat) (setF v PT_CTRL_ACTIVATE 1)) s

/-- RELEASE (R59). -/
def execPtRelease (p : Pid) (n : Node) (v : Word) (s : State) : Host.Outcome State Fault Refusal :=
  act (fun t => t.hostWrite n (PT_CTRL p.toNat) (setF v PT_CTRL_RELEASE 1)) s

/-- SEAL (R56). -/
def execPtSeal (p : Pid) (n : Node) (v : Word) (s : State) : Host.Outcome State Fault Refusal :=
  act (fun t => t.hostWrite n (PT_CTRL p.toNat) (setF v PT_CTRL_SEAL 1)) s

/-- A write of a region-map base (R50). -/
def execRmLoWrite (i : Fin 64) (n : Node) (v : Word) (s : State) : Host.Outcome State Fault Refusal :=
  act (fun t => t.hostWrite n (RM_LO i.val) v) s

/-- A write of a region-map limit (R50). -/
def execRmHiWrite (i : Fin 64) (n : Node) (v : Word) (s : State) : Host.Outcome State Fault Refusal :=
  act (fun t => t.hostWrite n (RM_HI i.val) v) s

/-- A write of eight home-map entries (R24). -/
def execIdHmDataWrite (n : Node) (v : Word) (s : State) : Host.Outcome State Fault Refusal :=
  act (fun t => t.hostWrite n ID_HM_DATA v) s

/-- A CLEAN walk starts (R93). -/
def execMaintClean (n : Node) (v : Word) (s : State) : Host.Outcome State Fault Refusal :=
  act (fun t => t.hostWrite n CZ_MAINT_CTRL (setF (setF v CZ_MAINT_CTRL_START 1) CZ_MAINT_CTRL_OP 1)) s

/-- A FLUSH walk starts (R93). -/
def execMaintFlush (n : Node) (v : Word) (s : State) : Host.Outcome State Fault Refusal :=
  act (fun t => t.hostWrite n CZ_MAINT_CTRL (setF (setF v CZ_MAINT_CTRL_START 1) CZ_MAINT_CTRL_OP 2)) s

/-- An INVAL walk starts (R93). -/
def execMaintInval (n : Node) (v : Word) (s : State) : Host.Outcome State Fault Refusal :=
  act (fun t => t.hostWrite n CZ_MAINT_CTRL (setF (setF v CZ_MAINT_CTRL_START 1) CZ_MAINT_CTRL_OP 3)) s

/-- ABORT of a fan-out entry (R115). -/
def execFoAbort (k : Fin 16) (n : Node) (v : Word) (s : State) : Host.Outcome State Fault Refusal :=
  act (fun t => t.hostWrite n (CZ_FO_CFG k.val) (setF v CZ_FO_CFG_ABORT 1)) s

/-- A write of FO_CREDIT_INIT (R112). -/
def execFoCreditInitWrite (n : Node) (v : Word) (s : State) : Host.Outcome State Fault Refusal :=
  act (fun t => t.hostWrite n CZ_PIN_CTRL v) s

/-- A write of the credits of the selected core (R117). -/
def execFoCredValWrite (n : Node) (v : Word) (s : State) : Host.Outcome State Fault Refusal :=
  act (fun t => t.hostWrite n CZ_FO_CRED_VAL v) s

/-- A write of a descriptor configuration (R177). -/
def execAxCfgWrite (d : Fin 32) (n : Node) (v : Word) (s : State) : Host.Outcome State Fault Refusal :=
  act (fun t => t.hostWrite n (AX_CFG d.val) v) s

/-- A write of AX_BASE or AX_LIMIT (R176). -/
def execAxRangeWrite (d : Fin 32) (limit : Bool) (n : Node) (v : Word) (s : State) : Host.Outcome State Fault Refusal :=
  act (fun t => t.hostWrite n (if limit then AX_LIMIT d.val else AX_BASE d.val) v) s

/-- SAT is cleared (R176). -/
def execAxStatusSatClear (d : Fin 32) (n : Node) (v : Word) (s : State) : Host.Outcome State Fault Refusal :=
  act (fun t => t.hostWrite n (AX_STATUS d.val) (setF v AX_STATUS_SAT 1)) s

/-- The debug READ action (R216). -/
def execDbgRead (n : Node) (v : Word) (s : State) : Host.Outcome State Fault Refusal :=
  act (fun t => t.hostWrite n SY_DBG_CMD (setF (setF v SY_DBG_CMD_START 1) SY_DBG_CMD_ACTION 0)) s

/-- The debug SET_VALUE action (R217). -/
def execSetValue (n : Node) (v : Word) (s : State) : Host.Outcome State Fault Refusal :=
  act (fun t => t.hostWrite n SY_DBG_CMD (setF (setF v SY_DBG_CMD_START 1) SY_DBG_CMD_ACTION 1)) s

/-- The debug RELEASE_ALL action (R217). -/
def execReleaseAll (n : Node) (v : Word) (s : State) : Host.Outcome State Fault Refusal :=
  act (fun t => t.hostWrite n SY_DBG_CMD (setF (setF v SY_DBG_CMD_START 1) SY_DBG_CMD_ACTION 2)) s

/-- A save starts (R219). -/
def execSySave (n : Node) (v : Word) (s : State) : Host.Outcome State Fault Refusal :=
  act (fun t => t.hostWrite n SY_SAVE_CTRL (setF (setF v SY_SAVE_CTRL_START 1) SY_SAVE_CTRL_OP 1)) s

/-- A restore starts (R219). -/
def execSyRestore (n : Node) (v : Word) (s : State) : Host.Outcome State Fault Refusal :=
  act (fun t => t.hostWrite n SY_SAVE_CTRL (setF (setF v SY_SAVE_CTRL_START 1) SY_SAVE_CTRL_OP 2)) s

/-- ARM of the launch slot (R234). -/
def execDgLaunchArm (n : Node) (v : Word) (s : State) : Host.Outcome State Fault Refusal :=
  act (fun t => t.hostWrite n DG_LAUNCH (setF v DG_LAUNCH_ARM 1)) s

/-- CANCEL of the launch slot (R234). -/
def execDgLaunchCancel (n : Node) (v : Word) (s : State) : Host.Outcome State Fault Refusal :=
  act (fun t => t.hostWrite n DG_LAUNCH (setF v DG_LAUNCH_CANCEL 1)) s

/-- A write of a cairn lane (R248). -/
def execDgLaneWrite (p : Pid) (j : Fin 4) (n : Node) (v : Word) (s : State) : Host.Outcome State Fault Refusal :=
  act (fun t => t.hostWrite n (DG_LANE p.toNat j.val) v) s

/-- ARM of a close slot (R253). -/
def execEpArm (p : Pid) (n : Node) (v : Word) (s : State) : Host.Outcome State Fault Refusal :=
  act (fun t => t.hostWrite n (EP_PCTRL p.toNat) (setF v EP_PCTRL_ARM 1)) s

/-- CANCEL of a close slot (R253). -/
def execEpCancel (p : Pid) (n : Node) (v : Word) (s : State) : Host.Outcome State Fault Refusal :=
  act (fun t => t.hostWrite n (EP_PCTRL p.toNat) (setF v EP_PCTRL_CANCEL 1)) s

/-- RELEASE of a harvest (R265). -/
def execEpHarvestRelease (p : Pid) (n : Node) (v : Word) (s : State) : Host.Outcome State Fault Refusal :=
  act (fun t => t.hostWrite n (EP_PCTRL p.toNat) (setF v EP_PCTRL_RELEASE 1)) s

/-- ABORT of a harvest (R266). -/
def execEpHarvestAbort (p : Pid) (n : Node) (v : Word) (s : State) : Host.Outcome State Fault Refusal :=
  act (fun t => t.hostWrite n (EP_PCTRL p.toNat) (setF v EP_PCTRL_ABORT 1)) s

/-- A write of SHELF_WAYS (R260). -/
def execShelfWaysWrite (n : Node) (v : Word) (s : State) : Host.Outcome State Fault Refusal :=
  act (fun t => t.hostWrite n EP_CTRL v) s

/-- A write of minimum shares (R278). -/
def execBwMinWrite (k : Fin 4) (n : Node) (v : Word) (s : State) : Host.Outcome State Fault Refusal :=
  act (fun t => t.hostWrite n (BW_MIN k.val) v) s

/-- A phase hint (R296). -/
def execPgPhaseHintWrite (n : Node) (v : Word) (s : State) : Host.Outcome State Fault Refusal :=
  act (fun t => t.hostWrite n PG_PHASE_HINT v) s

/-- An activity report of a core (R304). -/
def execPgActReportWrite (n : Node) (v : Word) (s : State) : Host.Outcome State Fault Refusal :=
  act (fun t => t.hostWrite n PG_ACT_REPORT v) s

/-- A write of the ageing record is asked for (R323). -/
def execAgRecWrite (n : Node) (v : Word) (s : State) : Host.Outcome State Fault Refusal :=
  act (fun t => t.hostWrite n AG_REC_CTRL (setF v AG_REC_CTRL_WRITE 1)) s

/-- Error injection is armed (R339). -/
def execEcFlipArm (n : Node) (v : Word) (s : State) : Host.Outcome State Fault Refusal :=
  act (fun t => t.hostWrite n EC_FLIP_CTRL (setF v EC_FLIP_CTRL_ARM 1)) s

/-- A spare mapping is written (R342). -/
def execEcSpareWrite (n : Node) (v : Word) (s : State) : Host.Outcome State Fault Refusal :=
  act (fun t => t.hostWrite n EC_SPARE v) s

/-- A retire-table entry is written (R335). -/
def execEcRtWrite (i : Fin 64) (n : Node) (v : Word) (s : State) : Host.Outcome State Fault Refusal :=
  act (fun t => t.hostWrite n (EC_RT i.val) v) s

/-- The lead takes the roster (R354). -/
def execRgRosterCmd (n : Node) (v : Word) (s : State) : Host.Outcome State Fault Refusal :=
  act (fun t => t.hostWrite n RG_CTRL (setF v RG_CTRL_ROSTER 1)) s

/-- The ring returns to EMBER mode (R350). -/
def execRgEmber (n : Node) (v : Word) (s : State) : Host.Outcome State Fault Refusal :=
  act (fun t => t.hostWrite n RG_CTRL (setF v RG_CTRL_EMBER 1)) s

/-- Board-ring training (R358). -/
def execBrTrain (n : Node) (v : Word) (s : State) : Host.Outcome State Fault Refusal :=
  act (fun t => t.hostWrite n RG_CTRL (setF v RG_CTRL_BR_TRAIN 1)) s

/-- A count adjustment is armed or refused (R362). -/
def execRgCntAdjGo (n : Node) (v : Word) (s : State) : Host.Outcome State Fault Refusal :=
  act (fun t => t.hostWrite n RG_CNT_ADJ (setF v RG_CNT_ADJ_GO 1)) s

/-- The flash READ command (R381). -/
def execNvRead (n : Node) (v : Word) (s : State) : Host.Outcome State Fault Refusal :=
  act (fun t => t.hostWrite n NV_CMD (setF (setF v NV_CMD_START 1) NV_CMD_OP NVO_READ)) s

/-- The flash PROGRAM command (R381). -/
def execNvProgram (n : Node) (v : Word) (s : State) : Host.Outcome State Fault Refusal :=
  act (fun t => t.hostWrite n NV_CMD (setF (setF v NV_CMD_START 1) NV_CMD_OP NVO_PROGRAM)) s

/-- The flash ERASE_4K command (R381). -/
def execNvErase4k (n : Node) (v : Word) (s : State) : Host.Outcome State Fault Refusal :=
  act (fun t => t.hostWrite n NV_CMD (setF (setF v NV_CMD_START 1) NV_CMD_OP NVO_ERASE)) s

/-- A counter configuration is written (R390). -/
def execPcCfgWrite (i : Fin 32) (n : Node) (v : Word) (s : State) : Host.Outcome State Fault Refusal :=
  act (fun t => t.hostWrite n (PC_CFG i.val) v) s

/-- A counter value is written (R387). -/
def execPcValWrite (i : Fin 32) (n : Node) (v : Word) (s : State) : Host.Outcome State Fault Refusal :=
  act (fun t => t.hostWrite n (PC_VAL i.val) v) s

/-- An array readback starts (R397). -/
def execTdArrStart (n : Node) (v : Word) (s : State) : Host.Outcome State Fault Refusal :=
  act (fun t => t.hostWrite n TD_ARR_CMD (setF v TD_ARR_CMD_START 1)) s

/-- TAP_LOCK is set (R396). -/
def execTapLock (n : Node) (v : Word) (s : State) : Host.Outcome State Fault Refusal :=
  act (fun t => t.hostWrite n TD_CTRL (setF v TD_CTRL_TAP_LOCK 1)) s

/-- A write of any register, by its access codes and locks (R12). -/
def execRegisterWrite (n : Node) (off : BitVec 16) (v : Word) (s : State) : Host.Outcome State Fault Refusal :=
  act (fun t => t.hostWrite n off.toNat v) s

end Sys2Proof.Machine
end

