-- ==== Sys2Proof/Machine/Image.lean ====
section
/-! DEFINITION. The configuration image: headers, records, staging, and the ageing record that is read beside it (spec 16_startup_image.md R370 to
R375, 13_ember_ageing.md R321, R322). -/

namespace Sys2Proof.Machine

/-- A number of `n` bytes at a place of a list of bytes; bytes that are not there count as zero. (DESIGN CHOICE, log 42) -/
def numAt (l : List Byte) (start n : Nat) : Nat := ofLeBytes ((l.drop start).take n)

/-! ### Headers (R370, R373) -/

abbrev IH_MAGIC : Fld := ⟨0, 32⟩
abbrev IH_FORMAT : Fld := ⟨32, 16⟩
abbrev IH_SEQ : Fld := ⟨64, 32⟩
abbrev IH_LENGTH : Fld := ⟨96, 32⟩
abbrev IH_GROUP : Fld := ⟨128, 7⟩

/-- The MAGIC of a bank header. -/
def magicOk (h : BitVec 256) : Bool := getF h IH_MAGIC = 0x4D495644

/-- A header is well formed (R370). -/
def wellFormedHdr (h : BitVec 256) : Bool :=
  let n := getF h IH_LENGTH
  let g := getF h IH_GROUP
  magicOk h && getF h IH_FORMAT = 1 && getF h IH_SEQ != 0xFFFFFFFF && n % 8 = 0 && decide (40 ≤ n) && decide (n ≤ 1048568)
    && decide (8 ≤ g) && decide (g ≤ 64)

/-- Serial-number order (R373). -/
def newer (x y : Nat) : Bool :=
  let d := (x + 2 ^ 32 - y) % 2 ^ 32
  decide (1 ≤ d) && decide (d ≤ 2 ^ 31 - 1)

/-- The banks to stream, in the order of R373; true names bank B. -/
def bankOrder (a b : BitVec 256) : List (Bool × BitVec 256) :=
  let c := [(false, a), (true, b)].filter (fun x => wellFormedHdr x.2)
  if wellFormedHdr a && wellFormedHdr b && newer (getF b IH_SEQ) (getF a IH_SEQ) then c.reverse else c

/-- The CRC stored after LENGTH bytes matches. -/
def crcHolds (l : List Byte) (n : Nat) : Bool := decide (n + 4 ≤ l.length) && decide ((crc32 (l.take n)).toNat = numAt l n 4)

/-! ### Records (R371) -/

abbrev RT_REG : Nat := 1
abbrev RT_HOME_MAP : Nat := 2
abbrev RT_REPAIR : Nat := 3
abbrev RT_AGE_BASE : Nat := 4
abbrev RT_PHASE : Nat := 5
abbrev RT_PATCH : Nat := 6
abbrev RT_START : Nat := 7
abbrev RT_END : Nat := 0xFF

/-- A record: TYPE, SLICE and payload. -/
structure Rec where
  typ : Nat
  slice : Nat
  body : List Byte
  deriving DecidableEq, Repr

/-- The records of a stream up to END; the Bool says that the stream ran past its end without one. -/
def parseRecs : Nat → List Byte → List Rec × Bool
  | 0, _ => ([], true)
  | f + 1, l =>
    let len := numAt l 4 4
    if l.length < 8 then ([], true)
    else if numAt l 0 1 = RT_END then ([], false)
    else if l.length < 8 + len then ([], true)
    else
      let (t, bad) := parseRecs f (l.drop (8 + len))
      (⟨numAt l 0 1, numAt l 1 1, (l.drop 8).take len⟩ :: t, bad)

/-- The bytes that the staging store holds (R372): each record with its header. (DESIGN CHOICE, log 42) -/
def storeUsed (l : List (Nat × List Byte)) : Nat := (l.map (fun r => 8 + r.2.length)).sum

/-- PATCH code goes into the patch RAM of 32 KiB (R372). (DESIGN CHOICE, log 54) -/
def Slice.takePatch (s : Slice) (body : List Byte) : Slice :=
  let at' := numAt body 0 2 % 2 ^ 15
  let code := body.drop 8
  let patch := ((List.range code.length).zip code).foldl (fun t e => if at' + e.1 < 2 ^ 15 then Tbl.put 0 t (at' + e.1) e.2 else t) s.start.patch
  let s := ({ s with start := { s.start with patch := patch } }).raise NV_STEWARD NV_STEWARD_PATCHED
  if at' + code.length ≤ 2 ^ 15 then s else s.raise NV_STATUS NV_STATUS_STORE_FULL

/-- One record of the stream is staged, skipped or dropped (R371, R372). (DESIGN CHOICE, log 42) -/
def Slice.stageRec (s : Slice) (r : Rec) : Slice :=
  if r.typ = 0 || 8 ≤ r.typ then s.raise NV_STATUS NV_STATUS_REC_BAD
  else if r.slice != 0xFF && r.slice != s.id then s
  else if (r.typ = RT_AGE_BASE || r.typ = RT_PHASE) && !s.lead then s
  else if r.typ = RT_PATCH then s.takePatch r.body
  else if storeUsed s.start.records + 8 + r.body.length ≤ 16384 then
    { s with start := { s.start with records := s.start.records ++ [(r.typ, r.body)] } }
  else s.raise NV_STATUS NV_STATUS_STORE_FULL

/-- A stream whose CRC matches: its header gives GROUP_SIZE and the bank's SEQ and LENGTH (R370, R385), and its records are staged. -/
def Slice.stage (s : Slice) (l : List Byte) (len : Nat) : Slice :=
  let (rs, bad) := parseRecs len ((l.take len).drop 32)
  let s := s.setFld ID_SLICE ID_SLICE_GROUP_SIZE (numAt l 16 1 % 128)
  let s := (s.setFld NV_IMAGE NV_IMAGE_SEQ (numAt l 8 4)).setFld NV_IMAGE NV_IMAGE_LENGTH (numAt l 12 4)
  let s := rs.foldl (fun t r => t.stageRec r) { s with start := { s.start with records := [], staged := true, stageBad := false } }
  if bad then s.raise NV_STATUS NV_STATUS_REC_BAD else s

/-- The staged records of a type. -/
def Slice.recsOf (s : Slice) (typ : Nat) : List (List Byte) := (s.start.records.filter (fun r => r.1 = typ)).map Prod.snd

/-- The START record (R371): ALIGN_TICK, ALIGN_PERIOD and COUNT_START; a missing one acts as 0, 65,536 and 0. -/
def Slice.startRec (s : Slice) : List Byte := ((s.recsOf RT_START).getLast?).getD []
def Slice.alignTick (s : Slice) : Nat := numAt s.startRec 0 8
def Slice.alignPeriod (s : Slice) : Nat := let p := numAt s.startRec 8 4
                                           if p = 0 then 65536 else p
def Slice.countStart (s : Slice) : Nat := numAt s.startRec 16 8

/-- ROUTER_BASE of the HOME_MAP record (R371). -/
def Slice.routerBase (s : Slice) : Nat :=
  match (s.recsOf RT_HOME_MAP).getLast? with
  | some l => numAt l 1024 8 % 2 ^ 48 / 8 * 8
  | none => 0

/-- The start-up step (R364). -/
def Slice.step' (s : Slice) : Nat := s.fld NV_STATUS NV_STATUS_STEP
def Slice.setStep (s : Slice) (n : Nat) : Slice := s.setFld NV_STATUS NV_STATUS_STEP n

/-- Staging has failed: the position halts in step 15 (R374, R375). -/
def Slice.stageErr (s : Slice) : Slice := (s.raise NV_STATUS NV_STATUS_STAGE_ERR).setStep 15

/-! ### The ageing record (R321, R322) -/

/-- The header test of a record bank. -/
def ageHdrOk (l : List Byte) : Bool := decide (numAt l 0 4 = 0x41474552) && decide (numAt l 4 4 != 0xFFFFFFFF)

/-- A record bank is valid. -/
def ageOk (l : List Byte) : Bool := ageHdrOk l && crcHolds l 2064

/-- The selected record bank: 0, 1, or none valid. -/
def ageSelect (a b : List Byte) : Option Nat :=
  let order := if ageHdrOk a && ageHdrOk b && newer (numAt b 4 4) (numAt a 4 4) then [1, 0] else [0, 1]
  order.find? (fun k => ageOk (if k = 0 then a else b))

/-- The entry of a slice in a bank, whose entries start at a byte. -/
def ageEntryAt (l : List Byte) (start i : Nat) : BitVec 256 := BitVec.ofNat 256 (numAt l (start + 32 * i) 32)

/-- The entries of the selected bank, or of the baseline. (DEDUCED, log 38) -/
def Slice.ageEntries (s : Slice) (a b : List Byte) : Nat → BitVec 256 :=
  match ageSelect a b with
  | some 0 => ageEntryAt a 16
  | some _ => ageEntryAt b 16
  | none => ageEntryAt (((s.recsOf RT_AGE_BASE).getLast?).getD []) 8

/-- The lead reads the ageing banks: what it selects, and where the banks lie (R322, R374). -/
def Slice.ageTake (s : Slice) (a b : List Byte) : Slice :=
  let e := s.ageEntries a b
  let sel := ageSelect a b
  let l := if sel = some 1 then b else a
  let banks := ((s.recsOf RT_AGE_BASE).getLast?).map (fun r => (numAt r 0 3, numAt r 4 3))
  { s with start := { s.start with ageEntry := e s.id, ageStored := (List.range 64).foldl (fun t i => Tbl.put 0 t i (e i)) [],
                                   recSrc := sel.getD 2, recSeq := if sel.isSome then numAt l 4 4 else 0,
                                   recPoh := if sel.isSome then numAt l 8 4 else 0, recBanks := banks } }

/-- The lead sends each slice ID its entry (R374). -/
def Slice.sendAges (s : Slice) : Slice :=
  (List.range (s.fld ID_SLICE ID_SLICE_GROUP_SIZE)).foldl (fun t i =>
    t.ringPut ⟨RG_AGE_ENTRY, i, 0, (List.range 8).map (fun k => (Tbl.at 0 s.start.ageStored i).extractLsb' (32 * k) 32)⟩) s

/-! ### The stream (R374) -/

/-- The flits of a list of bytes, 4 bytes each; the bytes beyond the last are zero. -/
def flitsOf (l : List Byte) : List (BitVec 32) := (List.range ((l.length + 3) / 4)).map (fun k => BitVec.ofNat 32 (numAt l (4 * k) 4))

/-- ARG of packet k. -/
def imgArg (k : Nat) : Nat := if k = 0 then 0 else 1 + (k - 1) % 32767

/-- The packets of the stream: 28 bytes each. -/
def Slice.sendImage (s : Slice) : Nat → Nat → List Byte → Slice
  | 0, _, _ => s
  | f + 1, k, l =>
    match l with
    | [] => s
    | _ => (s.ringPut ⟨RG_IMG_DATA, RG_ALL, imgArg k, flitsOf (l.take 28)⟩).sendImage f (k + 1) (l.drop 28)

/-- What a new stream finds: nothing staged. -/
def Slice.unstage (s : Slice) : Slice :=
  { s with start := { s.start with image := [], packets := 0, staged := false, stageBad := false, records := [], patch := [] } }

/-- Bytes of the stream reach a position: at its end the position checks the CRC itself. -/
def Slice.takeImage (s : Slice) (l : List Byte) : Slice :=
  let img := s.start.image ++ l
  let s := { s with start := { s.start with image := img, packets := s.start.packets + 1 } }
  let n := numAt img 12 4
  if img.length < 16 || s.start.staged || s.start.stageBad || img.length < n + 4 then s
  else if crcHolds img n then s.stage img n else { s with start := { s.start with stageBad := true } }

/-- IMG_DATA at a position that is not the lead (R374). -/
def Slice.imgData (s : Slice) (arg : Nat) (l : List Byte) : Slice :=
  if s.lead || s.step' != 1 then s
  else if arg = 0 then s.unstage.takeImage l
  else if s.start.packets = 0 || arg != imgArg s.start.packets then s.stageErr
  else s.takeImage l

/-- AGE_ENTRY at its position (R374): the entry, and the end of step 1. -/
def Slice.ageEntryIn (s : Slice) (dst : Nat) (e : BitVec 256) : Slice :=
  if s.lead || dst != s.id then s
  else
    let s := { s with start := { s.start with ageEntry := e } }
    if s.step' != 1 then s
    else if s.start.staged then s.setStep 2
    else if s.start.stageBad then s.stageErr else s

end Sys2Proof.Machine
end

