-- ==== Sys2Proof/Machine/Startup.lean ====
section
/-! DEFINITION. Start-up, step by step, and the re-entry of one slice (spec 16_startup_image.md R364 to R384, 14_error_protection.md R329,
18_ports_signals.md R400, R409). -/

namespace Sys2Proof.Machine

/-! ### Ember reset (R355, R364, R412) -/

/-- The slice ID is sampled from the strap. -/
def Slice.sampleId (s : Slice) (strap : BitVec 6) : Slice :=
  (s.setFld ID_SLICE ID_SLICE_SLICE_ID strap.toNat).setFld ID_SLICE ID_SLICE_LEAD (b2n (strap = 0))

/-- SL_AON_RSTN is released: the count starts at 0, the TAP is in Test-Logic-Reset, and step 1 begins. -/
def Slice.aonRelease (s : Slice) (strap : BitVec 6) : Slice :=
  if !s.start.aonReset || s.start.fuseOff then s
  else
    let s := { s with start := { s.start with aonReset := false }, count := 0, refs := 0, frac := 0, tap := ⟨1, 0, 0, 0⟩ }
    (s.sampleId strap).setStep 1

/-- SL_AON_RSTN is asserted: ember reset (R409). (DESIGN CHOICE, log 27) -/
def Slice.aonAssert (s : Slice) : Slice := { Slice.reset with fresh := s.fresh }

/-! ### Step 1: the image (R368, R373, R374) -/

/-- No valid bank: NO_IMAGE, SL_CFG_ERR, and the position halts (R373). (DESIGN CHOICE, log 42) -/
def Slice.noImage (s : Slice) : Slice :=
  let s := (s.raise NV_STATUS NV_STATUS_NO_IMAGE).setStep 15
  { s with pins := { s.pins with cfgErr := true }, start := { s.start with candidates := [] } }

/-- The NVM wait has ended, and SFDP and both bank headers have been read (R368). A quad read with a bad MAGIC in both headers is repeated
in 1-1-1 mode. -/
def Slice.nvmWait (s : Slice) (sfdp quad : Bool) (a b : BitVec 256) : Slice :=
  if !s.lead || s.start.aonReset || s.step' != 1 || s.start.candidates != [] then s
  else
    let q := sfdp && quad && !s.start.single
    let s := s.setFld NV_STATUS NV_STATUS_READ_QUAD (b2n q)
    if q && !(magicOk a) && !(magicOk b) then { s with start := { s.start with single := true } }
    else match bankOrder a b with
      | [] => s.noImage
      | l => { s with start := { s.start with candidates := l } }

/-- The bank used, by the header that the lead read before the stream (R373, R385). -/
def Slice.bankUsed (s : Slice) (x : Bool × BitVec 256) : Slice :=
  let s := (s.setFld NV_STATUS NV_STATUS_BANK (b2n x.1)).setFld NV_IMAGE NV_IMAGE_SEQ (getF x.2 IH_SEQ)
  (s.setFld NV_IMAGE NV_IMAGE_LENGTH (getF x.2 IH_LENGTH)).setFld ID_SLICE ID_SLICE_GROUP_SIZE (getF x.2 IH_GROUP)

/-- The lead's part of a stream that has ended with a matching CRC: its own share, the ageing entries, SL_CFG_DONE (R374). -/
def Slice.imageUsed (s : Slice) (x : Bool × BitVec 256) (bank a b : List Byte) : Slice :=
  let s := (((s.stage bank (getF x.2 IH_LENGTH)).bankUsed x).ageTake a b).sendAges
  { s.setStep 2 with pins := { s.pins with cfgDone := true }, start := { s.start with candidates := [] } }

/-- The lead has streamed the first candidate bank, whose bytes these are (R373, R374). -/
def Slice.imageDone (s : Slice) (bank a b : List Byte) : Slice :=
  match s.start.candidates with
  | [] => s
  | x :: rest =>
    let n := getF x.2 IH_LENGTH
    if !s.lead || s.step' != 1 || bank.length < n + 4 then s
    else
      let l := bank.take (n + 4)
      let s := s.unstage.sendImage (l.length + 1) 0 l
      if crcHolds l n then s.imageUsed x l a b
      else
        let s := s.raise NV_STATUS (if x.1 then NV_STATUS_CRC_FAIL_B else NV_STATUS_CRC_FAIL_A)
        if rest = [] then s.noImage else { s with start := { s.start with candidates := rest } }

/-! ### Steps 2 and 3: power and the repair load (R364, R375, R376) -/

/-- One entry of REPAIR enters the retire table as RETIRED, unless its frame is there already (R335). -/
def Slice.repairEntry (s : Slice) (v : Word) : Slice :=
  if getF v EC_RT_VALID = 0 || (s.rtFind (rtKey v)).isSome then s
  else match firstBelow 64 (fun i => !(s.flag (EC_RT i) EC_RT_VALID)) with
    | some i => s.setReg (EC_RT i) (rtWord (rtKey v) 1)
    | none => s

/-- A REPAIR record: EC_SPARE bits [11:0], then entries in the layout of EC_RT. -/
def Slice.repairRec (s : Slice) (l : List Byte) : Slice :=
  let w : Word := BitVec.ofNat 64 (numAt l 0 8)
  let s := [EC_SPARE_H0_VALID, EC_SPARE_H0_BANK, EC_SPARE_H1_VALID, EC_SPARE_H1_BANK].foldl (fun t f => t.setFld EC_SPARE f (getF w f)) s
  (List.range (min 64 ((l.length - 8) / 8))).foldl (fun t i => t.repairEntry (BitVec.ofNat 64 (numAt l (8 + 8 * i) 8))) s

/-- Words corrected when the store is read are counted; an uncorrectable one halts the slice (R375). -/
def Slice.storeRead (s : Slice) (ce : Nat) (bad : Bool) (f : Slice → Slice) : Slice :=
  let s := s.bump NV_STEWARD NV_STEWARD_CE ce
  if bad then s.stageErr else f s

/-- Rails, FCLK and slice reset are all there: MODE AWAKE leaves the lead, and the repair load runs (R364). (DEDUCED, log 44) -/
def Slice.powerPresent (s : Slice) (ce : Nat) (bad : Bool) : Slice :=
  if s.step' != 2 then s
  else
    let start := { s.start with rails := true, powered := true, sliceReset := false, flueOpen := false }
    let s := { s with start := start }
    let s := if s.lead && !(s.flag RG_STATUS RG_STATUS_MODE) then s.sendMode true else s
    s.storeRead ce bad (fun t => ((t.recsOf RT_REPAIR).foldl (fun u l => u.repairRec l) t).setStep 4)

/-! ### Step 4: the kindling fill and the register load (R329, R376) -/

/-- A REG entry of 16 bytes. -/
def Slice.loadEntry (s : Slice) (l : List Byte) : Slice :=
  let off := numAt l 0 2
  if 0x6800 ≤ off then s.raise NV_STATUS NV_STATUS_REC_BAD else s.writeReg 0 off (BitVec.ofNat 64 (numAt l 8 8)) true

/-- The bytes of a HOME_MAP record enter the map. -/
def Slice.loadMap (s : Slice) (l : List Byte) : Slice :=
  { s with homeMap := (List.range 1024).foldl (fun m i => Tbl.put 0 m i (BitVec.ofNat 6 (numAt l i 1))) [] }

/-- An entry of a PHASE record (R371). -/
def phaseOf (l : List Byte) : Phase :=
  ⟨true, true, 0, numAt l 0 2, [numAt l 2 2, numAt l 4 2, numAt l 6 2], 0, 0⟩

/-- The phase table holds the first 48 entries of the PHASE records, with ANY = 1. -/
def Slice.loadPhase (s : Slice) (l : List Byte) : Slice :=
  (List.range (l.length / 16)).foldl (fun t i =>
    if t.gov.phases.length < 48 then t.setPhase t.gov.phases.length (phaseOf (l.drop (16 * i))) else t) s

/-- One staged record of register load, in image order. -/
def Slice.loadRec (s : Slice) (r : Nat × List Byte) : Slice :=
  if r.1 = RT_REG then (List.range (r.2.length / 16)).foldl (fun t i => t.loadEntry (r.2.drop (16 * i))) s
  else if r.1 = RT_HOME_MAP then s.loadMap r.2
  else if r.1 = RT_PHASE then s.loadPhase r.2 else s

/-- Minima of the image whose sum exceeds 224 are all loaded as 0 (R278). -/
def Slice.loadMins (s : Slice) : Slice :=
  if 224 < s.minSum then ((List.range 4).foldl (fun t k => t.setReg (BW_MIN k) 0) s).minRefuse (BW_MIN 0) 0 else s

/-- The lead's ageing-record registers (R322, R323). -/
def Slice.loadRecord (s : Slice) : Slice :=
  if !s.lead then s
  else
    let c := AG_REC_CTRL
    let s := ((s.setFld c AG_REC_CTRL_SOURCE s.start.recSrc).setFld c AG_REC_CTRL_BANK (if s.start.recSrc = 1 then 1 else 0)).setFld c AG_REC_CTRL_SEQ s.start.recSeq
    let s := (s.setFld AG_POH AG_POH_NOW s.start.recPoh).setFld AG_POH AG_POH_LAST_WRITE s.start.recPoh
    { s with age := { s.age with stored := s.start.ageStored } }

/-- Register load (R376): runtime changes of the ring registers that slice reset kept are lost with it (R380). (DEDUCED, log 44) -/
def Slice.regLoad (s : Slice) : Slice :=
  let s := (s.setReg RG_CTRL (Tbl.at 0 resetRegs RG_CTRL)).setReg RG_BR_CFG (Tbl.at 0 resetRegs RG_BR_CFG)
  let s := (s.start.records.foldl (fun t r => t.loadRec r) s).loadMins
  let s := s.setFld ID_HM_CRC ID_HM_CRC_CRC s.crcOfMap.toNat
  s.loadRecord.loadAge

/-- A codeword that does not read as clean zero (R329): array, target, word and mask. -/
def Slice.kindleBad (s : Slice) (d : BitVec 3 × BitVec 18 × BitVec 5 × BitVec 72) : Slice :=
  let (arr, idx, word, m) := (d.1.toNat, d.2.1.toNat, d.2.2.1.toNat, d.2.2.2)
  if m = 0 || 6 ≤ arr then s
  else
    let s := { s with flips := Tbl.put 0 s.flips (cwOf arr idx word) m }
    let synd := (syndromeOf (storedD 0 m) (storedC 0 m)).toNat
    let bit := match decodeM 0 m with
      | .fixed _ b => b
      | _ => 0x7F
    let s := (s.raise EC_STATUS EC_STATUS_KINDLE_ERR).logErr 0x03 (s.log1Word arr idx word bit synd 3) 0
    if arr ≤ 2 then s.quarantineFrame idx else s

/-- What the write pass leaves: every array zero. -/
def Slice.kindle (s : Slice) : Slice :=
  { s with frames := [], repl := [], victims := [], ledger := [], flips := [], injAt := none }

/-- The fill and the register load have ended (R329, R376): step 5. -/
def Slice.kindlingDone (s : Slice) (defects : List (BitVec 3 × BitVec 18 × BitVec 5 × BitVec 72)) (ce : Nat) (bad : Bool) : Slice :=
  if s.step' != 4 then s
  else s.kindle.storeRead ce bad (fun t =>
    let t := (defects.foldl (fun u d => u.kindleBad d) t.regLoad).setStep 5
    { t with start := { t.start with step5At := t.count } })

/-! ### Step 5: crossing alignment (R237, R377) -/

/-- A count is an alignment count. -/
def Slice.alignCount (s : Slice) (c : Nat) : Bool := decide (s.alignTick ≤ c) && (c - s.alignTick) % s.alignPeriod = 0

/-- The ports take their first credits for classes other than REQ (R403). (DEDUCED, log 3) -/
def Slice.firstCredits (s : Slice) : Slice :=
  { s with rxCred := (List.finRange 4).foldl (fun t p =>
      Tbl.put 0 (Tbl.put 0 (Tbl.put 0 t (credKey p .fwd) 2) (credKey p .rsp) 16) (credKey p .dat) 16) s.rxCred }

/-- The crossings are aligned at an alignment count at least 64 ticks after step 5 was reached (R377). -/
def Slice.alignAll (s : Slice) (lat : BitVec 32) : Slice :=
  if s.step' != 5 || !(s.alignCount s.count.toNat) || decide (s.count.toNat < s.start.step5At.toNat + 64) then s
  else
    let s := (((List.range 4).foldl (fun t p => t.alignPort lat p) s).raise DG_DET_STATUS DG_DET_STATUS_ALIGN_DONE).firstCredits
    { s.setStep 6 with start := { s.start with aligned := true, alignedCount := s.count } }

/-! ### Steps 6 to 8 (R378, R379) -/

/-- COUNT_SET has been sent by this lead. -/
def Slice.countSent (s : Slice) : Bool := (s.ring.out ++ s.ring.queue).any (fun p => p.typ = RG_COUNT_SET)

/-- The count a of a COUNT_SET (R355). -/
def Slice.setAt (s : Slice) : Word :=
  if s.flag RG_STATUS RG_STATUS_MODE then s.count + 64 else s.count + BitVec.ofNat 64 (8 * s.fld ID_SLICE ID_SLICE_GROUP_SIZE + 32)

/-- Eight ticks after it aligned, the lead sends COUNT_SET (R378). -/
def Slice.countLoad (s : Slice) : Slice :=
  if !s.lead || s.step' != 6 || s.start.reentry || s.countSent || decide (s.count.toNat < s.start.alignedCount.toNat + 8) then s
  else s.sendCountSet s.setAt (BitVec.ofNat 64 s.countStart)

/-- The router writes of the lead (R379). -/
def Slice.routerWrites (s : Slice) : Slice :=
  let b := s.routerBase
  if !s.lead || b = 0 then s
  else (List.range 128).foldl (fun t g =>
    let w := (List.range 8).foldl (fun (x : Word) k => setF x ⟨8 * k, 8⟩ (Tbl.at 0 t.homeMap (8 * g + k)).toNat) 0
    t.originate ⟨t.fc, 0, t.fc, 31, true, ⟨.req, OP_CFG_WR, 0, 0x7FF, 0, 0, false, 0, 0, BitVec.ofNat 48 (b + 8 * g), 0, w.setWidth 1152⟩, .router⟩) s

/-- READY (R379). -/
def Slice.becomeReady (s : Slice) : Slice :=
  let s := ((s.raise ID_STATUS ID_STATUS_READY).setStep 8).setReg NV_READY_TICK s.count
  let s := (s.setFld (PT_STATUS 0) PT_STATUS_STATE 2).raise (PT_CTRL 0) PT_CTRL_ACTIVE
  let s := { s with rxCred := (List.finRange 4).foldl (fun t p => Tbl.put 0 t (credKey p .req) 8) s.rxCred }
  let s := if s.start.reentry then s.bump NV_STATUS NV_STATUS_REENTRIES 1 else s
  let s := { s with start := { s.start with reentry := false } }
  let s := if s.boardOn then s.trainStart else s
  s.routerWrites

/-- A position opens its flue (R378, R380): one that comes after the roster is READY at once, and so is one that re-enters. -/
def Slice.openFlue (s : Slice) : Slice :=
  let early := !s.start.reentry && (!s.start.loaded || decide (s.count.toNat < s.countStart + 16))
  if s.step' != 6 || !s.start.aligned || early then s
  else
    let s := { s.setStep 7 with start := { s.start with flueOpen := true } }
    if s.start.reentry then s.checkMap.becomeReady
    else if s.start.rosterSeen then (s.raise NV_STATUS NV_STATUS_LATE_OPEN).becomeReady
    else s

/-- At COUNT_START + 32 the lead takes the roster (R378). -/
def Slice.rosterTake (s : Slice) : Slice :=
  if s.lead && s.step' = 7 && decide (s.countStart + 32 ≤ s.count.toNat) then s.sendRoster else s

/-- ROSTER at a position; back at the lead, ROSTER_SET follows with the result (R354). -/
def Slice.rosterIn (s : Slice) (mask : Word) : Slice :=
  if s.lead then s.ringPut ⟨RG_ROSTER_SET, RG_ALL, 0, flits2 (s.ringRoster mask)⟩ else s

/-- ROSTER_SET at an OPEN or LISTEN position; one in step 7 becomes READY (R354, R378). -/
def Slice.rosterStore (s : Slice) (mask : Word) : Slice :=
  if s.listens then
    let s := s.storeRoster mask
    if s.step' = 7 then s.becomeReady else s
  else s

/-! ### Slice reset (R365, R380, R400, R409) -/

/-- The registers of the ember domain, which slice reset does not touch; RG_CTRL and RG_BR_CFG are among them, since a lead forwards board
frames whatever its other rails (R356). (DEDUCED, log 44) -/
def emberRegs : List Nat :=
  [ID_SLICE, NV_STATUS, NV_IMAGE, NV_READY_TICK, NV_STEWARD, RG_CTRL, RG_STATUS, RG_ROSTER, RG_RETRY, RG_RING_LAT, RG_BR_CFG, RG_BR_LAT,
   RG_BR_OFFSET]

/-- What slice reset leaves: the ember domain. -/
def Slice.emberOnly (s : Slice) : Slice :=
  { Slice.reset with
    fc := s.fc, refs := s.refs, frac := s.frac, count := s.count, freqHi := s.freqHi, fresh := s.fresh,
    regs := emberRegs.foldl (fun t a => Tbl.put 0 t a (s.reg a)) resetRegs,
    ring := { s.ring with timed := s.ring.timed.filter (fun t => match t with
      | .countSet _ _ => true
      | .levels _ _ => false) },
    sent := s.sent, board := s.board, start := s.start, tap := s.tap,
    pins := { Pins.init with mgmt := s.pins.mgmt, mgmtGap := s.pins.mgmtGap, mgmtMore := s.pins.mgmtMore, mgmtCount := s.pins.mgmtCount,
                             telSync := s.pins.telSync, cfgDone := s.pins.cfgDone, cfgErr := s.pins.cfgErr } }

/-- SL_RSTN is asserted, or a rail's power-good falls: the position closes, and the slice loses everything outside its ember domain. A halted
steward starts again (R383), and PG_STATUS.BOOST still shows the frequency (R300). (DEDUCED, log 44) -/
def Slice.resetAssert (s : Slice) : Slice :=
  if s.start.aonReset || s.start.sliceReset then s
  else
    let again := s.start.reentry || s.ready
    let t := (s.emberOnly.clearF NV_STEWARD NV_STEWARD_HALT).setFld RG_CNT_ADJ RG_CNT_ADJ_ARMED (s.fld RG_CNT_ADJ RG_CNT_ADJ_ARMED)
    let t := t.setFld PG_STATUS PG_STATUS_BOOST (b2n s.freqHi)
    ({ t with start := { t.start with sliceReset := true, powered := false, aligned := false, reentry := again } }).setStep
      (if s.step' ≤ 1 || s.step' = 15 then s.step' else 2)

/-- SL_RSTN is released (R380): the strap is sampled, and the position listens until it opens its flue. (DEDUCED, log 44) -/
def Slice.resetRelease (s : Slice) (strap : BitVec 6) : Slice :=
  if s.start.aonReset || !s.start.sliceReset then s
  else ({ s with start := { s.start with sliceReset := false, flueOpen := false } }).sampleId strap

/-! ### The steward (R383, R384) -/

/-- The steward's heartbeat. (DESIGN CHOICE, log 54) -/
def Slice.heartbeat (s : Slice) : Slice :=
  if s.start.aonReset || s.flag NV_STEWARD NV_STEWARD_HALT then s
  else s.setFld NV_STEWARD NV_STEWARD_HEARTBEAT ((s.fld NV_STEWARD NV_STEWARD_HEARTBEAT + 1) % 2 ^ 32)

/-- An uncorrectable ROM or patch word halts the steward. (DESIGN CHOICE, log 54) -/
def Slice.stewardHalt (s : Slice) : Slice :=
  if s.start.aonReset || s.flag NV_STEWARD NV_STEWARD_HALT then s else (s.raise NV_STEWARD NV_STEWARD_HALT).raiseMgmt

end Sys2Proof.Machine
end

