-- ==== Sys2Proof/Machine/RingActs.lean ====
section
/-! DEFINITION. Packets of the control ring (spec 15_control_ring.md R344 to R355): each position takes what concerns it, and any but the lead passes the packet on. -/

namespace Sys2Proof.Machine

/-- The flits of a 256-bit value, low flit first (R347). -/
def flits8 (e : BitVec 256) : List (BitVec 32) := (List.range 8).map (fun k => BitVec.ofNat 32 (getF e ⟨32 * k, 32⟩))

/-- AGE_COLLECT at a position: its own entry replaces the payload (R323). -/
def Slice.ageCollect (s : Slice) (dst : Nat) (e : BitVec 256) : Slice :=
  let e2 := if s.isOpen && s.id = dst then s.ageNow else e
  s.ringTake ⟨RG_AGE_COLLECT, dst, 0, flits8 e2⟩ (fun u => if u.lead then u.recBack dst e else u)

/-- ACT_SUM at a position: its totals join the token (R305). -/
def Slice.actSum (s : Slice) (win : Nat) (l m h : Word) (clamped : Bool) : Slice :=
  let l2 := s.addTotal win K_LOGIC l
  let m2 := s.addTotal win K_SRAM m
  let h2 := s.addTotal win K_MEM h
  s.ringTake ⟨RG_ACT_SUM, RG_ALL, win, flits2 l2 ++ flits2 m2 ++ flits2 h2⟩ (fun u => if u.lead then u.sumBack win l2 m2 h2 clamped else u)

/-- ATTR_SUM at a position: the energy it attributed joins the token (R305). -/
def Slice.attrSum (s : Slice) (win : Nat) (e : Word) : Slice :=
  let e2 := s.addAttr e
  s.ringTake ⟨RG_ATTR_SUM, RG_ALL, win, flits2 e2⟩ (fun u => if u.lead then u.attrBack win e2 else u)

/-- KAPPA at a position; back at the lead, ATTR_SUM follows (R305). -/
def Slice.kappaIn (s : Slice) (win : Nat) (ks : BitVec 256) : Slice :=
  let s := if s.isOpen then s.takeKappa win ks else s
  if s.lead && s.gov.energy != [] && s.gov.energyWin % 2 ^ 15 = win then s.ringPut ⟨RG_ATTR_SUM, RG_ALL, win, flits2 0⟩ else s

/-- VOFF_MAX at a position: the larger offset goes on (R320). -/
def Slice.voffIn (s : Slice) (x : Nat) : Slice :=
  let y := s.voffPass x
  s.ringTake ⟨RG_VOFF_MAX, RG_ALL, 0, [BitVec.ofNat 32 y]⟩ (fun u => if u.lead then u.voffBack y else u)

/-- ROSTER at a position: its bit joins the mask (R354). -/
def Slice.rosterPass (s : Slice) (mask : Word) : Slice :=
  s.ringTake ⟨RG_ROSTER_PKT, RG_ALL, 0, flits2 (s.ringRoster mask)⟩ (fun u => u.rosterIn mask)

/-- A broadcast write (R353). -/
def execBcastWr (off : BitVec 16) (v : Word) (s : State) : Host.Outcome State Fault Refusal :=
  act (fun t => t.ringTake ⟨RG_BCAST_WR, RG_ALL, 0, BitVec.ofNat 32 off.toNat :: flits2 v⟩ (fun u => u.bcast off.toNat v)) s

/-- Image data (R374). -/
def execImgData (arg : BitVec 15) (bytes : List Byte) (s : State) : Host.Outcome State Fault Refusal :=
  act (fun t => t.ringTake ⟨RG_IMG_DATA, RG_ALL, arg.toNat, flitsOf bytes⟩ (fun u => u.imgData arg.toNat bytes)) s

/-- The ageing entry of a position (R351). -/
def execAgeEntry (dst : BitVec 7) (e : BitVec 256) (s : State) : Host.Outcome State Fault Refusal :=
  act (fun t => t.ringTake ⟨RG_AGE_ENTRY, dst.toNat, 0, flits8 e⟩ (fun u => u.ageEntryIn dst.toNat e)) s

/-- The current ageing entry of a position is collected (R351). -/
def execAgeCollect (dst : BitVec 7) (e : BitVec 256) (s : State) : Host.Outcome State Fault Refusal :=
  act (fun t => t.ageCollect dst.toNat e) s

/-- The count becomes v at count a (R355). -/
def execCountSet (a : Word) (v : Word) (s : State) : Host.Outcome State Fault Refusal :=
  act (fun t => t.ringTake ⟨RG_COUNT_SET, RG_ALL, 0, flits2 a ++ flits2 v⟩ (fun u => if u.listens then u.ringTimed a (.countSet a v) else u)) s

/-- The activity-sum token (R305). -/
def execActSum (win : TokenWindow) (l m h : Word) (s : State) : Host.Outcome State Fault Refusal :=
  act (fun t => t.actSum win.win.toNat l m h win.clamped) s

/-- The attributed-energy token (R305). -/
def execAttrSum (win : BitVec 15) (e : Word) (s : State) : Host.Outcome State Fault Refusal :=
  act (fun t => t.attrSum win.toNat e) s

/-- The energy coefficients (R305). -/
def execKappa (win : BitVec 15) (ks : BitVec 256) (s : State) : Host.Outcome State Fault Refusal :=
  act (fun t => t.ringTake ⟨RG_KAPPA, RG_ALL, win.toNat, flits8 ks⟩ (fun u => u.kappaIn win.toNat ks)) s

/-- The token of the largest voltage offset (R320). -/
def execVoffMax (x : BitVec 4) (s : State) : Host.Outcome State Fault Refusal :=
  act (fun t => t.voffIn x.toNat) s

/-- The passing roster (R354). -/
def execRoster (mask : Word) (s : State) : Host.Outcome State Fault Refusal :=
  act (fun t => t.rosterPass mask) s

/-- The roster is stored (R354). -/
def execRosterSet (mask : Word) (s : State) : Host.Outcome State Fault Refusal :=
  act (fun t => t.ringTake ⟨RG_ROSTER_SET, RG_ALL, 0, flits2 mask⟩ (fun u => u.rosterStore mask)) s

/-- The ring mode changes (R350). -/
def execMode (awake : Bool) (s : State) : Host.Outcome State Fault Refusal :=
  act (fun t => t.ringTake ⟨RG_MODE, RG_ALL, 0, [BitVec.ofNat 32 (b2n awake)]⟩ (fun u => u.ringMode awake)) s

/-- A PING (R351). -/
def execPing (s : State) : Host.Outcome State Fault Refusal :=
  act (fun t => t.ringTake ⟨RG_PING, RG_ALL, 0, []⟩ (fun u => u.ringPing)) s

/-- A flit fails its parity (R349). -/
def execRingParityError (s : State) : Host.Outcome State Fault Refusal :=
  act (fun t => t.ringParity) s

/-- The downstream position returns a credit (R348). -/
def execRingCredit (s : State) : Host.Outcome State Fault Refusal :=
  act (fun t => t.ringCredit) s

end Sys2Proof.Machine
end

