-- ==== Sys2Proof/Machine/StartActs.lean ====
section
/-! DEFINITION. Start-up, resets and flash commands (spec 16_startup_image.md). -/

namespace Sys2Proof.Machine

/-- An alignment count (R237). (DESIGN CHOICE, log 26) -/
def execCrossingAlignment (lat : BitVec 32) (s : State) : Host.Outcome State Fault Refusal :=
  act (fun t => t.alignAll lat) s

/-- A marker gap at an aligned crossing (R237). -/
def execXingMarkerGap (p : Crossing) (s : State) : Host.Outcome State Fault Refusal :=
  act (fun t => t.markerGap p.port p.out) s

/-- SL_AON_RSTN is released (R364). -/
def execAonResetRelease (strap : BitVec 6) (s : State) : Host.Outcome State Fault Refusal :=
  act (fun t => t.aonRelease strap) s

/-- The NVM wait ends (R368). (DESIGN CHOICE, log 26) -/
def execNvmWaitExpiry (sfdp quad : Bool) (hdrA hdrB : BitVec 256) (s : State) : Host.Outcome State Fault Refusal :=
  act (fun t => t.nvmWait sfdp quad hdrA hdrB) s

/-- The lead has streamed a bank (R374). (DESIGN CHOICE, log 26) -/
def execImageStreamDone (bank : List Byte) (age0 age1 : List Byte) (s : State) : Host.Outcome State Fault Refusal :=
  act (fun t => t.imageDone bank age0 age1) s

/-- The rails, FCLK and slice reset are there (R364). -/
def execPowerPresent (ce : BitVec 16) (bad : Bool) (s : State) : Host.Outcome State Fault Refusal :=
  act (fun t => t.powerPresent ce.toNat bad) s

/-- The kindling fill and register load end (R329). (DESIGN CHOICE, log 26) -/
def execKindlingFillDone (defects : List (BitVec 3 × BitVec 18 × BitVec 5 × BitVec 72)) (ce : BitVec 16) (bad : Bool) (s : State) : Host.Outcome State Fault Refusal :=
  act (fun t => t.kindlingDone defects ce.toNat bad) s

/-- The lead loads the count (R378). -/
def execCountLoad (s : State) : Host.Outcome State Fault Refusal :=
  act (fun t => t.countLoad) s

/-- The position opens its flue (R378). -/
def execFlueOpen (s : State) : Host.Outcome State Fault Refusal :=
  act (fun t => t.openFlue) s

/-- The lead takes the roster (R378). -/
def execRosterTake (s : State) : Host.Outcome State Fault Refusal :=
  act (fun t => t.rosterTake) s

/-- Slice reset is asserted (R380). -/
def execSliceResetAssert (s : State) : Host.Outcome State Fault Refusal :=
  act (fun t => t.resetAssert) s

/-- Slice reset is released (R380). -/
def execSliceResetRelease (strap : BitVec 6) (s : State) : Host.Outcome State Fault Refusal :=
  act (fun t => t.resetRelease strap) s

/-- A flash command ends (R381). -/
def execNvCmdDone (r : FlashEnd) (data : List Byte) (s : State) : Host.Outcome State Fault Refusal :=
  act (fun t => t.nvDone r data) s

/-- The steward advances its heartbeat (R384). -/
def execHeartbeat (s : State) : Host.Outcome State Fault Refusal :=
  act (fun t => t.heartbeat) s

/-- The steward halts (R383). -/
def execStewardHalt (s : State) : Host.Outcome State Fault Refusal :=
  act (fun t => t.stewardHalt) s

/-- SL_AON_RSTN is asserted (R409). -/
def execAonResetAssert (s : State) : Host.Outcome State Fault Refusal :=
  act (fun t => t.aonAssert) s

end Sys2Proof.Machine
end

