-- ==== Sys2Proof/Machine/TestPort.lean ====
section
/-! DEFINITION. The test port (spec 17_counters_debug.md R394 to R396, 18_ports_signals.md R401, R412). -/

namespace Sys2Proof.Machine

abbrev IR_IDCODE : BitVec 4 := 1
abbrev IR_REGACC : BitVec 4 := 8
abbrev IR_STATUS : BitVec 4 := 9
abbrev IR_BYPASS : BitVec 4 := 0xF

abbrev TR_WRITE : Fld := ⟨0, 1⟩
abbrev TR_OFFSET : Fld := ⟨1, 13⟩
abbrev TR_RES : Fld := ⟨14, 2⟩
abbrev TR_DATA : Fld := ⟨16, 64⟩

/-- The TAP answers: it is out of ember reset. -/
def Slice.tapOn (s : Slice) : Bool := !s.start.aonReset

/-- An instruction is selected, and its data register captured; SL_FUSE_OFF makes every instruction BYPASS (R401). -/
def Slice.tapSelect (s : Slice) (ir : BitVec 4) (dr : BitVec 80) : Slice :=
  if !s.tapOn then s
  else if s.start.fuseOff then { s with tap := { s.tap with ir := ir, dr := 0 } }
  else { s with tap := { s.tap with ir := ir, dr := dr } }

/-- The IDCODE (R394). -/
abbrev idcode : BitVec 32 := 0x30D752BB

/-- The STATUS register (R394). -/
def Slice.tapStatus (s : Slice) : BitVec 32 :=
  setF (setF (setF (setF (setF (0 : BitVec 32) ⟨0, 4⟩ s.step') ⟨4, 1⟩ (b2n s.ready)) ⟨5, 1⟩ (s.fld NV_STEWARD NV_STEWARD_HALT))
    ⟨6, 1⟩ (s.fld TD_CTRL TD_CTRL_TAP_LOCK)) ⟨7, 1⟩ (s.fld NV_STATUS NV_STATUS_NO_IMAGE)

/-- The REGACC register as Capture-DR loads it: WRITE and OFFSET, RES and DATA (R395). -/
def regaccDr (write : Bool) (off : BitVec 13) (res : Nat) (data : Word) : BitVec 80 :=
  setF (setF (setF (setF (0 : BitVec 80) TR_WRITE (b2n write)) TR_OFFSET off.toNat) TR_RES res) TR_DATA data.toNat

/-- An access has ended with a result and the data a read brings. -/
def Slice.tapEnd (s : Slice) (write : Bool) (off : BitVec 13) (res : Nat) (data : Word) : Slice :=
  { s with tap := ⟨IR_REGACC, res, data, regaccDr write off res data⟩ }

/-- The register is reachable (R395). -/
def Slice.tapReach (s : Slice) (off : Nat) : Bool :=
  s.ready || off = ID_REV || off = ID_SLICE || (decide (0x6800 ≤ off) && decide (off < 0x7800))

/-- REGACC (R395, R396): an access under the rights of host software in PID 0, through the steward input of the register arbiter. -/
def Slice.tapAccess (s : Slice) (write : Bool) (off : BitVec 13) (data : Word) : Slice :=
  let o := off.toNat * 8
  if !s.tapOn then s
  else if s.start.fuseOff then s.tapSelect IR_REGACC 0
  else if s.flag TD_CTRL TD_CTRL_TAP_LOCK then s.tapEnd write off 2 (if write then data else 0)
  else if !(s.tapReach o) then
    ({ s with fresh := s.fresh + 1 }).tapEnd write off 3 (if write then data else Config.tapOpen s.fresh)
  else
    let s := { s.takeReg with regPtr := nextPtr 4 }
    if write then ((s.tevt TV_MAINT).writeReg 0 o data false).tapEnd write off 0 data
    else
      let (t, v) := (s.tevt TV_MAINT).readReg 0 o
      t.tapEnd write off 0 v

/-- Test-Logic-Reset: IDCODE is selected, and no access has been started (R394, R412). -/
def Slice.tapReset (s : Slice) : Slice := if s.tapOn then { s with tap := ⟨IR_IDCODE, 0, 0, idcode.setWidth 80⟩ } else s

end Sys2Proof.Machine
end

