-- ==== Sys2Proof/Machine/TapActs.lean ====
section
/-! DEFINITION. The test port (spec 17_counters_debug.md R394 to R396). -/

namespace Sys2Proof.Machine

/-- IDCODE (R394). -/
def execIdcode (s : State) : Host.Outcome State Fault Refusal :=
  act (fun t => t.tapSelect IR_IDCODE (idcode.setWidth 80)) s

/-- A register access (R395). -/
def execRegacc (write : Bool) (off : BitVec 13) (data : Word) (s : State) : Host.Outcome State Fault Refusal :=
  act (fun t => t.tapAccess write off data) s

/-- STATUS (R394). -/
def execStatus (s : State) : Host.Outcome State Fault Refusal :=
  act (fun t => t.tapSelect IR_STATUS (t.tapStatus.setWidth 80)) s

/-- BYPASS: the register holds the bit shifted in (R394). -/
def execBypass (tdi : Bool) (s : State) : Host.Outcome State Fault Refusal :=
  act (fun t => t.tapSelect IR_BYPASS (BitVec.ofNat 80 (b2n tdi))) s

/-- The TAP goes to Test-Logic-Reset (R412). -/
def execTapReset (s : State) : Host.Outcome State Fault Refusal :=
  act (fun t => t.tapReset) s

end Sys2Proof.Machine
end

