-- ==== Sys2Proof/Machine/Dispatch.lean ====
section
/-! DEFINITION. The meaning of every command: one arm per row of the table of operations and events. -/

namespace Sys2Proof.Machine

def exec (i : Instr) (s : State) : Host.Outcome State Fault Refusal :=
  match i with
  | .rdS a => Sys2Proof.Machine.execRdS a s
  | .rdX a => Sys2Proof.Machine.execRdX a s
  | .upg a => Sys2Proof.Machine.execUpg a s
  | .rdNc a => Sys2Proof.Machine.execRdNc a s
  | .wrNc a => Sys2Proof.Machine.execWrNc a s
  | .wb a => Sys2Proof.Machine.execWb a s
  | .stash a => Sys2Proof.Machine.execStash a s
  | .cfgRd a full => Sys2Proof.Machine.execCfgRd a full s
  | .cfgWr a full => Sys2Proof.Machine.execCfgWr a full s
  | .zeroLine a => Sys2Proof.Machine.execZeroLine a s
  | .cleanLine a => Sys2Proof.Machine.execCleanLine a s
  | .flushLine a => Sys2Proof.Machine.execFlushLine a s
  | .invalLine a => Sys2Proof.Machine.execInvalLine a s
  | .pinRd a => Sys2Proof.Machine.execPinRd a s
  | .pinWr a => Sys2Proof.Machine.execPinWr a s
  | .pinFill a => Sys2Proof.Machine.execPinFill a s
  | .pinCopy a => Sys2Proof.Machine.execPinCopy a s
  | .pinDrop a => Sys2Proof.Machine.execPinDrop a s
  | .pinStep half bank => Sys2Proof.Machine.execPinStep half bank s
  | .pinFanout a => Sys2Proof.Machine.execPinFanout a s
  | .fanoutWindowExpiry k => Sys2Proof.Machine.execFanoutWindowExpiry k s
  | .foData k => Sys2Proof.Machine.execFoData k s
  | .foCredit a => Sys2Proof.Machine.execFoCredit a s
  | .accAdd a => Sys2Proof.Machine.execAccAdd a s
  | .accAddS a => Sys2Proof.Machine.execAccAddS a s
  | .accMerge a => Sys2Proof.Machine.execAccMerge a s
  | .accFin a => Sys2Proof.Machine.execAccFin a s
  | .accFinFuse a => Sys2Proof.Machine.execAccFinFuse a s
  | .expmax a => Sys2Proof.Machine.execExpmax a s
  | .accAnchor a => Sys2Proof.Machine.execAccAnchor a s
  | .lineOp a => Sys2Proof.Machine.execLineOp a s
  | .fetchOp a => Sys2Proof.Machine.execFetchOp a s
  | .swap a => Sys2Proof.Machine.execSwap a s
  | .cas a => Sys2Proof.Machine.execCas a s
  | .syInit a => Sys2Proof.Machine.execSyInit a s
  | .syAdd a => Sys2Proof.Machine.execSyAdd a s
  | .syAcq a => Sys2Proof.Machine.execSyAcq a s
  | .syArrive a => Sys2Proof.Machine.execSyArrive a s
  | .syWait a => Sys2Proof.Machine.execSyWait a s
  | .syRead a => Sys2Proof.Machine.execSyRead a s
  | .syncReleaseSend => Sys2Proof.Machine.execSyncReleaseSend s
  | .barrierDrainEnd t => Sys2Proof.Machine.execBarrierDrainEnd t s
  | .undefinedReq op a => Sys2Proof.Machine.execUndefinedReq op a s
  | .memData a => Sys2Proof.Machine.execMemData a s
  | .memAck a => Sys2Proof.Machine.execMemAck a s
  | .compAck a => Sys2Proof.Machine.execCompAck a s
  | .fwdAck a => Sys2Proof.Machine.execFwdAck a s
  | .snpData a => Sys2Proof.Machine.execSnpData a s
  | .invAck a => Sys2Proof.Machine.execInvAck a s
  | .nackGone a => Sys2Proof.Machine.execNackGone a s
  | .pushAck a => Sys2Proof.Machine.execPushAck a s
  | .pushDecline a => Sys2Proof.Machine.execPushDecline a s
  | .comp a => Sys2Proof.Machine.execComp a s
  | .unmatched c op a => Sys2Proof.Machine.execUnmatched c op a s
  | .misrouted c op a => Sys2Proof.Machine.execMisrouted c op a s
  | .holdQueueReplay half bank => Sys2Proof.Machine.execHoldQueueReplay half bank s
  | .continuationGrant half bank => Sys2Proof.Machine.execContinuationGrant half bank s
  | .recallReinstate e => Sys2Proof.Machine.execRecallReinstate e s
  | .victimDeparture => Sys2Proof.Machine.execVictimDeparture s
  | .victimEntryFree e => Sys2Proof.Machine.execVictimEntryFree e s
  | .ptActivate p n v => Sys2Proof.Machine.execPtActivate p n v s
  | .activationDone p => Sys2Proof.Machine.execActivationDone p s
  | .ptRelease p n v => Sys2Proof.Machine.execPtRelease p n v s
  | .ptSeal p n v => Sys2Proof.Machine.execPtSeal p n v s
  | .sweepRecall p => Sys2Proof.Machine.execSweepRecall p s
  | .sweepZero p => Sys2Proof.Machine.execSweepZero p s
  | .sweepDone p => Sys2Proof.Machine.execSweepDone p s
  | .rmLoWrite k n v => Sys2Proof.Machine.execRmLoWrite k n v s
  | .rmHiWrite k n v => Sys2Proof.Machine.execRmHiWrite k n v s
  | .idHmDataWrite n v => Sys2Proof.Machine.execIdHmDataWrite n v s
  | .maintClean n v => Sys2Proof.Machine.execMaintClean n v s
  | .maintFlush n v => Sys2Proof.Machine.execMaintFlush n v s
  | .maintInval n v => Sys2Proof.Machine.execMaintInval n v s
  | .maintWalkDone => Sys2Proof.Machine.execMaintWalkDone s
  | .foAbort k n v => Sys2Proof.Machine.execFoAbort k n v s
  | .foCreditInitWrite n v => Sys2Proof.Machine.execFoCreditInitWrite n v s
  | .foCredValWrite n v => Sys2Proof.Machine.execFoCredValWrite n v s
  | .axCfgWrite d n v => Sys2Proof.Machine.execAxCfgWrite d n v s
  | .axRangeWrite d limit n v => Sys2Proof.Machine.execAxRangeWrite d limit n v s
  | .axStatusSatClear d n v => Sys2Proof.Machine.execAxStatusSatClear d n v s
  | .dbgRead n v => Sys2Proof.Machine.execDbgRead n v s
  | .setValue n v => Sys2Proof.Machine.execSetValue n v s
  | .releaseAll n v => Sys2Proof.Machine.execReleaseAll n v s
  | .sySave n v => Sys2Proof.Machine.execSySave n v s
  | .syRestore n v => Sys2Proof.Machine.execSyRestore n v s
  | .dgLaunchArm n v => Sys2Proof.Machine.execDgLaunchArm n v s
  | .dgLaunchCancel n v => Sys2Proof.Machine.execDgLaunchCancel n v s
  | .launch => Sys2Proof.Machine.execLaunch s
  | .captureWalkDone => Sys2Proof.Machine.execCaptureWalkDone s
  | .dgLaneWrite p j n v => Sys2Proof.Machine.execDgLaneWrite p j n v s
  | .epArm p n v => Sys2Proof.Machine.execEpArm p n v s
  | .epCancel p n v => Sys2Proof.Machine.execEpCancel p n v s
  | .epochClose p => Sys2Proof.Machine.execEpochClose p s
  | .closeRecallDone p => Sys2Proof.Machine.execCloseRecallDone p s
  | .drainWrite => Sys2Proof.Machine.execDrainWrite s
  | .epHarvestRelease p n v => Sys2Proof.Machine.execEpHarvestRelease p n v s
  | .epHarvestAbort p n v => Sys2Proof.Machine.execEpHarvestAbort p n v s
  | .harvestDone p => Sys2Proof.Machine.execHarvestDone p s
  | .shelfWaysWrite n v => Sys2Proof.Machine.execShelfWaysWrite n v s
  | .shelfPassDone => Sys2Proof.Machine.execShelfPassDone s
  | .bwMinWrite k n v => Sys2Proof.Machine.execBwMinWrite k n v s
  | .regWindowStart => Sys2Proof.Machine.execRegWindowStart s
  | .telSync => Sys2Proof.Machine.execTelSync s
  | .telemetryFrame bytes => Sys2Proof.Machine.execTelemetryFrame bytes s
  | .missedWindow => Sys2Proof.Machine.execMissedWindow s
  | .levels levels c => Sys2Proof.Machine.execLevels levels c s
  | .damperWriteSend => Sys2Proof.Machine.execDamperWriteSend s
  | .droopTrip => Sys2Proof.Machine.execDroopTrip s
  | .droopClampEnd => Sys2Proof.Machine.execDroopClampEnd s
  | .pgPhaseHintWrite n v => Sys2Proof.Machine.execPgPhaseHintWrite n v s
  | .pgActReportWrite n v => Sys2Proof.Machine.execPgActReportWrite n v s
  | .groupBoundary g => Sys2Proof.Machine.execGroupBoundary g s
  | .proposalDeadline g => Sys2Proof.Machine.execProposalDeadline g s
  | .groupApply g => Sys2Proof.Machine.execGroupApply g s
  | .freqChange hi => Sys2Proof.Machine.execFreqChange hi s
  | .halfRetentionCommit half => Sys2Proof.Machine.execHalfRetentionCommit half s
  | .halfStateReached half => Sys2Proof.Machine.execHalfStateReached half s
  | .halfOffStart half => Sys2Proof.Machine.execHalfOffStart half s
  | .halfFlushDone half => Sys2Proof.Machine.execHalfFlushDone half s
  | .halfWake half => Sys2Proof.Machine.execHalfWake half s
  | .halfWakeDone half => Sys2Proof.Machine.execHalfWakeDone half s
  | .measSetStart => Sys2Proof.Machine.execMeasSetStart s
  | .measSetEnd counts => Sys2Proof.Machine.execMeasSetEnd counts s
  | .assistPause half => Sys2Proof.Machine.execAssistPause half s
  | .pohSecond => Sys2Proof.Machine.execPohSecond s
  | .agRecWrite n v => Sys2Proof.Machine.execAgRecWrite n v s
  | .ageingRecordDone r => Sys2Proof.Machine.execAgeingRecordDone r s
  | .repairGrant half => Sys2Proof.Machine.execRepairGrant half s
  | .quarantineWork => Sys2Proof.Machine.execQuarantineWork s
  | .patrolStep => Sys2Proof.Machine.execPatrolStep s
  | .patrolDeferredStep half => Sys2Proof.Machine.execPatrolDeferredStep half s
  | .bucketLeak => Sys2Proof.Machine.execBucketLeak s
  | .ecFlipArm n v => Sys2Proof.Machine.execEcFlipArm n v s
  | .ecSpareWrite n v => Sys2Proof.Machine.execEcSpareWrite n v s
  | .spareCopyDone => Sys2Proof.Machine.execSpareCopyDone s
  | .ecRtWrite k n v => Sys2Proof.Machine.execEcRtWrite k n v s
  | .bcastWr off v => Sys2Proof.Machine.execBcastWr off v s
  | .imgData arg bytes => Sys2Proof.Machine.execImgData arg bytes s
  | .ageEntry dst e => Sys2Proof.Machine.execAgeEntry dst e s
  | .ageCollect dst e => Sys2Proof.Machine.execAgeCollect dst e s
  | .countSet a v => Sys2Proof.Machine.execCountSet a v s
  | .actSum win l m h => Sys2Proof.Machine.execActSum win l m h s
  | .attrSum win e => Sys2Proof.Machine.execAttrSum win e s
  | .kappa win ks => Sys2Proof.Machine.execKappa win ks s
  | .voffMax x => Sys2Proof.Machine.execVoffMax x s
  | .roster mask => Sys2Proof.Machine.execRoster mask s
  | .rosterSet mask => Sys2Proof.Machine.execRosterSet mask s
  | .mode awake => Sys2Proof.Machine.execMode awake s
  | .ping => Sys2Proof.Machine.execPing s
  | .ringParityError => Sys2Proof.Machine.execRingParityError s
  | .rgRosterCmd n v => Sys2Proof.Machine.execRgRosterCmd n v s
  | .rgEmber n v => Sys2Proof.Machine.execRgEmber n v s
  | .brTrain n v => Sys2Proof.Machine.execBrTrain n v s
  | .trainingTimeout => Sys2Proof.Machine.execTrainingTimeout s
  | .boardCount origin seq value acc phi => Sys2Proof.Machine.execBoardCount origin seq value acc phi s
  | .boardProp origin seq pid level clamp b => Sys2Proof.Machine.execBoardProp origin seq pid level clamp b s
  | .boardPing origin seq visited => Sys2Proof.Machine.execBoardPing origin seq visited s
  | .boardAck seq => Sys2Proof.Machine.execBoardAck seq s
  | .boardNak seq => Sys2Proof.Machine.execBoardNak seq s
  | .echo returned roundTrip => Sys2Proof.Machine.execEcho returned roundTrip s
  | .lat x => Sys2Proof.Machine.execLat x s
  | .rgCntAdjGo n v => Sys2Proof.Machine.execRgCntAdjGo n v s
  | .crossingAlignment lat => Sys2Proof.Machine.execCrossingAlignment lat s
  | .xingMarkerGap p => Sys2Proof.Machine.execXingMarkerGap p s
  | .aonResetRelease strap => Sys2Proof.Machine.execAonResetRelease strap s
  | .nvmWaitExpiry sfdp quad hdrA hdrB => Sys2Proof.Machine.execNvmWaitExpiry sfdp quad hdrA hdrB s
  | .imageStreamDone bank age0 age1 => Sys2Proof.Machine.execImageStreamDone bank age0 age1 s
  | .powerPresent ce bad => Sys2Proof.Machine.execPowerPresent ce bad s
  | .kindlingFillDone defects ce bad => Sys2Proof.Machine.execKindlingFillDone defects ce bad s
  | .countLoad => Sys2Proof.Machine.execCountLoad s
  | .flueOpen => Sys2Proof.Machine.execFlueOpen s
  | .rosterTake => Sys2Proof.Machine.execRosterTake s
  | .sliceResetAssert => Sys2Proof.Machine.execSliceResetAssert s
  | .sliceResetRelease strap => Sys2Proof.Machine.execSliceResetRelease strap s
  | .nvRead n v => Sys2Proof.Machine.execNvRead n v s
  | .nvProgram n v => Sys2Proof.Machine.execNvProgram n v s
  | .nvErase4k n v => Sys2Proof.Machine.execNvErase4k n v s
  | .nvCmdDone r data => Sys2Proof.Machine.execNvCmdDone r data s
  | .heartbeat => Sys2Proof.Machine.execHeartbeat s
  | .stewardHalt => Sys2Proof.Machine.execStewardHalt s
  | .pcCfgWrite k n v => Sys2Proof.Machine.execPcCfgWrite k n v s
  | .pcValWrite k n v => Sys2Proof.Machine.execPcValWrite k n v s
  | .tdArrStart n v => Sys2Proof.Machine.execTdArrStart n v s
  | .tapLock n v => Sys2Proof.Machine.execTapLock n v s
  | .idcode => Sys2Proof.Machine.execIdcode s
  | .regacc write off data => Sys2Proof.Machine.execRegacc write off data s
  | .status => Sys2Proof.Machine.execStatus s
  | .bypass tdi => Sys2Proof.Machine.execBypass tdi s
  | .tapReset => Sys2Proof.Machine.execTapReset s
  | .idMisrouteCntClear n v => Sys2Proof.Machine.execIdMisrouteCntClear n v s
  | .ptDenyCntClear p n v => Sys2Proof.Machine.execPtDenyCntClear p n v s
  | .czDropCntClear n v => Sys2Proof.Machine.execCzDropCntClear n v s
  | .czConflictCntClear n v => Sys2Proof.Machine.execCzConflictCntClear n v s
  | .czFoViolClear n v => Sys2Proof.Machine.execCzFoViolClear n v s
  | .czDeadCntClear p n v => Sys2Proof.Machine.execCzDeadCntClear p n v s
  | .coHqPeakClear n v => Sys2Proof.Machine.execCoHqPeakClear n v s
  | .coNackCntClear n v => Sys2Proof.Machine.execCoNackCntClear n v s
  | .coPushCntClear n v => Sys2Proof.Machine.execCoPushCntClear n v s
  | .coViolCntClear n v => Sys2Proof.Machine.execCoViolCntClear n v s
  | .axViolCntClear n v => Sys2Proof.Machine.execAxViolCntClear n v s
  | .syLopViolCntClear n v => Sys2Proof.Machine.execSyLopViolCntClear n v s
  | .syOdcClear p n v => Sys2Proof.Machine.execSyOdcClear p n v s
  | .sySviolCntClear n v => Sys2Proof.Machine.execSySviolCntClear n v s
  | .syPcntClear p n v => Sys2Proof.Machine.execSyPcntClear p n v s
  | .dgTevtCntClear n v => Sys2Proof.Machine.execDgTevtCntClear n v s
  | .epPcntClear p n v => Sys2Proof.Machine.execEpPcntClear p n v s
  | .bwShortClear n v => Sys2Proof.Machine.execBwShortClear n v s
  | .bwEgrCntClear c n v => Sys2Proof.Machine.execBwEgrCntClear c n v s
  | .bwFillCntClear c n v => Sys2Proof.Machine.execBwFillCntClear c n v s
  | .pgTelCntClear n v => Sys2Proof.Machine.execPgTelCntClear n v s
  | .pgGstatClear g n v => Sys2Proof.Machine.execPgGstatClear g n v s
  | .pgEnergyClear unattr p n v => Sys2Proof.Machine.execPgEnergyClear unattr p n v s
  | .agWakeCntClear n v => Sys2Proof.Machine.execAgWakeCntClear n v s
  | .ecCntClear n v => Sys2Proof.Machine.execEcCntClear n v s
  | .ecRepairClear n v => Sys2Proof.Machine.execEcRepairClear n v s
  | .ecBankCntClear k n v => Sys2Proof.Machine.execEcBankCntClear k n v s
  | .rgRetryClear n v => Sys2Proof.Machine.execRgRetryClear n v s
  | .registerWrite n off v => Sys2Proof.Machine.execRegisterWrite n off v s
  | .aonResetAssert => Sys2Proof.Machine.execAonResetAssert s
  | .meshEgressCredit p c => Sys2Proof.Machine.execMeshEgressCredit p c s
  | .ringCredit => Sys2Proof.Machine.execRingCredit s
  | .boardFrameBad crcBad seq => Sys2Proof.Machine.execBoardFrameBad crcBad seq s
  | .damperPeriodStart => Sys2Proof.Machine.execDamperPeriodStart s
  | .timeBaseWalkEnd => Sys2Proof.Machine.execTimeBaseWalkEnd s
  | .data a => Sys2Proof.Machine.execData a s
  | .slIrqMgmtPulse => Sys2Proof.Machine.execSlIrqMgmtPulse s

end Sys2Proof.Machine
end

