-- ==== Sys2Proof/Machine/Step.lean ====
section
/-! DEFINITION. One step of the block: the command at the front of the queue has its effect; on an empty queue one fast-clock cycle passes. -/

namespace Sys2Proof.Machine

/-- The block with no command waiting: one fast-clock cycle. (DESIGN CHOICE, log 4) -/
def idle (s : State) : State := { s with slice := s.slice.tick.settle }

/-- One step. (DESIGN CHOICE, log 4) -/
def step (s : State) : Host.Outcome State Fault Refusal :=
  match s.pending with
  | [] => .next (idle s)
  | c :: rest => exec c { s with pending := rest }

/-- s with the command that a word spells at the front of its queue; the table gives no row any bits, so no word spells one. (DEDUCED, log 50) -/
def State.withFetchWord (s : State) (nbits w : Nat) : State :=
  match decodeTableWord nbits w with
  | some c => { s with pending := c :: s.pending }
  | none => s

end Sys2Proof.Machine
end

