-- ==== Sys2Proof/WellFormed.lean ====
section
/-! DEFINITION. What the surroundings may send: the payload length of every opcode (spec 03_cache.md R84, 04_pinned_buffer.md R97,
05_coherence_home.md R128, 06_exact_accumulation.md R158, 07_line_operations.md R178, 08_sync_objects.md R198), line-aligned coherence
requests (R128), defined and undefined opcodes (R39), the eight-byte steps of the register window (R11), and the lengths of byte strings
(12_power_governor.md R286, 16_startup_image.md R374, R381). The meanings do not rest on these checks: they act on every command. -/

namespace Sys2Proof

/-- The bytes of payload that a request of an opcode carries. -/
def reqBytes (op : Nat) : Nat :=
  if op = 0x04 || op = 0x06 then 144
  else if op = 0x05 || op = 0x10 || op = 0x12 || op = 0x14 || op = 0x15 || op = 0x18 || op = 0x29 then 128
  else if op = 0x11 then 64
  else if (0x19 ≤ op && op ≤ 0x1B) || (0x20 ≤ op && op ≤ 0x24) || op = 0x2A then 16
  else if op = 0x2B || op = 0x3B then 8
  else 0

/-- The bytes of payload of a data message of an opcode. -/
def datBytes (op : Nat) : Nat :=
  if op = 0x18 || op = 0x3A then 8
  else if op = 0x20 || op = 0x21 then 16
  else 128

/-- The bytes of payload of a message of a class and opcode. -/
def payBytes (c : Cls) (op : Nat) : Nat :=
  match c with
  | .req => reqBytes op
  | .fwd => if op = 5 then 128 else 0
  | .rsp => 0
  | .dat => datBytes op

/-- A message whose payload fits its opcode. -/
def Arr.fits (a : Arr) (c : Cls) (op : Nat) : Bool := decide (a.pl.toNat < 2 ^ (8 * payBytes c op))

/-- A coherence request: its payload fits and its address is that of a line. -/
def Arr.lineReq (a : Arr) (op : Nat) : Bool := a.fits .req op && decide (a.addr.toNat % 128 = 0)

/-- A REQ opcode that R39 leaves undefined. -/
def undefinedOp (n : Nat) : Bool :=
  n = 0x07 || (0x08 ≤ n && n ≤ 0x0F) || n = 0x17 || (0x1C ≤ n && n ≤ 0x1F) || n = 0x26 || n = 0x27 || n = 0x2E || n = 0x2F
    || (0x34 ≤ n && n ≤ 0x39) || (0x3C ≤ n && n ≤ 0x3F)

/-- The command is one that the surroundings can give. -/
def Instr.wf : Instr → Bool
  | .rdS a => a.lineReq 0x00
  | .rdX a => a.lineReq 0x01
  | .upg a => a.lineReq 0x02
  | .rdNc a => a.lineReq 0x03
  | .wrNc a => a.lineReq 0x04
  | .wb a => a.lineReq 0x05
  | .stash a => a.lineReq 0x06
  | .accAdd a => a.fits .req 0x10
  | .accAddS a => a.fits .req 0x11
  | .accMerge a => a.fits .req 0x12
  | .accFin a => a.fits .req 0x13
  | .accFinFuse a => a.fits .req 0x14
  | .expmax a => a.fits .req 0x15
  | .accAnchor a => a.fits .req 0x16
  | .lineOp a => a.fits .req 0x18
  | .fetchOp a => a.fits .req 0x19
  | .swap a => a.fits .req 0x1A
  | .cas a => a.fits .req 0x1B
  | .syInit a => a.fits .req 0x20
  | .syAdd a => a.fits .req 0x21
  | .syAcq a => a.fits .req 0x22
  | .syArrive a => a.fits .req 0x23
  | .syWait a => a.fits .req 0x24
  | .syRead a => a.fits .req 0x25
  | .pinRd a => a.fits .req 0x28
  | .pinWr a => a.fits .req 0x29
  | .pinFill a => a.fits .req 0x2A
  | .pinCopy a => a.fits .req 0x2B
  | .pinDrop a => a.fits .req 0x2C
  | .pinFanout a => a.fits .req 0x2D
  | .zeroLine a => a.fits .req 0x30
  | .cleanLine a => a.fits .req 0x31
  | .flushLine a => a.fits .req 0x32
  | .invalLine a => a.fits .req 0x33
  | .cfgRd a _ => a.fits .req 0x3A
  | .cfgWr a _ => a.fits .req 0x3B
  | .undefinedReq op _ => undefinedOp op.toNat
  | .comp a => a.fits .rsp 0x00
  | .compAck a => a.fits .rsp 0x01
  | .fwdAck a => a.fits .rsp 0x02
  | .invAck a => a.fits .rsp 0x03
  | .nackGone a => a.fits .rsp 0x04
  | .pushAck a => a.fits .rsp 0x05
  | .pushDecline a => a.fits .rsp 0x06
  | .foCredit a => a.fits .rsp 0x29
  | .memAck a => a.fits .rsp 0x3C
  | .data a => a.fits .dat 0x00
  | .snpData a => a.fits .dat 0x01
  | .memData a => a.fits .dat 0x3C
  | .unmatched c op a => decide (c ≠ .req) && a.fits c op.toNat
  | .misrouted c op a => a.fits c op.toNat
  | .registerWrite _ off _ => decide (off.toNat % 8 = 0)
  | .bcastWr off _ => decide (off.toNat % 8 = 0)
  | .telemetryFrame bytes => decide (bytes.length ≤ 76)
  | .imgData _ bytes => decide (bytes.length ≤ 28)
  | .imageStreamDone _ age0 age1 => decide (age0.length ≤ 4096) && decide (age1.length ≤ 4096)
  | .nvCmdDone _ bytes => decide (bytes.length ≤ 256)
  | .pinStep .. | .fanoutWindowExpiry .. | .foData .. | .syncReleaseSend .. | .barrierDrainEnd ..
  | .holdQueueReplay .. | .continuationGrant .. | .recallReinstate .. | .victimDeparture ..
  | .victimEntryFree .. | .ptActivate .. | .activationDone .. | .ptRelease .. | .ptSeal .. | .sweepRecall ..
  | .sweepZero .. | .sweepDone .. | .rmLoWrite .. | .rmHiWrite .. | .idHmDataWrite .. | .maintClean ..
  | .maintFlush .. | .maintInval .. | .maintWalkDone .. | .foAbort .. | .foCreditInitWrite ..
  | .foCredValWrite .. | .axCfgWrite .. | .axRangeWrite .. | .axStatusSatClear .. | .dbgRead ..
  | .setValue .. | .releaseAll .. | .sySave .. | .syRestore .. | .dgLaunchArm .. | .dgLaunchCancel ..
  | .launch .. | .captureWalkDone .. | .dgLaneWrite .. | .epArm .. | .epCancel .. | .epochClose ..
  | .closeRecallDone .. | .drainWrite .. | .epHarvestRelease .. | .epHarvestAbort .. | .harvestDone ..
  | .shelfWaysWrite .. | .shelfPassDone .. | .bwMinWrite .. | .regWindowStart .. | .telSync ..
  | .missedWindow .. | .levels .. | .damperWriteSend .. | .droopTrip .. | .droopClampEnd ..
  | .pgPhaseHintWrite .. | .pgActReportWrite .. | .groupBoundary .. | .proposalDeadline .. | .groupApply ..
  | .freqChange .. | .halfRetentionCommit .. | .halfStateReached .. | .halfOffStart .. | .halfFlushDone ..
  | .halfWake .. | .halfWakeDone .. | .measSetStart .. | .measSetEnd .. | .assistPause .. | .pohSecond ..
  | .agRecWrite .. | .ageingRecordDone .. | .repairGrant .. | .quarantineWork .. | .patrolStep ..
  | .patrolDeferredStep .. | .bucketLeak .. | .ecFlipArm .. | .ecSpareWrite .. | .spareCopyDone ..
  | .ecRtWrite .. | .ageEntry .. | .ageCollect .. | .countSet .. | .actSum .. | .attrSum .. | .kappa ..
  | .voffMax .. | .roster .. | .rosterSet .. | .mode .. | .ping .. | .ringParityError .. | .rgRosterCmd ..
  | .rgEmber .. | .brTrain .. | .trainingTimeout .. | .boardCount .. | .boardProp .. | .boardPing ..
  | .boardAck .. | .boardNak .. | .echo .. | .lat .. | .rgCntAdjGo .. | .crossingAlignment ..
  | .xingMarkerGap .. | .aonResetRelease .. | .nvmWaitExpiry .. | .powerPresent .. | .kindlingFillDone ..
  | .countLoad .. | .flueOpen .. | .rosterTake .. | .sliceResetAssert .. | .sliceResetRelease .. | .nvRead ..
  | .nvProgram .. | .nvErase4k .. | .heartbeat .. | .stewardHalt .. | .pcCfgWrite .. | .pcValWrite ..
  | .tdArrStart .. | .tapLock .. | .idcode .. | .regacc .. | .status .. | .bypass .. | .tapReset ..
  | .idMisrouteCntClear .. | .ptDenyCntClear .. | .czDropCntClear .. | .czConflictCntClear ..
  | .czFoViolClear .. | .czDeadCntClear .. | .coHqPeakClear .. | .coNackCntClear .. | .coPushCntClear ..
  | .coViolCntClear .. | .axViolCntClear .. | .syLopViolCntClear .. | .syOdcClear .. | .sySviolCntClear ..
  | .syPcntClear .. | .dgTevtCntClear .. | .epPcntClear .. | .bwShortClear .. | .bwEgrCntClear ..
  | .bwFillCntClear .. | .pgTelCntClear .. | .pgGstatClear .. | .pgEnergyClear .. | .agWakeCntClear ..
  | .ecCntClear .. | .ecRepairClear .. | .ecBankCntClear .. | .rgRetryClear .. | .aonResetAssert ..
  | .meshEgressCredit .. | .ringCredit .. | .boardFrameBad .. | .damperPeriodStart .. | .timeBaseWalkEnd ..
  | .slIrqMgmtPulse .. => true

end Sys2Proof
end

