-- ==== Sys2Proof/Safety.lean ====
section
/-! DEFINITION. The terms of the statements: what a run of the slice must keep, what a command may touch, and which rows of the table belong
together. -/

namespace Sys2Proof.Machine

/-! ### What every step keeps -/

/-- The level sources at the pins are those that the status and enable registers give (R337, R393, R221); a level line is low while the fast
outputs are clamped (R400); and no request is recorded as arriving. -/
abbrev Slice.settled (s : Slice) : Prop :=
  s.pins.errSrc = s.errSource ∧ s.pins.sampleSrc = s.sampleSource ∧ s.pins.syncSrc = s.syncSource
    ∧ (s.clamped = true → s.pins.irqErr = false ∧ s.pins.irqSample = false ∧ s.pins.irqSync = false)
    ∧ (∀ h, h < 2 → s.flag AG_PSTATE (heldField h) = true → s.halfLost h = true) ∧ s.ahead = []

/-- The registers, the home map, the arrays and the masks of their codewords are in the canonical form of a table: keys rise strictly, and no entry
holds what an unlisted one reads as; so equal contents are equal data. -/
abbrev Slice.canonical (s : Slice) : Prop :=
  Tbl.wf 0 s.regs = true ∧ Tbl.wf 0 s.homeMap = true ∧ Tbl.wf Frame.zero s.frames = true ∧ Tbl.wf 0 s.repl = true ∧ Tbl.wf Victim.none s.victims = true
    ∧ Tbl.wf 0 s.ledger = true ∧ Tbl.wf 0 s.flips = true

/-! ### Frames -/

/-- The bits of a register that follow the lost lines of a half and no write: OFF_HELD of AG_PSTATE (R313). -/
def followBits (a : Nat) : Word := if a = AG_PSTATE then fldMask AG_PSTATE_OFF_HELD_H0 ||| fldMask AG_PSTATE_OFF_HELD_H1 else 0

/-- Every register outside a list holds what it held, OFF_HELD of AG_PSTATE aside. -/
def Slice.regsBut (s t : Slice) (l : List Nat) : Prop :=
  ∀ a, a ∉ l → t.reg a &&& ~~~(followBits a) = s.reg a &&& ~~~(followBits a)

/-- Nothing but registers, what events have set in them in this fc, and pins has changed; no request is recorded as arriving. -/
abbrev Slice.regsOnly (s t : Slice) : Prop := t = { s with regs := t.regs, pins := t.pins, now := t.now, ahead := [] }

/-- The same, with a register noted as written by software in this fc (R15). -/
abbrev Slice.wroteOnly (s t : Slice) : Prop := t = { s with regs := t.regs, pins := t.pins, now := t.now, wroteRegs := t.wroteRegs, ahead := [] }

/-- The slice once the register arbiter has granted a host write, whose timing event is recorded (R31, R229, R231). -/
def Slice.noted (s : Slice) : Slice := s.takeReg.tevt TV_MAINT

/-- The slice with what the waiting commands bring to the arbiters in this fc (R29, R189). -/
def Slice.coming (s : Slice) (q : List Instr) : Slice := { s with ahead := q.filterMap s.comingOf }

/-! ### Answers -/

/-- A header-only answer as it stands at egress (R38). -/
def Slice.outRsp (s : Slice) (p : Port) (due : Nat) (a : Arr) (op : BitVec 6) (ext0 : BitVec 15) : Out :=
  ⟨p, due, s.fresh, s.classOf a.src.toNat, false, { answerTo a .rsp op ext0 0 with src := s.node p }, none⟩

/-- An answer with a payload as it stands at egress (R38). -/
def Slice.outDat (s : Slice) (p : Port) (due : Nat) (a : Arr) (op : BitVec 6) (ext0 : BitVec 15) (pl : Payload) : Out :=
  ⟨p, due, s.fresh, s.classOf a.src.toNat, true, { answerTo a .dat op ext0 pl with src := s.node p }, none⟩

/-- A MEM_WR that the slice originates of its own, as it stands at egress on the even port of a half (R22, R36, R82). -/
def Slice.outWr (s : Slice) (half mclass p txn addr : Nat) (m : BitVec 4) (d : Line) : Out :=
  ⟨evenPort half, s.fc, s.fresh, mclass, true, ⟨.req, OP_MEM_WR, s.node (evenPort half), 0x7FF, BitVec.ofNat 4 p, BitVec.ofNat 10 txn, false, 0,
    m.setWidth 15, BitVec.ofNat 48 addr, 0, (d &&& sectorMask m).setWidth 1152⟩, none⟩

/-- A message of a class can arrive on a port: fast outputs are not clamped, and the neighbour holds a credit (R400, R403). -/
abbrev Slice.takes (s : Slice) (p : Port) (c : Cls) : Prop := s.clamped = false ∧ 0 < s.rxHeld p c

/-- The neighbours hold the credits they held. -/
def Slice.sameCredits (s t : Slice) : Prop := ∀ p c, t.rxHeld p c = s.rxHeld p c

/-- No counter counts, no array holds an error, and none is armed (R386, R339). -/
abbrev Slice.calm (s : Slice) : Prop :=
  s.flag PC_CTRL PC_CTRL_EN = false ∧ s.flips = [] ∧ s.flag EC_FLIP_CTRL EC_FLIP_CTRL_ARMED = false

/-- The bank of a request's first frame or line. -/
def firstBank (op : BitVec 6) (a : Arr) : Nat := bankKey (reqSet op a)

/-- A request reaches ingress with no counter on: the check stage admits it, its half is awake with no flush walk, and neither QUIESCE, a damper, a bank copy, a
due close nor a full hold queue withholds it (R26, R51, R126, R255, R281, R294, R342). -/
abbrev Slice.enters (s : Slice) (op : BitVec 6) (a : Arr) (lp : Nat) (foreign : Bool) : Prop :=
  s.takes a.port .req ∧ s.calm ∧ s.check op a = .accepts lp foreign ∧ s.awake (reqHalf op a) = true ∧ s.flag AG_PSTATE (flushField (reqHalf op a)) = false
    ∧ s.blocked ⟨op, a, lp, foreign, false, s.fc⟩ = false

/-- A request that arrives now on its own half is granted the slot of this fc: no other candidate of its bank can take it (R21, R28, R29). -/
abbrev Slice.opens (s : Slice) (q : List Instr) (op : BitVec 6) (a : Arr) (lp : Nat) (foreign : Bool) : Prop :=
  s.enters op a lp foreign ∧ crossing op a = 0 ∧ (s.coming q).uncontended (firstBank op a) = true

/-- The port on which the answers of a request leave (R22). -/
def ansPort (op : BitVec 6) (a : Arr) : Port := outPort (reqHalf op a) a.port

/-- A grant in bank `bk` has touched no hold queue, no continuation and no HTE but entry `i` of it, and no other bank at all. -/
def Slice.bankFrame (s t : Slice) (bk : Nat) (i : Option Nat) : Prop :=
  (∀ b, b ≠ bk → t.bank b = s.bank b) ∧ (t.bank bk).holdq = (s.bank bk).holdq ∧ (t.bank bk).conts = (s.bank bk).conts
    ∧ ∀ j, some j ≠ i → t.hte bk j = s.hte bk j

/-- Frames other than one hold what they held. -/
def Slice.framesBut (s t : Slice) (key : Nat) : Prop := ∀ k, k ≠ key → t.frame k = s.frame k

/-- The line is in a raw cache frame, in a home state, with no transaction, no retired frame, no epochs and no accumulation region about it. -/
abbrev Slice.rawAt (s : Slice) (lp line key hs : Nat) : Prop :=
  s.locate lp line = .frame key ∧ s.hteOf line = none ∧ s.rtFind key = none ∧ getF (s.frame key).w0 T0_LAYOUT = 0
    ∧ getF (s.frame key).w1 T1_HSTATE = hs ∧ s.epochs lp = false ∧ s.accLine lp line = false

/-- The fc from which a continuation that an answer on a port makes possible is a candidate in a bank (R127). -/
def Slice.contFrom (s : Slice) (p : Port) (bk : Nat) : Nat := s.fc + 3 + (if p.val / 2 = bk / 8 then 0 else 2)

/-- An answer arrives that names an HTE, with nothing counted, nothing held in its bank (R127, R133). -/
abbrev Slice.answers (s : Slice) (a : Arr) (c : Cls) (bk : Nat) : Prop :=
  s.takes a.port c ∧ s.mine a.dst = true ∧ s.calm ∧ (s.bank bk).holdq = []

/-- Entry i of a bank has nothing outstanding but what its own state still expects: it frees as soon as that has come. -/
abbrev Slice.lastWait (s : Slice) (bk i : Nat) : Prop :=
  (s.hte bk i).pend = 0 ∧ (s.hte bk i).acks = 0 ∧ (s.hte bk i).arrived = false ∧ (s.bank bk).conts.any (fun c => c.what = .hte i) = false
    ∧ s.fillOf bk i = none

/-- An answer has changed nothing but HTE i of a bank, the bank's continuations, and what else the statement names. -/
abbrev Slice.answered (s t : Slice) (bk i : Nat) : Prop :=
  s.sameCredits t ∧ (∀ b, b ≠ bk → t.bank b = s.bank b) ∧ (t.bank bk).holdq = [] ∧ (∀ j, j ≠ i → t.hte bk j = s.hte bk j)

/-! ### Frame operations -/

/-- No other frame operation is pending: none waits at an input or in a hold queue, and none arrives in the same fc (R189). -/
abbrev Slice.alone (s : Slice) (q : List Instr) : Prop :=
  s.inputs = [] ∧ (∀ bk, (s.bank bk).holdq = []) ∧ q.filterMap reqOf = []

/-- The frames of a frame operation, with no epochs about them: pinned frames of its buffer offsets (R96), or the raw frames, all sectors valid, of lines
in U with no transaction and no retired frame. -/
abbrev Slice.inPlace (s : Slice) (op : BitVec 6) (a : Arr) (lp : Nat) (key : Nat → Nat) : Prop :=
  s.epochs lp = false ∧ ∀ j, j < spanFrames op a →
    if a.pin then key j = s.bufKey lp (a.addr.toNat + 128 * j)
    else s.locate lp (lineNo a.addr.toNat + j) = .frame (key j) ∧ s.hteOf (lineNo a.addr.toNat + j) = none ∧ s.rtFind (key j) = none
      ∧ getF (s.frame (key j)).w0 T0_LAYOUT = 0 ∧ getF (s.frame (key j)).w0 T0_SV = 15 ∧ getF (s.frame (key j)).w1 T1_HSTATE = 0

/-- A frame as an operation finds it: a dead pinned frame reads as zero (R106). -/
def Slice.opData (s : Slice) (a : Arr) (key : Nat) : Line := if a.pin && (s.frame key).w0.getLsbD 0 then 0 else (s.frame key).data

/-- A frame after an operation has written sectors of it: a pinned frame is no longer dead; a line is dirty there, and in U (R95, R186). -/
def Slice.opFrame (s : Slice) (a : Arr) (key : Nat) (m : BitVec 4) (d : Line) : Frame :=
  let f := s.frame key
  let new := mergeLine (byteMask (bytesOfSectors m)) d f.data
  if a.pin then ⟨0, 0, new⟩ else ⟨setF (setF f.w0 T0_SV (getF f.w0 T0_SV ||| m.toNat)) T0_SD (getF f.w0 T0_SD ||| m.toNat), clearDir f.w1, new⟩

/-- A frame that an operation has only read. -/
def Slice.opRead (s : Slice) (a : Arr) (key : Nat) : Frame :=
  let f := s.frame key
  if a.pin then f else { f with w1 := clearDir f.w1 }

/-- The last grant of an operation that arrives now on its own half: that of its one grant on lines, the latest of those of its pinned frames, each of which holds its
bank for the slots of R35 in the first run that is free (R162). -/
def Slice.lastGrant (s : Slice) (op : BitVec 6) (a : Arr) : Nat :=
  if a.pin then
    (List.range (spanFrames op a - 1)).foldl (fun g j =>
      let x := bufSet (a.addr.toNat + 128 * (j + 1))
      max g ((s.bank (bankKey x)).firstRun (s.fc + 3 + if halfOfSet x = reqHalf op a then 0 else 2) (opSlots op a 1))) s.slotFc
  else s.slotFc

/-- No HTE, hold queue or continuation has changed. -/
def Slice.sameHome (s t : Slice) : Prop :=
  ∀ b, (t.bank b).holdq = (s.bank b).holdq ∧ (t.bank b).conts = (s.bank b).conts ∧ ∀ j, t.hte b j = s.hte b j

/-- The registers that a dead read changes (R106). -/
abbrev deadRegs (p : Nat) : List Nat := [CZ_DEADREAD, CZ_DEAD_CNT p]

/-- A frame operation has changed its frames, one answer at egress and what else the statement names, and nothing more. -/
abbrev Slice.operated (s t : Slice) (n : Nat) (key : Nat → Nat) : Prop :=
  (∀ k, (∀ j, j < n → k ≠ key j) → t.frame k = s.frame k) ∧ s.sameHome t ∧ s.sameCredits t ∧
  t = { s with regs := t.regs, pins := t.pins, now := t.now, frames := t.frames, repl := t.repl, banks := t.banks, egress := t.egress, fresh := t.fresh,
               rxCred := t.rxCred, gov := { s.gov with activity := t.gov.activity }, grantsTotal := t.grantsTotal, ahead := [] }

/-! ### The rings and start-up -/

/-- The ring stop has taken a packet in, and sends a list of packets on: they have left or wait, and nothing else of the ring's order has changed. -/
abbrev Slice.ringSends (s t : Slice) (l : List RingPkt) : Prop := (t.ring.out ++ t.ring.queue).Perm (s.ring.out ++ s.ring.queue ++ l)

/-- The slice has become READY: the tick is kept, PID 0 is ACTIVE, and the neighbours hold 8 REQ credits; a re-entry is counted; the lead writes the
home map to the routers and trains the board ring, where they are there (R379, R358). -/
abbrev Slice.readied (s t : Slice) : Prop :=
  t.ready = true ∧ t.fld NV_STATUS NV_STATUS_STEP = 8 ∧ t.reg NV_READY_TICK = s.count ∧ t.ptState 0 = 2 ∧ t.flag (PT_CTRL 0) PT_CTRL_ACTIVE = true
    ∧ (∀ p c, t.rxHeld p c = if c = .req then 8 else s.rxHeld p c) ∧ t.start.reentry = false
    ∧ t.fld NV_STATUS NV_STATUS_REENTRIES = min (2 ^ NV_STATUS_REENTRIES.len - 1) (s.fld NV_STATUS NV_STATUS_REENTRIES + b2n s.start.reentry)
    ∧ (s.boardOn = true → t.board.training = true) ∧ (s.boardOn = false → t.board = s.board)
    ∧ t.egress.length + t.txnWait.length = s.egress.length + s.txnWait.length + (if s.lead && s.routerBase != 0 then 128 else 0)
    ∧ ((s.lead && s.routerBase != 0) = false → t.egress = s.egress ∧ t.txnWait = s.txnWait ∧ t.txns = s.txns ∧ t.fresh = s.fresh)

/-- The registers that becoming READY changes. -/
abbrev readyRegs : List Nat := [ID_STATUS, NV_STATUS, NV_READY_TICK, PT_STATUS 0, PT_CTRL 0]

/-! ### Registers -/

/-- The registers that an entry of the error log changes (R336). -/
abbrev logRegs : List Nat := [EC_STATUS, EC_LOG_STATUS]

/-- A register access of PID 0 arrives that the check stage admits: PID 0 is ACTIVE, and the address is an offset of the slice's own window (R51, R129). -/
abbrev Slice.regEnters (s : Slice) (a : Arr) (off : Nat) : Prop :=
  s.takes a.port .req ∧ s.mine a.dst = true ∧ s.ptState 0 = 2 ∧ a.pid = 0 ∧ s.cfgAt a.addr.toNat = .own off

/-- One that arrives now on H0 is granted the register arbiter's slot of this fc: that is free, and no other access waits or arrives in this fc (R29, R31). -/
abbrev Slice.regOpens (s : Slice) (q : List Instr) (a : Arr) (off : Nat) : Prop :=
  s.regEnters a off ∧ a.port.val / 2 = 0 ∧ (s.coming q).regIdle = true

/-- Registers whose write does no more than R12 says: no field acts, no chapter refuses the write, and nothing but the register follows it. -/
def plainBase (b : Nat) : Bool :=
  !(hasClear b) && !(axReg b) && !(decide (0x5C00 ≤ b) && decide (b ≤ 0x5C18))
    && !([ID_HM_DATA, PT_CTRL 0, RM_LO 0, RM_HI 0, CZ_PIN_CTRL, CZ_FO_CRED_VAL, CZ_MAINT_CTRL, CZ_FO_CFG 0, SY_DBG_CMD, SY_SAVE_CTRL, DG_LAUNCH, EP_CTRL,
      EP_PCTRL 1, BW_MIN 0, PG_PHASE_HINT, PG_ACT_REPORT, AG_REC_CTRL, AG_PSTATE, EC_SPARE, EC_RT 0, EC_FLIP_CTRL, PG_CTRL, PG_GROUP 0, RG_CTRL, RG_CNT_ADJ, NV_CMD,
      TD_ARR_CMD].contains b)

/-- What a field holds after a write (R12): `old` and `v` are the register before it and the value written, `now` the bits that events have set in this fc, which a
clear leaves set (R14). -/
def fieldAfter (d : FldDef) (locked : Bool) (now old v : Word) : Nat :=
  match d.acc with
  | .ro => getF old d.fld
  | .wo => getF old d.fld
  | .rw => getF v d.fld
  | .rwl => if locked then getF old d.fld else getF v d.fld
  | .rw1c => getF (old &&& ~~~(v &&& ~~~now)) d.fld
  | .rw1s => getF (old ||| v) d.fld

/-- The slice just before a write by a node is stored: a write that would change a locked field is recorded (R13). -/
def Slice.preStore (s : Slice) (base i off : Nat) (old v : Word) (n : Node) (r : RegDef) : Slice :=
  if (s.lockedReg base i || s.takesActive base i v) && s.changesRwl r i old v then s.logErr 0x09 (log1Addr (s.ownAddr off) n.toNat) 0 else s

/-- What a write of a plain register leaves, from the slice with its timing event recorded: every field as its access code and lock say (R12, R13), and no other
register but what the log sets. -/
def Slice.stores (s t : Slice) (off : Nat) (n : Node) (v : Word) (r : RegDef) (i : Nat) : Prop :=
  let locked := s.lockedReg r.base i || s.takesActive r.base i v
  let pre := s.preStore r.base i off (s.reg off) v n r
  pre.regsBut t [off]
    ∧ (∀ d ∈ r.flds, s.absent r.base i d.fld = false → t.fld off d.fld = fieldAfter d locked (pre.nowIn off) (pre.reg off) v)
    ∧ (∀ d ∈ r.flds, s.absent r.base i d.fld = true → t.fld off d.fld = pre.fld off d.fld)

/-- The activation pass of a partition, while it runs (R47). -/
def Slice.passOf (s : Slice) (p : Pid) : Option Walk := s.walkOf (fun k => match k with
  | .activate r _ => r = p
  | _ => false)

end Sys2Proof.Machine

namespace Sys2Proof

open Sys2Proof.Machine

/-! ### Rows of the table -/

/-- The class of the mesh message that a command is, with the message; none for any other command. -/
def Instr.message : Instr → Option (Cls × Arr)
  | .rdS a => some (.req, a) | .rdX a => some (.req, a) | .upg a => some (.req, a) | .rdNc a => some (.req, a)
  | .wrNc a => some (.req, a) | .wb a => some (.req, a) | .stash a => some (.req, a) | .cfgRd a _ => some (.req, a)
  | .cfgWr a _ => some (.req, a) | .zeroLine a => some (.req, a) | .cleanLine a => some (.req, a) | .flushLine a => some (.req, a)
  | .invalLine a => some (.req, a) | .pinRd a => some (.req, a) | .pinWr a => some (.req, a) | .pinFill a => some (.req, a)
  | .pinCopy a => some (.req, a) | .pinDrop a => some (.req, a) | .pinFanout a => some (.req, a) | .accAdd a => some (.req, a)
  | .accAddS a => some (.req, a) | .accMerge a => some (.req, a) | .accFin a => some (.req, a) | .accFinFuse a => some (.req, a)
  | .expmax a => some (.req, a) | .accAnchor a => some (.req, a) | .lineOp a => some (.req, a) | .fetchOp a => some (.req, a)
  | .swap a => some (.req, a) | .cas a => some (.req, a) | .syInit a => some (.req, a) | .syAdd a => some (.req, a)
  | .syAcq a => some (.req, a) | .syArrive a => some (.req, a) | .syWait a => some (.req, a) | .syRead a => some (.req, a)
  | .undefinedReq _ a => some (.req, a) | .foCredit a => some (.rsp, a) | .memData a => some (.dat, a) | .memAck a => some (.rsp, a)
  | .compAck a => some (.rsp, a) | .fwdAck a => some (.rsp, a) | .snpData a => some (.dat, a) | .invAck a => some (.rsp, a)
  | .nackGone a => some (.rsp, a) | .pushAck a => some (.rsp, a) | .pushDecline a => some (.rsp, a) | .comp a => some (.rsp, a)
  | .data a => some (.dat, a) | .unmatched c _ a => some (c, a) | .misrouted c _ a => some (c, a)
  | _ => none

/-- The opcode of a request other than a register access, with the request. -/
def Instr.request : Instr → Option (BitVec 6 × Arr)
  | .rdS a => some (OP_RD_S, a) | .rdX a => some (OP_RD_X, a) | .upg a => some (OP_UPG, a) | .rdNc a => some (OP_RD_NC, a)
  | .wrNc a => some (OP_WR_NC, a) | .wb a => some (OP_WB, a) | .stash a => some (OP_STASH, a) | .zeroLine a => some (OP_ZERO_LINE, a)
  | .cleanLine a => some (OP_CLEAN_LINE, a) | .flushLine a => some (OP_FLUSH_LINE, a) | .invalLine a => some (OP_INVAL_LINE, a)
  | .pinRd a => some (OP_PIN_RD, a) | .pinWr a => some (OP_PIN_WR, a) | .pinFill a => some (OP_PIN_FILL, a)
  | .pinCopy a => some (OP_PIN_COPY, a) | .pinDrop a => some (OP_PIN_DROP, a) | .pinFanout a => some (OP_PIN_FANOUT, a)
  | .accAdd a => some (OP_ACC_ADD, a) | .accAddS a => some (OP_ACC_ADD_S, a) | .accMerge a => some (OP_ACC_MERGE, a)
  | .accFin a => some (OP_ACC_FIN, a) | .accFinFuse a => some (OP_ACC_FIN_FUSE, a) | .expmax a => some (OP_EXPMAX, a)
  | .accAnchor a => some (OP_ACC_ANCHOR, a) | .lineOp a => some (OP_LINE_OP, a) | .fetchOp a => some (OP_FETCH_OP, a)
  | .swap a => some (OP_SWAP, a) | .cas a => some (OP_CAS, a) | .syInit a => some (OP_SY_INIT, a) | .syAdd a => some (OP_SY_ADD, a)
  | .syAcq a => some (OP_SY_ACQ, a) | .syArrive a => some (OP_SY_ARRIVE, a) | .syWait a => some (OP_SY_WAIT, a)
  | .syRead a => some (OP_SY_READ, a)
  | _ => none

/-- The register that a command writes with no more effect than R12 gives, with the writer and the value written. -/
def Instr.stores : Instr → Option (Nat × Node × Word)
  | .registerWrite n off v => some (off.toNat, n, v)
  | .pcCfgWrite i n v => some (PC_CFG i.val, n, v)
  | .pcValWrite i n v => some (PC_VAL i.val, n, v)
  | .dgLaneWrite p j n v => some (DG_LANE p.toNat j.val, n, v)
  | .tapLock n v => some (TD_CTRL, n, setF v TD_CTRL_TAP_LOCK 1)
  | _ => none

/-- The register whose CLEAR bit a command sets, with the writer and the value written. EP_PCNT has no entry of PID 0 (R272). -/
def Instr.clears : Instr → Option (Nat × Node × Word)
  | .idMisrouteCntClear n v => some (ID_MISROUTE_CNT, n, v) | .czDropCntClear n v => some (CZ_DROP_CNT, n, v)
  | .czConflictCntClear n v => some (CZ_CONFLICT_CNT, n, v) | .czFoViolClear n v => some (CZ_FO_VIOL, n, v)
  | .coHqPeakClear n v => some (CO_HQ_PEAK, n, v) | .coNackCntClear n v => some (CO_NACK_CNT, n, v)
  | .coPushCntClear n v => some (CO_PUSH_CNT, n, v) | .coViolCntClear n v => some (CO_VIOL_CNT, n, v)
  | .axViolCntClear n v => some (AX_VIOL_CNT, n, v) | .syLopViolCntClear n v => some (SY_LOP_VIOL_CNT, n, v)
  | .sySviolCntClear n v => some (SY_SVIOL_CNT, n, v) | .dgTevtCntClear n v => some (DG_TEVT_CNT, n, v)
  | .bwShortClear n v => some (BW_SHORT, n, v) | .pgTelCntClear n v => some (PG_TEL_CNT, n, v)
  | .agWakeCntClear n v => some (AG_WAKE_CNT, n, v) | .ecCntClear n v => some (EC_CNT, n, v)
  | .ecRepairClear n v => some (EC_REPAIR, n, v) | .rgRetryClear n v => some (RG_RETRY, n, v)
  | .ptDenyCntClear p n v => some (PT_DENY_CNT p.toNat, n, v) | .czDeadCntClear p n v => some (CZ_DEAD_CNT p.toNat, n, v)
  | .syOdcClear p n v => some (SY_ODC p.toNat, n, v) | .syPcntClear p n v => some (SY_PCNT p.toNat, n, v)
  | .epPcntClear p n v => if p = 0 then none else some (EP_PCNT p.toNat, n, v)
  | .bwEgrCntClear c n v => some (BW_EGR_CNT c.val, n, v) | .bwFillCntClear c n v => some (BW_FILL_CNT c.val, n, v)
  | .pgGstatClear g n v => some (PG_GSTAT g.val, n, v) | .ecBankCntClear i n v => some (EC_BANK_CNT i.val, n, v)
  | .pgEnergyClear unattr p n v => some (if unattr then PG_ENERGY_UNATTR else PG_ENERGY p.toNat, n, v)
  | _ => none

end Sys2Proof
end

