-- ==== Sys2Proof/Certificates/Slice0/Obligations.lean ====
section
/-! DEFINITION. The statements for the provers. Each docstring names the rules of spec/ that the statement formalises. -/

open Sys2Proof Sys2Proof.Machine

/-! ### The block -/

/-- The command at the front of the queue is taken, and has its effect with the rest of the queue waiting. -/
def Obligations.StepTakesFront : Prop :=
  ∀ (c : Instr) (s : Slice) (q : List Instr), step ⟨s, c :: q⟩ = exec c ⟨s, q⟩

/-- No command is refused and none touches the queue; the one fault is a mesh message whose sender held no credit (R1, R403), and a clamped slice
ignores it (R400). R400: while its fast outputs are clamped the slice ignores every mesh message. -/
def Obligations.EveryCommandCompletes : Prop :=
  (∀ (c : Instr) (s : Slice) (q : List Instr),
     (∃ t, exec c ⟨s, q⟩ = .next ⟨t, q⟩) ∨
     (exec c ⟨s, q⟩ = .fault .uncreditedMessage ∧ s.clamped = false ∧ ∃ k a, c.message = some (k, a) ∧ s.rxHeld a.port k = 0))
  ∧ (∀ (c : Instr) (k : Cls) (a : Arr) (s : Slice) (q : List Instr), c.message = some (k, a) → s.clamped = true →
       ∃ t, exec c ⟨s, q⟩ = .next ⟨t, q⟩ ∧ s.regsOnly t ∧ s.regsBut t [])

/-- R337, R393, R221, R400: every step leaves the level sources at the pins equal to what the registers give, and clamped lines low. -/
def Obligations.StepSettles : Prop :=
  ∀ s t : State, s.slice.settled → step s = .next t → t.slice.settled

/-- R364, R400, R403, R41: in ember reset the queue is empty, the slice is settled and its tables are canonical; it is not READY, its fast outputs are
clamped, its arrays hold nothing, no neighbour holds a credit, and ID_REV and ID_GEOM read as they always do. -/
def Obligations.ResetState : Prop :=
  State.reset.pending = [] ∧ State.reset.slice.settled ∧ State.reset.slice.canonical ∧ State.reset.slice.ready = false ∧ State.reset.slice.clamped = true
    ∧ (∀ k, State.reset.slice.frame k = Frame.zero) ∧ (∀ p c, State.reset.slice.rxHeld p c = 0 ∧ State.reset.slice.txHeld p c = 0)
    ∧ State.reset.slice.reg ID_REV = 0x0A470D7500000300 ∧ State.reset.slice.reg ID_GEOM = 0x000000200C100182

/-! ### The register window -/

/-- R12, R13: what a write of a register leaves in each field, by its access code and its lock; a write that would change a locked field is recorded
with type 0x09 and leaves it; nothing else changes but what the timing event of R231 sets. The rows of counters (R387, R390), lanes (R248) and
TAP_LOCK (R396) are such writes. R14, R15: a bit that an event has set in the same fc is not cleared, and the write is noted for the updates of
hardware that come later in the fc; what a counter counts in that fc follows the configuration that the write replaces (R387). R11: an offset that names no register ignores a write, and a register outside the slice's own has no effect before
READY. -/
def Obligations.WriteFollowsAccessCodes : Prop :=
  (∀ (s : Slice) (q : List Instr) (c : Instr) (n : Node) (off : Nat) (v : Word) (r : RegDef) (i : Nat), c.stores = some (off, n, v) →
     s.ready = true → regAt off = some (r, i) → plainBase r.base = true → (s.lead = true ∨ leadOnly r.base = false) →
     let u := if r.base = PC_CFG 0 then s.noted.pcKeep i else s.noted
     ∃ t, exec c ⟨s, q⟩ = .next ⟨t, q⟩ ∧ s.noted.stores t off n v r i ∧ (u.preStore r.base i off (s.noted.reg off) v n r).wroteOnly t
       ∧ (∀ f, r.base = PC_CFG 0 → s.pcWas = [] → t.pcCfg i f = s.fld off f)
       ∧ t.wroteNow off = true)
  ∧ (∀ (s : Slice) (q : List Instr) (n : Node) (off : BitVec 16) (v : Word), regAt off.toNat = none ∨ s.ready = false →
       ∃ t, exec (.registerWrite n off v) ⟨s, q⟩ = .next ⟨t, q⟩ ∧ (if s.ready then s.noted else s).regsOnly t
         ∧ (if s.ready then s.noted else s).regsBut t [])

/-- R12, R41, R64, R94, R117, R146, R176, R194, R221, R248, R272, R284, R305, R307, R324, R343, R363: CLEAR (bit 63) of a counter register zeroes its
counts, whatever else the value holds, but for what they have counted in the present fc (R14); an energy counter loses its residue with it (R305); EP_PCNT has no entry of PID 0. -/
def Obligations.ClearZeroesCounts : Prop :=
  ∀ (s : Slice) (q : List Instr) (c : Instr), s.ready = true →
    (∀ off n v r i, c.clears = some (off, n, v) → regAt off = some (r, i) →
      ∃ t, exec c ⟨s, q⟩ = .next ⟨t, q⟩ ∧ (∀ d ∈ r.flds, d.acc = .ro → t.fld off d.fld = getF (s.noted.nowIn off) d.fld)
        ∧ (∀ k, c = .pgGstatClear k n v → ∀ d ∈ r.flds, d.acc ≠ .wo → t.fld off d.fld = getF (s.noted.nowIn off) d.fld)
        ∧ s.noted.regsBut t [off]
        ∧ t = { s.noted with regs := t.regs, pins := t.pins, now := s.noted.now, wroteRegs := t.wroteRegs, gov := { s.gov with residue := t.gov.residue }, ahead := [] }
        ∧ (∀ k, (∀ u p, c = .pgEnergyClear u p n v → k ≠ if u then 16 else p.toNat) → Tbl.at 0 t.gov.residue k = Tbl.at 0 s.gov.residue k)
        ∧ (∀ u p, c = .pgEnergyClear u p n v → Tbl.at 0 t.gov.residue (if u then 16 else p.toNat) = 0))
    ∧ (∀ n v, c = .epPcntClear 0 n v → ∃ t, exec c ⟨s, q⟩ = .next ⟨t, q⟩ ∧ s.noted.wroteOnly t ∧ s.noted.regsBut t [])

/-- R9: a register access of another size or alignment: a write is ignored and answered with COMP, a read is answered with zero, both at the offsets
of R32, and both are recorded with type 0x08. -/
def Obligations.BadSizeAnswered : Prop :=
  ∀ (s : Slice) (q : List Instr) (a : Arr) (full : Bool) (off : Nat), s.regOpens q a off → (full = false ∨ a.addr.toNat % 8 ≠ 0) →
    s.flag PC_CTRL PC_CTRL_EN = false →
    (∃ t, exec (.cfgWr a full) ⟨s, q⟩ = .next ⟨t, q⟩ ∧ t.egress = s.egress ++ [s.outRsp (outPort 0 a.port) (s.slotFc + 17) a RS_COMP 0]
      ∧ (s.logErr 0x08 (log1Addr a.addr.toNat a.src.toNat) 0).regsBut t []
      ∧ t.errLog = (s.logErr 0x08 (log1Addr a.addr.toNat a.src.toNat) 0).errLog)
    ∧ (∃ t, exec (.cfgRd a full) ⟨s, q⟩ = .next ⟨t, q⟩ ∧ t.egress = s.egress ++ [s.outDat (outPort 0 a.port) (s.slotFc + 21) a DT_CFG_DATA 0 0]
      ∧ (s.logErr 0x08 (log1Addr a.addr.toNat a.src.toNat) 0).regsBut t []
      ∧ t.errLog = (s.logErr 0x08 (log1Addr a.addr.toNat a.src.toNat) 0).errLog)

/-- R12, R31, R32, R129: a register access that arrives on H0 with no other about is granted the register arbiter's slot. A read answers with what the register
reads as, 21 fc after the grant; a write does what the write of the register row does and answers with COMP 17 fc after it. The read of a map group may advance
GROUP (R41); a sealed descriptor reads as zero (R56). An access that crosses from H1 (R21), or meets another, waits for the arbiter. R353: the lead sends a write
to the broadcast window on the control ring. -/
def Obligations.RegisterAccess : Prop :=
  ∀ (s : Slice) (q : List Instr) (a : Arr) (off : Nat), s.flag PC_CTRL PC_CTRL_EN = false →
    let v := a.pl.extractLsb' 0 64
    let back := fun (u t : Slice) => { u with egress := t.egress, fresh := t.fresh, rxCred := t.rxCred, regFree := s.slotFc + 1, regPtr := nextPtr (inputOf 0 a.port) }
    (s.regOpens q a off → a.addr.toNat % 8 = 0 → s.ready = true →
      ((∀ r i, regAt off = some (r, i) → s.axSealed r.base i = false) →
        ∃ t, exec (.cfgRd a true) ⟨s, q⟩ = .next ⟨t, q⟩
          ∧ t.egress = s.egress ++ [s.outDat (outPort 0 a.port) (s.slotFc + 21) a DT_CFG_DATA 0 ((s.noted.peek off).setWidth 1152)]
          ∧ s.noted.regsBut t (if off = ID_HM_DATA then [ID_HM_INDEX] else []) ∧ s.sameCredits t ∧ t.fresh = s.fresh + 1
          ∧ t = back { s.noted with regs := t.regs, pins := t.pins, now := t.now, ahead := [] } t)
      ∧ (∃ t, exec (.cfgWr a true) ⟨s, q⟩ = .next ⟨t, q⟩ ∧ s.sameCredits t
          ∧ (∀ r i, regAt off = some (r, i) → plainBase r.base = true → (s.lead = true ∨ leadOnly r.base = false) →
              s.noted.stores t off a.src v r i ∧ t.wroteNow off = true
              ∧ t.egress = s.egress ++ [{ t with fresh := s.fresh }.outRsp (outPort 0 a.port) (s.slotFc + 17) a RS_COMP 0] ∧ t.fresh = s.fresh + 1
              ∧ t = back { (if r.base = PC_CFG 0 then s.noted.pcKeep i else s.noted).preStore r.base i off (s.noted.reg off) v a.src r with
                             regs := t.regs, pins := t.pins, now := t.now, wroteRegs := t.wroteRegs, ahead := [] } t)
          ∧ (∃ u, exec (.registerWrite a.src (BitVec.ofNat 16 off) v) ⟨s, q⟩ = .next ⟨u, q⟩ ∧ t = back u t
              ∧ t.egress = u.egress ++ [u.outRsp (outPort 0 a.port) (s.slotFc + 17) a RS_COMP 0])))
    ∧ (∀ (c : Instr) (op : BitVec 6) (full : Bool), (c = .cfgRd a full ∧ op = OP_CFG_RD) ∨ (c = .cfgWr a full ∧ op = OP_CFG_WR) →
        s.regEnters a off → (a.port.val / 2 = 1 ∨ (s.coming q).regIdle = false) →
        ∃ t, exec c ⟨s, q⟩ = .next ⟨t, q⟩ ∧ t.regWait = insInput ⟨op, a, a.pid.toNat, !full, false, s.fc⟩ s.regWait ∧ s.regsBut t []
          ∧ t.rxHeld a.port .req = s.rxHeld a.port .req - 1
          ∧ t = { s with regs := t.regs, pins := t.pins, rxCred := t.rxCred, regWait := t.regWait, ahead := [] })
    ∧ (s.takes a.port .req → s.mine a.dst = true → s.ptState 0 = 2 → a.pid = 0 → s.cfgAt a.addr.toNat = .broadcast off → a.addr.toNat % 8 = 0 →
        ∃ t, exec (.cfgWr a true) ⟨s, q⟩ = .next ⟨t, q⟩ ∧ t.ring.bcasts = s.ring.bcasts ++ [a] ∧ s.regsBut t [] ∧ s.sameCredits t
          ∧ s.ringSends t [⟨RG_BCAST_WR, RG_ALL, 0, BitVec.ofNat 32 off :: flits2 v⟩]
          ∧ t = { s with regs := t.regs, pins := t.pins, rxCred := t.rxCred, ring := t.ring, ahead := [] })

/-! ### The check stage -/

/-- R39: a REQ of an opcode that the slice does not receive is answered with UNSUPPORTED at T+10 fc, 2 later from the other half, whatever its
destination or address; it is recorded with type 0x0C and touches no array. -/
def Obligations.UndefinedOpcodeRefused : Prop :=
  ∀ (s : Slice) (q : List Instr) (op : BitVec 6) (a : Arr), reqDefined op = false → s.takes a.port .req → s.flag PC_CTRL PC_CTRL_EN = false →
    ∃ t, exec (.undefinedReq op a) ⟨s, q⟩ = .next ⟨t, q⟩
      ∧ t.egress = s.egress ++ [s.outRsp (outPort (reqHalf op a) a.port) (s.fc + 10 + crossing op a) a RS_UNSUPPORTED 0]
      ∧ (s.logErr 0x0C (log1Addr a.addr.toNat a.src.toNat) a.pid.toNat).regsBut t []
      ∧ t = { s with regs := t.regs, pins := t.pins, now := t.now, egress := t.egress, fresh := s.fresh + 1, rxCred := t.rxCred, ahead := [],
                     errLog := (s.logErr 0x0C (log1Addr a.addr.toNat a.src.toNat) a.pid.toNat).errLog } ∧ s.sameCredits t

/-- R25: a request whose address hashes to another slice, or whose destination is no node of this one, is answered with MISROUTED at T+10 fc (T+12 fc
from the other half) and touches no array; any other message to such a destination is discarded. Either way MISROUTE is set, the count rises until it
is full, and the address and source are captured if MISROUTE was clear. R51, R52, R55: what the check stage refuses with ACCESS_DENIED at T+10 fc
(T+12 fc from the other half), touching no array: a PID that is not ACTIVE, a buffer offset that the partition does not have, an address of another
owner, and a write to a read-only range. PT_DENY_CNT of the PID rises, and PT_DENY captures the first refusal. -/
def Obligations.MisroutedOrDenied : Prop :=
  (∀ (s : Slice) (q : List Instr) (c : Instr), s.flag PC_CTRL PC_CTRL_EN = false →
     (∀ op a, (c.request = some (op, a) ∨ (c = .misrouted .req op a ∧ isCfg op = false ∧ reqDefined op = true)) → s.takes a.port .req →
         (s.mine a.dst = false ∨ (spaceOf op a = .phys ∧ s.homeOf a.addr.toNat ≠ s.id)) →
       ∃ t, exec c ⟨s, q⟩ = .next ⟨t, q⟩
         ∧ t.egress = s.egress ++ [s.outRsp (if spaceOf op a = .desc then a.port else outPort (reqHalf op a) a.port) (s.fc + 10 + crossing op a) a RS_MISROUTED 0]
         ∧ t.fld ID_STATUS ID_STATUS_MISROUTE = 1 ∧ t.fld ID_MISROUTE_CNT ID_MISROUTE_CNT_COUNT = min (2 ^ 32 - 1) (s.fld ID_MISROUTE_CNT ID_MISROUTE_CNT_COUNT + 1)
         ∧ (s.fld ID_STATUS ID_STATUS_MISROUTE = 0 → t.fld ID_MISROUTE_ADDR ID_MISROUTE_ADDR_ADDR = a.addr.toNat
             ∧ t.fld ID_MISROUTE_ADDR ID_MISROUTE_ADDR_SRC = a.src.toNat)
         ∧ s.regsBut t [ID_STATUS, ID_MISROUTE_CNT, ID_MISROUTE_ADDR] ∧ s.sameCredits t
         ∧ t = { s with regs := t.regs, pins := t.pins, now := t.now, egress := t.egress, fresh := s.fresh + 1, rxCred := t.rxCred, ahead := [] })
     ∧ (∀ k op a, c = .misrouted k op a → k ≠ .req → s.takes a.port k → s.mine a.dst = false →
       ∃ t, exec c ⟨s, q⟩ = .next ⟨t, q⟩ ∧ t.fld ID_STATUS ID_STATUS_MISROUTE = 1
         ∧ t.fld ID_MISROUTE_CNT ID_MISROUTE_CNT_COUNT = min (2 ^ 32 - 1) (s.fld ID_MISROUTE_CNT ID_MISROUTE_CNT_COUNT + 1)
         ∧ (s.fld ID_STATUS ID_STATUS_MISROUTE = 0 → t.fld ID_MISROUTE_ADDR ID_MISROUTE_ADDR_ADDR = (if k = .fwd then a.addr.toNat else 0)
             ∧ t.fld ID_MISROUTE_ADDR ID_MISROUTE_ADDR_SRC = a.src.toNat)
         ∧ s.regsBut t [ID_STATUS, ID_MISROUTE_CNT, ID_MISROUTE_ADDR] ∧ s.sameCredits t
         ∧ t = { s with regs := t.regs, pins := t.pins, now := t.now, rxCred := t.rxCred, ahead := [] }))
  ∧ (∀ (s : Slice) (q : List Instr) (c : Instr) (op : BitVec 6) (a : Arr), c.request = some (op, a) → s.takes a.port .req →
       s.flag PC_CTRL PC_CTRL_EN = false → s.mine a.dst = true → (spaceOf op a = .phys → s.homeOf a.addr.toNat = s.id) →
       (s.ptState a.pid.toNat ≠ 2
         ∨ (spaceOf op a = .buf ∧ s.bufBytes a.pid.toNat ≤ a.addr.toNat)
         ∨ (spaceOf op a = .phys ∧ s.owner a.addr.toNat ≠ a.pid.toNat
             ∧ (a.pid ≠ 0 ∨ s.ptState (s.owner a.addr.toNat) ≠ 2 ∨ s.sealed (s.owner a.addr.toNat) = true))
         ∨ (spaceOf op a = .phys ∧ s.rdonly a.addr.toNat = true ∧ mayWrite op a = true)) →
       ∃ t, exec c ⟨s, q⟩ = .next ⟨t, q⟩
         ∧ t.egress = s.egress ++ [s.outRsp (if spaceOf op a = .desc then a.port else outPort (reqHalf op a) a.port) (s.fc + 10 + crossing op a) a RS_ACCESS_DENIED 0]
         ∧ t.fld (PT_DENY_CNT a.pid.toNat) PT_DENY_CNT_COUNT = min (2 ^ 32 - 1) (s.fld (PT_DENY_CNT a.pid.toNat) PT_DENY_CNT_COUNT + 1)
         ∧ (s.fld (PT_DENY a.pid.toNat) PT_DENY_VALID = 0 → t.fld (PT_DENY a.pid.toNat) PT_DENY_VALID = 1
             ∧ t.fld (PT_DENY a.pid.toNat) PT_DENY_ADDR = a.addr.toNat ∧ t.fld (PT_DENY a.pid.toNat) PT_DENY_SRC = a.src.toNat)
         ∧ s.regsBut t [PT_DENY_CNT a.pid.toNat, PT_DENY a.pid.toNat] ∧ s.sameCredits t
         ∧ t = { s with regs := t.regs, pins := t.pins, now := t.now, egress := t.egress, fresh := s.fresh + 1, rxCred := t.rxCred, ahead := [] })

/-! ### Partitions -/

/-- R45, R47: the result of an ACTIVATE is the first code that applies; an accepted one makes the entry ACTIVATING and ends flush walks (R313), with a pass over
its pinned ways if it has any, once the halves are awake as R315 asks; a refused one changes nothing else. R45, R59, R60, R56: RELEASE of an ACTIVE partition makes it RELEASING in phase DRAIN, with the
count and FLUSH recorded; in ACTIVATING it is accepted and waits; in RELEASING it is ignored; entry 0 and a FREE entry answer NOT_RELEASABLE. SEAL
acts in ACTIVATING and ACTIVE, and not in entry 0. -/
def Obligations.PartitionCommands : Prop :=
  (∀ (s : Slice) (q : List Instr) (p : Pid) (n : Node) (v : Word), s.ready = true →
     let k := p.toNat
     let pin := s.pinMask k
     let cache := BitVec.ofNat 16 (s.fld (PT_WAYS k) PT_WAYS_CACHE_MASK)
     let code :=
       if getF v PT_CTRL_RELEASE = 1 then 7
       else if s.ptState k ≠ 0 then 2
       else if k ≠ 0 ∧ s.flag ID_STATUS ID_STATUS_MAP_BAD = true then 3
       else if pin &&& (s.pinnedByOthers k ||| s.cachedByOthers k ||| s.shelfWays) ≠ 0 ∨ cache &&& (s.pinnedByOthers k ||| s.shelfWays) ≠ 0 then 4
       else if 14 < popcount (pin ||| s.pinnedWays ||| s.shelfWays) then 5
       else if cache &&& ~~~pin = 0 then 6
       else 1
     ∃ t, exec (.ptActivate p n v) ⟨s, q⟩ = .next ⟨t, q⟩ ∧ t.fld (PT_STATUS k) PT_STATUS_CMD_RESULT = code
       ∧ t.ptState k = (if code = 1 then 1 else s.ptState k)
       ∧ t.fld (PT_CTRL k) PT_CTRL_SWEEP_IRQ_EN = getF v PT_CTRL_SWEEP_IRQ_EN ∧ t.fld (PT_CTRL k) PT_CTRL_DENY_IRQ_EN = getF v PT_CTRL_DENY_IRQ_EN
       ∧ (s.sealed k = false → (t.sealed k = true ↔ getF v PT_CTRL_SEAL = 1 ∧ k ≠ 0 ∧ (t.ptState k = 1 ∨ t.ptState k = 2)))
       ∧ s.noted.regsBut t ([PT_CTRL k, PT_STATUS k] ++ logRegs ++ if code = 1 then [AG_PSTATE] else [])
       ∧ (if code = 1 then
           (∀ h, h < 2 → t.flag AG_PSTATE (flushField h) = false)
             ∧ (s.passOf p = none → t.walks.map Walk.kind = ((s.walks.map Walk.kind).filter (fun w => match w with
                   | .flush h => !(s.flag AG_PSTATE (flushField (b2n h)))
                   | _ => true)) ++ (if pin ≠ 0 ∧ t.halvesFor k = true then [.activate p pin] else []))
             ∧ t = { s.noted with regs := t.regs, pins := t.pins, now := t.now, wroteRegs := t.wroteRegs, half0 := t.half0, half1 := t.half1, walks := t.walks, fresh := t.fresh, ahead := [],
                                  errLog := t.errLog }
          else t = { s.noted with regs := t.regs, pins := t.pins, now := t.now, wroteRegs := t.wroteRegs, errLog := t.errLog, ahead := [] }))
  ∧ (∀ (s : Slice) (q : List Instr) (p : Pid) (n : Node) (v : Word), s.ready = true → s.calm → getF v PT_CTRL_ACTIVATE = 0 →
       let k := p.toNat
       let fl := decide (getF v PT_CTRL_FLUSH = 1)
       (∃ t, exec (.ptRelease p n v) ⟨s, q⟩ = .next ⟨t, q⟩ ∧
         (k = 0 ∨ s.ptState k = 0 → t.fld (PT_STATUS k) PT_STATUS_CMD_RESULT = 8 ∧ t.ptState k = s.ptState k) ∧
         (k ≠ 0 → s.ptState k = 3 → t.reg (PT_STATUS k) = s.reg (PT_STATUS k)) ∧
         (k ≠ 0 → s.ptState k = 1 → Tbl.at false s.relWait k = false → t.fld (PT_STATUS k) PT_STATUS_CMD_RESULT = 1 ∧ t.ptState k = 1
           ∧ Tbl.at false t.relWait k = true ∧ Tbl.at false t.relFlush k = fl) ∧
         (k ≠ 0 → s.ptState k = 2 → Tbl.at false s.relWait k = false → t.fld (PT_STATUS k) PT_STATUS_CMD_RESULT = 1 ∧ t.ptState k = 3
           ∧ t.fld (PT_STATUS k) PT_STATUS_PHASE = 0 ∧ t.flag (PT_CTRL k) PT_CTRL_ACTIVE = false ∧ t.reg (PT_SWEEP_START k) = s.count
           ∧ t.fld (PT_SWEEP_REC k) PT_SWEEP_REC_FLUSHED = getF v PT_CTRL_FLUSH ∧ Tbl.at false t.relFlush k = fl) ∧
         (∀ j, j < 16 → j ≠ k → t.reg (PT_STATUS j) = s.reg (PT_STATUS j)) ∧ t.victims = s.victims ∧ t.banks = s.banks
         ∧ (s.flag (EP_PSTATUS k) EP_PSTATUS_HARVEST = false → t.frames = s.frames))
       ∧ (getF v PT_CTRL_RELEASE = 0 → ∃ t, exec (.ptSeal p n v) ⟨s, q⟩ = .next ⟨t, q⟩
         ∧ t.sealed k = (s.sealed k || decide (k ≠ 0 ∧ (s.ptState k = 1 ∨ s.ptState k = 2)))
         ∧ s.noted.regsBut t ([PT_CTRL k] ++ logRegs) ∧ t = { s.noted with regs := t.regs, pins := t.pins, now := t.now, wroteRegs := t.wroteRegs, errLog := t.errLog, ahead := [] }))

/-- R47, R59, R60: the end of the activation pass makes the partition ACTIVE, or RELEASING where a release waits; the recall begins with no
transaction of the partition in flight, and requests that have parked meanwhile are orphaned (R218); its walk has every row and victim entry still to visit. -/
def Obligations.PartitionPhases : Prop :=
  ∀ (s : Slice) (q : List Instr) (p : Pid), s.calm →
    let k := p.toNat
    (s.ptState k = 1 → (∀ w, s.passOf p = some w → s.walkOver w = true) → (s.passOf p = none → s.pinMask k = 0) → s.halvesFor k = true →
      ∃ t, exec (.activationDone p) ⟨s, q⟩ = .next ⟨t, q⟩
        ∧ (Tbl.at false s.relWait k = true → t.ptState k = 3)
        ∧ (Tbl.at false s.relWait k = false → t.ptState k = 2 ∧ t.flag (PT_CTRL k) PT_CTRL_ACTIVE = true
            ∧ s.regsBut t [PT_STATUS k, PT_CTRL k] ∧ t = { s with regs := t.regs, pins := t.pins, now := t.now, ahead := [], frames := t.frames, walks := t.walks }
            ∧ (s.epochs k = false → t.frames = s.frames)))
    ∧ (s.ptState k = 3 → s.fld (PT_STATUS k) PT_STATUS_PHASE = 0 → s.inFlight k = false →
      ∃ t, exec (.sweepRecall p) ⟨s, q⟩ = .next ⟨t, q⟩ ∧ t.fld (PT_STATUS k) PT_STATUS_PHASE = 1 ∧ t.ptState k = 3
        ∧ t.walks = s.walks ++ [⟨s.fresh, .sweep p (Tbl.at false s.relFlush k), [], 0⟩]
        ∧ (let ws := s.waiters.filter (fun w => w.2.pid = p && !(s.leaving w.1))
           t.releases.map Release.slot = s.releases.map Release.slot ++ ws.map Prod.fst
             ∧ ∀ x ∈ t.releases.drop s.releases.length, getF x.msg.pl ⟨16, 4⟩ = ST_ORPHANED)
        ∧ (∀ d ∈ t.drains, d.2.pid ≠ p)
        ∧ s.regsBut t [PT_STATUS k] ∧ t = { s with regs := t.regs, pins := t.pins, now := t.now, ahead := [], walks := t.walks, fresh := s.fresh + 1,
                                                   releases := t.releases, drains := t.drains, egress := t.egress })
    ∧ (s.ptState k ≠ 3 ∨ s.fld (PT_STATUS k) PT_STATUS_PHASE ≠ 0 ∨ s.inFlight k = true →
      ∃ t, exec (.sweepRecall p) ⟨s, q⟩ = .next ⟨t, q⟩ ∧ s.regsOnly t ∧ s.regsBut t [])

/-- R60, R61: phase ZERO begins when the recall is over: no victim entry holds a line of the partition, no descriptor, waiter or drain names it, and a walk zeroes
its frames; each row that the walk visits holds no line of the partition from then on, and zeros in its pinned ways. R62: the sweep completes with DONE and the duration in its record, the state FREE, SEAL clear, and SL_IRQ_MGMT where it is enabled. -/
def Obligations.Sweep : Prop :=
  (∀ (s : Slice) (q : List Instr) (p : Pid) (w : Walk), s.calm → s.ptState p.toNat = 3 → s.fld (PT_STATUS p.toNat) PT_STATUS_PHASE = 1 →
     s.walkOf (fun k => match k with
       | .sweep r _ => r = p
       | _ => false) = some w → s.walkOver w = true →
     ∃ t, exec (.sweepZero p) ⟨s, q⟩ = .next ⟨t, q⟩ ∧ t.fld (PT_STATUS p.toNat) PT_STATUS_PHASE = 2 ∧ t.ptState p.toNat = 3
       ∧ t.walks = s.walks.filter (fun x => x.id != w.id) ++ [⟨s.fresh, .zero p, [], 0⟩]
       ∧ (∀ i x, (i, x) ∈ t.waiters → x.pid = p → s.leaving i = true) ∧ (∀ d ∈ t.drains, d.2.pid ≠ p)
       ∧ (∀ e v, (e, v) ∈ t.victims → getF v.frame.w0 T0_PID ≠ p.toNat)
       ∧ (∀ d, d < 32 → t.flag (AX_CFG d) AX_CFG_VALID = true → t.fld (AX_CFG d) AX_CFG_PID ≠ p.toNat)
       ∧ t.reg (PT_DENY_CNT p.toNat) = 0 ∧ t.reg (CZ_DEAD_CNT p.toNat) = 0 ∧ t.reg (PG_ENERGY p.toNat) = 0)
  ∧ (∀ (s : Slice) (p : Pid) (w : Walk) (bk g : Nat), s.calm → w.kind = .zero p → bk < 16 → w.at bk < 4096 →
       let row := w.at bk / 16
       let t := s.walkVisit w bk g
       (∀ way, way < 16 → let key := s.fkey (rowSet bk row) way
          (s.outsideCache way = false → getF (t.frame key).w0 T0_VALID = 1 → getF (t.frame key).w0 T0_PID ≠ p.toNat)
          ∧ ((s.pinMask p.toNat).getLsbD way = true → t.frame key = Frame.zero)
          ∧ (s.outsideCache way = false → getF (s.frame key).w0 T0_PID ≠ p.toNat → (s.pinMask p.toNat).getLsbD way = false → t.frame key = s.frame key))
       ∧ (∀ k, (∀ way, way < 16 → k ≠ s.fkey (rowSet bk row) way) → t.frame k = s.frame k)
       ∧ t.walks = s.walks.map (fun x => if x.id = w.id then { x with pos := Tbl.put 0 x.pos bk (w.at bk + 16) } else x)
       ∧ s.regsBut t [PT_SWEEP_REC p.toNat]
       ∧ t = { s with regs := t.regs, now := t.now, frames := t.frames, walks := t.walks })
  ∧ (∀ (s : Slice) (q : List Instr) (p : Pid), s.ptState p.toNat = 3 → s.fld (PT_STATUS p.toNat) PT_STATUS_PHASE = 2 →
       (∀ w, s.walkOf (fun k => k = .zero p) = some w → s.walkOver w = true) →
       ∃ t, exec (.sweepDone p) ⟨s, q⟩ = .next ⟨t, q⟩ ∧ t.ptState p.toNat = 0 ∧ t.fld (PT_SWEEP_REC p.toNat) PT_SWEEP_REC_DONE = 1
         ∧ t.fld (PT_SWEEP_REC p.toNat) PT_SWEEP_REC_DURATION = min 0x1FFFFF (s.count.toNat - (s.reg (PT_SWEEP_START p.toNat)).toNat)
         ∧ t.sealed p.toNat = false ∧ t.fld (PT_STATUS p.toNat) PT_STATUS_PHASE = 0
         ∧ (s.flag (PT_CTRL p.toNat) PT_CTRL_SWEEP_IRQ_EN = true → t.pins.mgmtMore = true)
         ∧ t.levelOf p.toNat = 0
         ∧ s.regsBut t ([PT_STATUS p.toNat, PT_CTRL p.toNat, PT_SWEEP_REC p.toNat] ++ if s.levelOf p.toNat = 0 then [] else [DG_TEVT, DG_TEVT_CNT])
         ∧ t = { s with regs := t.regs, pins := t.pins, now := t.now, ahead := [], walks := t.walks,
                        gov := { s.gov with levels := t.gov.levels, announced := t.gov.announced, hints := t.gov.hints, plan := t.gov.plan, heard := t.gov.heard } })

/-- R50, R49, R13: a region-map base is written while its entry is not valid; a limit is taken unless it lies below the base, or its range meets
another valid entry; what is refused leaves the entry, and shows in RM_STATUS and the error log. R24, R41: a write of ID_HM_DATA stores eight entries
of the home map at GROUP, and advances GROUP where AUTOINC is set; MAP_BAD then says whether an entry names an absent slice, once a roster has been
stored. -/
def Obligations.MapWrites : Prop :=
  (∀ (s : Slice) (q : List Instr) (i : Fin 64) (n : Node) (v : Word), s.ready = true →
     let lo := s.fld (RM_LO i.val) RM_LO_BASE
     let hi := getF v RM_HI_LIMIT
     let valid := s.flag (RM_HI i.val) RM_HI_VALID
     let own := s.fld (RM_HI i.val) RM_HI_PID
     let free := valid = false ∨ (if own = 0 then s.anyActive = false else s.ptActive own = false)
     let refused := fun (t : Slice) (f : Fld) => t.fld RM_STATUS f = 1 ∧ t.fld RM_STATUS RM_STATUS_INDEX = i.val
       ∧ s.noted.regsBut t ([RM_STATUS] ++ logRegs) ∧ t = { s.noted with regs := t.regs, pins := t.pins, now := t.now, wroteRegs := t.wroteRegs, errLog := t.errLog, ahead := [] }
     (∃ t, exec (.rmLoWrite i n v) ⟨s, q⟩ = .next ⟨t, q⟩
       ∧ (valid = false → t.fld (RM_LO i.val) RM_LO_BASE = getF v RM_LO_BASE ∧ s.noted.regsBut t [RM_LO i.val] ∧ s.noted.wroteOnly t)
       ∧ (valid = true → free → refused t RM_STATUS_BAD_RANGE)
       ∧ (valid = true → ¬free → t.fld RM_STATUS RM_STATUS_BAD_RANGE = 1 ∧ t.fld RM_STATUS RM_STATUS_INDEX = i.val ∧ t.fld (RM_LO i.val) RM_LO_BASE = lo
            ∧ s.noted.regsBut t ([RM_STATUS] ++ logRegs)))
     ∧ (∃ t, exec (.rmHiWrite i n v) ⟨s, q⟩ = .next ⟨t, q⟩ ∧
         (free → (getF v RM_HI_VALID = 0 ∨ getF v RM_HI_PID = 0 ∨ s.ptActive (getF v RM_HI_PID) = false) →
           (getF v RM_HI_VALID = 1 → hi < lo → refused t RM_STATUS_BAD_RANGE)
           ∧ (getF v RM_HI_VALID = 1 → lo ≤ hi → (∃ j, j < 64 ∧ j ≠ i.val ∧ s.flag (RM_HI j) RM_HI_VALID = true
               ∧ lo ≤ s.fld (RM_HI j) RM_HI_LIMIT ∧ s.fld (RM_LO j) RM_LO_BASE ≤ hi) → refused t RM_STATUS_OVERLAP)
           ∧ ((getF v RM_HI_VALID = 0 ∨ (lo ≤ hi ∧ ∀ j, j < 64 → j ≠ i.val → s.flag (RM_HI j) RM_HI_VALID = true →
                 s.fld (RM_HI j) RM_HI_LIMIT < lo ∨ hi < s.fld (RM_LO j) RM_LO_BASE)) →
               t.fld (RM_HI i.val) RM_HI_VALID = getF v RM_HI_VALID ∧ t.fld (RM_HI i.val) RM_HI_PID = getF v RM_HI_PID
               ∧ t.fld (RM_HI i.val) RM_HI_RDONLY = getF v RM_HI_RDONLY ∧ t.fld (RM_HI i.val) RM_HI_LIMIT = hi
               ∧ s.noted.regsBut t [RM_HI i.val] ∧ s.noted.wroteOnly t))))
  ∧ (∀ (s : Slice) (q : List Instr) (n : Node) (v : Word), s.ready = true → s.anyActive = false →
       let g := s.fld ID_HM_INDEX ID_HM_INDEX_GROUP
       ∃ t, exec (.idHmDataWrite n v) ⟨s, q⟩ = .next ⟨t, q⟩
         ∧ (∀ k, k < 8 → Tbl.at 0 t.homeMap (8 * g + k) = BitVec.ofNat 6 (getF v ⟨8 * k, 6⟩))
         ∧ (∀ j, (j < 8 * g ∨ 8 * g + 8 ≤ j) → Tbl.at 0 t.homeMap j = Tbl.at 0 s.homeMap j)
         ∧ t.fld ID_HM_INDEX ID_HM_INDEX_GROUP = (if s.flag ID_HM_INDEX ID_HM_INDEX_AUTOINC then (g + 1) % 128 else g)
         ∧ (s.start.rosterSeen = true → (t.flag ID_STATUS ID_STATUS_MAP_BAD = true ↔
             ∃ i, i < 1024 ∧ (s.reg RG_ROSTER).getLsbD (Tbl.at 0 t.homeMap i).toNat = false))
         ∧ s.noted.regsBut t [ID_HM_INDEX, ID_HM_CRC, ID_STATUS]
         ∧ t = { s.noted with regs := t.regs, pins := t.pins, now := t.now, wroteRegs := t.wroteRegs, homeMap := t.homeMap, hmCrc := t.hmCrc, ahead := [] })

/-- R90, R91, R136: on a line in a raw frame that no core holds, ZERO_LINE leaves zeros, valid and dirty in every sector; INVAL_LINE, and FLUSH_LINE
of a clean line, leave no line; CLEAN_LINE of a clean line changes nothing; CLEAN_LINE of a dirty line writes its dirty sectors to memory and waits
for MEM_ACK. A line that is nowhere is left so by the last three. R93, R94: a maintenance walk starts with its scope, every row still to visit, and its counts at
zero; a tag entry is in its scope by PID and range; a START while one runs is ignored; at its end BUSY clears, DONE is set, and SL_IRQ_MGMT is raised where it is enabled. -/
def Obligations.LinesOfTheHome : Prop :=
  (∀ (s : Slice) (q : List Instr) (c : Instr) (op : BitVec 6) (a : Arr) (lp : Nat) (fo : Bool), c.request = some (op, a) →
     (op = OP_ZERO_LINE ∨ op = OP_CLEAN_LINE ∨ op = OP_FLUSH_LINE ∨ op = OP_INVAL_LINE) → s.opens q op a lp fo →
     let line := lineNo a.addr.toNat
     let bk := bankKey (lineSet line)
     let g := s.slotFc
     let frame := fun (t : Slice) => s.regsBut t [] ∧ s.sameCredits t ∧
       t = { s with regs := t.regs, pins := t.pins, now := t.now, frames := t.frames, banks := t.banks, egress := t.egress, fresh := s.fresh + 1, txns := t.txns,
                    txnWait := t.txnWait, rxCred := t.rxCred, gov := { s.gov with activity := t.gov.activity }, grantsTotal := s.grantsTotal + 1, ahead := [] }
     (∀ key, s.rawAt lp line key 0 →
       let f := s.frame key
       let sd : BitVec 4 := BitVec.ofNat 4 (getF f.w0 T0_SD)
       (op = OP_CLEAN_LINE ∨ op = OP_FLUSH_LINE → sd ≠ 0 → ∀ i k, s.freeHte bk = some i → s.txnWait = [] → s.freeTxn = some k →
         ∃ t, exec c ⟨s, q⟩ = .next ⟨t, q⟩
           ∧ t.egress = s.egress ++ [⟨ansPort op a, g + 11, s.fresh, 31, true, ⟨.req, OP_MEM_WR, s.node (ansPort op a), 0x7FF, BitVec.ofNat 4 lp,
               BitVec.ofNat 10 k, false, 0, sd.setWidth 15, BitVec.ofNat 48 (line * 128), 0, (f.data &&& sectorMask sd).setWidth 1152⟩, none⟩]
           ∧ (t.hte bk i).st = .wMemAck ∧ (t.hte bk i).line = line ∧ t.frames = s.frames ∧ s.bankFrame t bk (some i) ∧ frame t)
       ∧ (op = OP_ZERO_LINE ∨ op = OP_INVAL_LINE ∨ sd = 0 →
         ∃ t, exec c ⟨s, q⟩ = .next ⟨t, q⟩ ∧ t.egress = s.egress ++ [s.outRsp (ansPort op a) (g + 17) a RS_COMP 0]
           ∧ t.frame key = (if op = OP_ZERO_LINE then ⟨rawW0 lp line 15 15 false, setF (0 : Word) T1_EPST (getF f.w1 T1_EPST), 0⟩
               else if op = OP_CLEAN_LINE then f else Frame.zero)
           ∧ s.framesBut t key ∧ s.bankFrame t bk none ∧ frame t))
     ∧ (op ≠ OP_ZERO_LINE → s.locate lp line = .absent → s.hteOf line = none →
         ∃ t, exec c ⟨s, q⟩ = .next ⟨t, q⟩ ∧ t.egress = s.egress ++ [s.outRsp (ansPort op a) (g + 17) a RS_COMP 0]
           ∧ t.frames = s.frames ∧ s.bankFrame t bk none ∧ frame t))
  ∧ (∀ (s : Slice) (q : List Instr), s.ready = true →
       (∀ (c : Instr) (op : Nat) (n : Node) (v : Word), (c = .maintClean n v ∧ op = 1) ∨ (c = .maintFlush n v ∧ op = 2) ∨ (c = .maintInval n v ∧ op = 3) →
         ∃ t, exec c ⟨s, q⟩ = .next ⟨t, q⟩ ∧ s.noted.regsBut t [CZ_MAINT_CTRL, CZ_MAINT_STATUS]
           ∧ t.fld CZ_MAINT_CTRL CZ_MAINT_CTRL_OP = op ∧ t.fld CZ_MAINT_CTRL CZ_MAINT_CTRL_SCOPE = getF v CZ_MAINT_CTRL_SCOPE
           ∧ t.fld CZ_MAINT_CTRL CZ_MAINT_CTRL_PID = getF v CZ_MAINT_CTRL_PID
           ∧ (s.flag CZ_MAINT_STATUS CZ_MAINT_STATUS_BUSY = true → t.reg CZ_MAINT_STATUS = s.reg CZ_MAINT_STATUS ∧ s.noted.wroteOnly t)
           ∧ (s.flag CZ_MAINT_STATUS CZ_MAINT_STATUS_BUSY = false → t.flag CZ_MAINT_STATUS CZ_MAINT_STATUS_BUSY = true
               ∧ t.fld CZ_MAINT_STATUS CZ_MAINT_STATUS_WRITTEN_BACK = 0 ∧ t.fld CZ_MAINT_STATUS CZ_MAINT_STATUS_INVALIDATED = 0
               ∧ t = { s.noted with regs := t.regs, pins := t.pins, now := t.now, wroteRegs := t.wroteRegs, walks := t.walks, fresh := s.fresh + 1, ahead := [] }
               ∧ t.walks = s.walks ++ [⟨s.fresh, .maint op (getF v CZ_MAINT_CTRL_SCOPE) (getF v CZ_MAINT_CTRL_PID) (s.fld CZ_MAINT_RANGE CZ_MAINT_RANGE_LO)
                   (s.fld CZ_MAINT_RANGE CZ_MAINT_RANGE_HI), [], 0⟩]))
       ∧ (∀ (scope pid lo hi : Nat) (w0 : Word), scope < 4 →
           (scopeHolds scope pid lo hi w0 = true ↔ (scope % 2 = 1 → getF w0 T0_PID = pid) ∧ (2 ≤ scope → lo ≤ getF w0 T0_TAG ∧ getF w0 T0_TAG ≤ hi)))
       ∧ (∀ w, s.walkOf (fun k => match k with
             | .maint _ _ _ _ _ => true
             | _ => false) = some w →
           (s.walkOver w = true → ∃ t, exec .maintWalkDone ⟨s, q⟩ = .next ⟨t, q⟩ ∧ t.flag CZ_MAINT_STATUS CZ_MAINT_STATUS_BUSY = false
             ∧ t.flag CZ_MAINT_STATUS CZ_MAINT_STATUS_DONE = true ∧ s.regsBut t [CZ_MAINT_STATUS]
             ∧ (s.flag CZ_MAINT_CTRL CZ_MAINT_CTRL_IRQ_EN = true → t.pins.mgmtMore = true)
             ∧ t = { s with regs := t.regs, pins := t.pins, now := t.now, walks := s.walks.filter (fun x => x.id != w.id), ahead := [] })
           ∧ (s.walkOver w = false → ∃ t, exec .maintWalkDone ⟨s, q⟩ = .next ⟨t, q⟩ ∧ s.regsOnly t ∧ s.regsBut t [])))

/-! ### Cache and coherence home -/

/-- R134, R136, R124, R32: a read of a line that a raw frame holds whole and no core holds is answered with DATA, 19 fc after its grant, with the
grant of R136; a cacheable grant is recorded in the directory and held in an HTE until COMP_ACK; nothing else of the line changes. -/
def Obligations.ReadHit : Prop :=
  ∀ (s : Slice) (q : List Instr) (c : Instr) (op : BitVec 6) (a : Arr) (lp : Nat) (fo : Bool) (key i : Nat), c.request = some (op, a) →
    (op = OP_RD_S ∨ op = OP_RD_X ∨ op = OP_UPG ∨ op = OP_RD_NC) → s.opens q op a lp fo →
    let line := lineNo a.addr.toNat
    let r : Req := ⟨op, a, lp, fo, false, s.fc⟩
    let bk := bankKey (lineSet line)
    let grant := if op = OP_RD_NC ∨ s.holder r = none then 0
      else if op = OP_RD_S then (if a.dclass = false ∧ s.rdonly a.addr.toNat = false then 3 else 2) else 4
    s.rawAt lp line key 0 → getF (s.frame key).w0 T0_SV = 15 → s.freeHte bk = some i →
    ∃ t, exec c ⟨s, q⟩ = .next ⟨t, q⟩
      ∧ t.egress = s.egress ++ [s.outDat (ansPort op a) (s.slotFc + 19) a DT_DATA (BitVec.ofNat 15 grant) ((s.frame key).data.setWidth 1152)]
      ∧ t.frame key = { s.frame key with w1 := if grant = 0 then (s.frame key).w1 else dirGrant (s.frame key).w1 grant ((s.holder r).getD 0) }
      ∧ s.framesBut t key ∧ s.regsBut t [] ∧ s.sameCredits t
      ∧ s.bankFrame t bk (if grant = 0 then none else some i)
      ∧ (grant ≠ 0 → t.hte bk i = { r.hte line .wAck grant true with fin := true })
      ∧ t = { s with regs := t.regs, pins := t.pins, now := t.now, frames := t.frames, repl := t.repl, banks := t.banks, egress := t.egress, fresh := s.fresh + 1,
                     rxCred := t.rxCred, gov := { s.gov with activity := t.gov.activity }, grantsTotal := s.grantsTotal + 1, ahead := [] }

/-- R83, R137, R279: a read of a line that is nowhere in the slice issues MEM_RD 11 fc after its grant, under the TXN of a fill-buffer entry, and
waits in W_MEM; no frame changes. -/
def Obligations.ReadMiss : Prop :=
  ∀ (s : Slice) (q : List Instr) (c : Instr) (op : BitVec 6) (a : Arr) (lp : Nat) (fo : Bool) (i k : Nat), c.request = some (op, a) →
    (op = OP_RD_S ∨ op = OP_RD_X ∨ op = OP_UPG ∨ op = OP_RD_NC) → s.opens q op a lp fo →
    let line := lineNo a.addr.toNat
    let r : Req := ⟨op, a, lp, fo, false, s.fc⟩
    let bk := bankKey (lineSet line)
    let m := s.classOf a.src.toNat
    s.locate lp line = .absent → s.hteOf line = none → s.alloc line lp 0 ≠ .wait .way → s.freeHte bk = some i →
    s.freeFill (bk / 8) a.pid.toNat = some k → s.fillLimited = false →
    ∃ t, exec c ⟨s, q⟩ = .next ⟨t, q⟩
      ∧ t.egress = s.egress ++ [⟨ansPort op a, s.slotFc + 11, s.fresh, m, false,
          ⟨.req, OP_MEM_RD, s.node (ansPort op a), 0x7FF, BitVec.ofNat 4 lp, BitVec.ofNat 10 (0x100 + k), false, 0, 0, BitVec.ofNat 48 (line * 128), 0, 0⟩, none⟩]
      ∧ Tbl.at Fill.none t.fills k = ⟨line, lp, a.pid.toNat, m, .hte (bk * 16 + i), false, 0, false⟩
      ∧ t.hte bk i = { r.hte line .wMem 0 false with kind := .request, upgComp := false }
      ∧ t.fld (BW_FILL_CNT m) BW_FILL_CNT_COUNT = min (2 ^ BW_FILL_CNT_COUNT.len - 1) (s.fld (BW_FILL_CNT m) BW_FILL_CNT_COUNT + 1)
      ∧ s.regsBut t [BW_FILL_CNT m] ∧ s.sameCredits t ∧ s.bankFrame t bk (some i)
      ∧ t = { s with regs := t.regs, pins := t.pins, now := t.now, fills := t.fills, banks := t.banks, egress := t.egress, fresh := s.fresh + 1,
                     rxCred := t.rxCred, gov := { s.gov with activity := t.gov.activity }, grantsTotal := s.grantsTotal + 1, ahead := [] }

/-- R72, R136, R139: a non-caching write, or the owner's writeback, merges its bytes into the raw frame, marks their sectors valid and dirty, leaves
no copy recorded, and is answered with COMP 17 fc after its grant; a writeback of any other node is answered and writes nothing. -/
def Obligations.WriteHit : Prop :=
  ∀ (s : Slice) (q : List Instr) (c : Instr) (op : BitVec 6) (a : Arr) (lp : Nat) (fo : Bool) (key : Nat), c.request = some (op, a) →
    (op = OP_WR_NC ∨ (op = OP_STASH ∧ a.hint.getLsbD 0 = false) ∨ op = OP_WB) → s.opens q op a lp fo →
    let line := lineNo a.addr.toNat
    let r : Req := ⟨op, a, lp, fo, false, s.fc⟩
    let f := s.frame key
    let sect := sectorsTouched r.mask
    let owns := ∃ x, s.holder r = some x ∧ getF f.w1 T1_HSTATE = 3 ∧ getF f.w1 T1_FWDPTR = x
    ((op ≠ OP_WB ∧ s.rawAt lp line key 0) ∨ (op = OP_WB ∧ ∃ hs, s.rawAt lp line key hs)) →
    sect &&& ~~~(BitVec.ofNat 4 (getF f.w0 T0_SV) ||| sectorsWhole r.mask) = 0 →
    ∃ t, exec c ⟨s, q⟩ = .next ⟨t, q⟩
      ∧ t.egress = s.egress ++ [s.outRsp (ansPort op a) (s.slotFc + 17) a RS_COMP 0]
      ∧ (op ≠ OP_WB ∨ owns → t.frame key = ⟨setF (setF f.w0 T0_SV (getF f.w0 T0_SV ||| sect.toNat)) T0_SD (getF f.w0 T0_SD ||| sect.toNat),
            clearDir f.w1, mergeLine (byteMask r.mask) r.data f.data⟩)
      ∧ (op = OP_WB → ¬owns → t.frame key = f)
      ∧ s.framesBut t key ∧ s.regsBut t [] ∧ s.sameCredits t ∧ s.bankFrame t (bankKey (lineSet line)) none
      ∧ t = { s with regs := t.regs, pins := t.pins, now := t.now, frames := t.frames, repl := t.repl, banks := t.banks, egress := t.egress, fresh := s.fresh + 1,
                     rxCred := t.rxCred, gov := { s.gov with activity := t.gov.activity }, grantsTotal := s.grantsTotal + 1, ahead := [] }

/-- R131, R137: COMP_ACK is matched by its source and TXN, and frees a granted entry; INV_ACK lowers PEND, and the last one makes the next step a
candidate 3 fc later (5 from the other half, R127); FWD_ACK is noted, and a FWD_CLEAN goes on; NACK_GONE is counted, and the home's own supply becomes
a candidate; dirty sectors of SNP_DATA are merged into the raw frame, valid and dirty; PUSH_ACK makes the core the owner, PUSH_DECLINE clears the
directory. -/
def Obligations.CoreAnswers : Prop :=
  ∀ (s : Slice) (q : List Instr) (a : Arr) (bk i : Nat),
    let e := s.hte bk i
    let named := a.txn.toNat < 256 ∧ bk = a.txn.toNat / 16 ∧ i = a.txn.toNat % 16
    let rest := fun (t : Slice) => s.answered t bk i ∧ t = { s with regs := t.regs, pins := t.pins, now := t.now, frames := t.frames, banks := t.banks, rxCred := t.rxCred, ansPort := none, ahead := [] }
    let next := fun (t : Slice) => (t.bank bk).conts = (s.bank bk).conts ++ [⟨s.contFrom a.port bk, none, .hte i⟩]
    let same := fun (t : Slice) => (t.bank bk).conts = (s.bank bk).conts
    (s.answers a .rsp bk → s.ackHte a = some (bk, i) → e.st = .wAck → e.fin = true → s.lastWait bk i →
      ∃ t, exec (.compAck a) ⟨s, q⟩ = .next ⟨t, q⟩ ∧ t.hte bk i = Hte.none ∧ same t ∧ t.frames = s.frames ∧ s.regsBut t [] ∧ rest t)
    ∧ (s.answers a .rsp bk → named → (e.st = .wInv ∨ e.st = .wRecall) → e.pend ≠ 0 →
      ∃ t, exec (.invAck a) ⟨s, q⟩ = .next ⟨t, q⟩ ∧ t.hte bk i = { e with pend := e.pend - 1 } ∧ (if e.pend = 1 then next t else same t)
        ∧ t.frames = s.frames ∧ s.regsBut t [] ∧ rest t)
    ∧ (s.answers a .rsp bk → named → e.st = .wFwd → e.gotAns = false →
      (e.fin = true → e.needAck = true → e.gotAck = false →
        ∃ t, exec (.fwdAck a) ⟨s, q⟩ = .next ⟨t, q⟩ ∧ t.hte bk i = { e with gotAns := true } ∧ same t ∧ t.frames = s.frames ∧ s.regsBut t [] ∧ rest t)
      ∧ (e.fin = false →
        ∃ t, exec (.fwdAck a) ⟨s, q⟩ = .next ⟨t, q⟩ ∧ t.hte bk i = { e with gotAns := true } ∧ next t ∧ t.frames = s.frames ∧ s.regsBut t [] ∧ rest t)
      ∧ (∃ t, exec (.nackGone a) ⟨s, q⟩ = .next ⟨t, q⟩ ∧ t.hte bk i = { e with gotAns := true, gone := true } ∧ next t
          ∧ t.fld CO_NACK_CNT CO_NACK_CNT_COUNT = min (2 ^ CO_NACK_CNT_COUNT.len - 1) (s.fld CO_NACK_CNT CO_NACK_CNT_COUNT + 1)
          ∧ t.frames = s.frames ∧ s.regsBut t [CO_NACK_CNT] ∧ rest t))
    ∧ (∀ key, s.answers a .dat bk → named → (e.st = .wInv ∨ e.st = .wRecall) → e.pend ≠ 0 → e.kind = .request → s.locate e.pid e.line = .frame key →
        getF (s.frame key).w0 T0_LAYOUT = 0 → s.epochs e.pid = false → a.smask ≠ 0 →
      ∃ t, exec (.snpData a) ⟨s, q⟩ = .next ⟨t, q⟩ ∧ t.hte bk i = { e with pend := e.pend - 1 } ∧ (if e.pend = 1 then next t else same t)
        ∧ t.frame key = ⟨setF (setF (s.frame key).w0 T0_SV (getF (s.frame key).w0 T0_SV ||| a.smask.toNat)) T0_SD
              (getF (s.frame key).w0 T0_SD ||| a.smask.toNat), (s.frame key).w1, mergeLine (byteMask (bytesOfSectors a.smask)) a.line (s.frame key).data⟩
        ∧ s.framesBut t key ∧ s.regsBut t [] ∧ rest t)
    ∧ (∀ key, s.answers a .rsp bk → named → e.st = .wPush → e.needAck = false → s.lastWait bk i → s.locate e.pid e.line = .frame key → s.epochs e.pid = false →
      (∃ t, exec (.pushAck a) ⟨s, q⟩ = .next ⟨t, q⟩ ∧ t.hte bk i = Hte.none ∧ same t ∧ t.frame key = { s.frame key with w1 := setOwner (s.frame key).w1 e.peer }
        ∧ t.fld CO_PUSH_CNT CO_PUSH_CNT_ACCEPTED = min (2 ^ CO_PUSH_CNT_ACCEPTED.len - 1) (s.fld CO_PUSH_CNT CO_PUSH_CNT_ACCEPTED + 1)
        ∧ s.framesBut t key ∧ s.regsBut t [CO_PUSH_CNT] ∧ rest t)
      ∧ (∃ t, exec (.pushDecline a) ⟨s, q⟩ = .next ⟨t, q⟩ ∧ t.hte bk i = Hte.none ∧ same t ∧ t.frame key = { s.frame key with w1 := clearDir (s.frame key).w1 }
        ∧ t.fld CO_PUSH_CNT CO_PUSH_CNT_DECLINED = min (2 ^ CO_PUSH_CNT_DECLINED.len - 1) (s.fld CO_PUSH_CNT CO_PUSH_CNT_DECLINED + 1)
        ∧ s.framesBut t key ∧ s.regsBut t [CO_PUSH_CNT] ∧ rest t))

/-- R84, R137: fill data answers a non-caching read 12 fc after it reaches ingress (14 on the other half) and is placed raw, all sectors valid and
clean, in the way that R76 chooses; the fill-buffer entry and the HTE free. R82, R91, R127: MEM_ACK frees the TXN of a writeback and makes its
continuation a candidate; a cleaned line keeps no dirty sector, a flushed one is gone. -/
def Obligations.MemoryAnswers : Prop :=
  ∀ (s : Slice) (q : List Instr) (a : Arr) (bk i : Nat),
    let e := s.hte bk i
    let rest := fun (t : Slice) => s.regsBut t [] ∧ s.answered t bk i ∧
      t = { s with regs := t.regs, pins := t.pins, now := t.now, frames := t.frames, repl := t.repl, banks := t.banks, rxCred := t.rxCred, fills := t.fills,
                   txns := t.txns, fillRegs := t.fillRegs, egress := t.egress, fresh := t.fresh, gov := { s.gov with activity := t.gov.activity },
                   grantsTotal := t.grantsTotal, ansPort := none, ahead := [] }
    (∀ (k w : Nat) (f : Fill) (r : Req), s.answers a .dat bk → a.txn.toNat = 0x100 + k → a.ext0.getLsbD 0 = false → s.fills = [(k, f)] → f.arrived = false →
        f.use = .hte (bk * 16 + i) → i < 16 → e.req = some r → r.op = OP_RD_NC → r.steward = false → e.pend = 0 → e.acks = 0 → e.arrived = false →
        (s.bank bk).conts = [] → k / 32 = bk / 8 → a.port.val / 2 = k / 32 → (s.coming q).uncontended bk = true → s.awake (k / 32) = true →
        s.locate f.pid f.line = .absent → s.alloc f.line f.pid 0 = .way w →
        getF (s.frame (s.fkey (lineSet f.line) w)).w0 T0_VALID = 0 → s.pidComp f.pid = false → s.epochs f.pid = false → s.accLine f.pid f.line = false →
        bankKey (lineSet f.line) = bk →
      ∃ t, exec (.memData a) ⟨s, q⟩ = .next ⟨t, q⟩
        ∧ t.egress = s.egress ++ [s.outDat r.port (s.fc + 12) r.a DT_DATA 0 (a.line.setWidth 1152)]
        ∧ t.frame (s.fkey (lineSet f.line) w) = ⟨rawW0 f.pid f.line 15 0 false, 0, a.line⟩ ∧ s.framesBut t (s.fkey (lineSet f.line) w)
        ∧ t.fills = [] ∧ t.hte bk i = Hte.none ∧ (t.bank bk).conts = [] ∧ rest t)
    ∧ (∀ (k : Nat) (f : Fill), s.takes a.port .dat → s.mine a.dst = true → s.calm → a.txn.toNat = 0x100 + k → a.ext0.getLsbD 0 = false → s.fills = [(k, f)] →
        f.arrived = false → f.use = .hte (bk * 16 + i) → i < 16 → s.fillWaits a.txn = false →
        (a.port.val / 2 ≠ k / 32 ∨ (s.coming q).uncontended bk = false ∨ s.awake (k / 32) = false) →
      ∃ t, exec (.memData a) ⟨s, q⟩ = .next ⟨t, q⟩ ∧ t.fills = [(k, { f with data := a.line })]
        ∧ t.inputs = insInput ⟨OP_MEM_FILL, { a with addr := BitVec.ofNat 48 (f.line * 128) }, f.pid, false, false, s.fc⟩ s.inputs
        ∧ (t.fillReg (k / 32)).sunk = (s.fillReg (k / 32)).sunk + 1 ∧ s.regsBut t [] ∧ s.sameCredits t
        ∧ t = { s with regs := t.regs, pins := t.pins, now := t.now, fills := t.fills, fillRegs := t.fillRegs, inputs := t.inputs, rxCred := t.rxCred,
                       ansPort := none, ahead := [] })
    ∧ (∀ key, s.answers a .rsp bk → a.ext0.getLsbD 0 = false → Tbl.at TxnUse.none s.txns a.txn.toNat = .wbHte bk i → i < 16 → s.txnWait = [] → e.leader = 0 →
        s.locate e.pid e.line = .frame key → getF (s.frame key).w0 T0_LAYOUT = 0 →
      ∃ t, exec (.memAck a) ⟨s, q⟩ = .next ⟨t, q⟩ ∧ Tbl.at TxnUse.none t.txns a.txn.toNat = TxnUse.none ∧ t.hte bk i = e
        ∧ (t.bank bk).conts = (s.bank bk).conts ++ [⟨s.contFrom a.port bk, none, .hte i⟩] ∧ t.egress = s.egress ∧ s.framesBut t key
        ∧ t.frame key = (if e.op = OP_CLEAN_LINE then { s.frame key with w0 := setF (s.frame key).w0 T0_SD 0 }
            else if e.op = OP_FLUSH_LINE then Frame.zero else s.frame key) ∧ rest t)

/-- R133: a FWD addressed to the slice, and an RSP or DAT whose kind its HTE does not expect, is discarded: it is recorded with type 0x0D, counted in
CO_VIOL_CNT and captured in CO_VIOL, and no HTE changes. -/
def Obligations.UnexpectedMessages : Prop :=
  ∀ (s : Slice) (q : List Instr) (a : Arr), s.mine a.dst = true → s.flag PC_CTRL PC_CTRL_EN = false →
    let noted := fun (t : Slice) (code addr : Nat) =>
      t.errLog = (s.logErr 0x0D (log1Addr addr a.src.toNat) a.pid.toNat).errLog
      ∧ t.fld CO_VIOL_CNT CO_VIOL_CNT_COUNT = min (2 ^ CO_VIOL_CNT_COUNT.len - 1) (s.fld CO_VIOL_CNT CO_VIOL_CNT_COUNT + 1)
      ∧ (s.flag CO_VIOL CO_VIOL_VALID = false → t.fld CO_VIOL CO_VIOL_VALID = 1 ∧ t.fld CO_VIOL CO_VIOL_CODE = code ∧ t.fld CO_VIOL CO_VIOL_SRC = a.src.toNat
          ∧ t.fld CO_VIOL CO_VIOL_ADDR = addr)
      ∧ s.regsBut t ([CO_VIOL_CNT, CO_VIOL] ++ logRegs) ∧ s.sameCredits t
      ∧ t = { s with regs := t.regs, pins := t.pins, now := t.now, errLog := t.errLog, rxCred := t.rxCred, ansPort := t.ansPort, ahead := [] }
    (∀ op, s.takes a.port .fwd → ∃ t, exec (.unmatched .fwd op a) ⟨s, q⟩ = .next ⟨t, q⟩ ∧ noted t 0 a.addr.toNat)
    ∧ (∀ c k, let e := s.hte (a.txn.toNat / 16) (a.txn.toNat % 16)
        let noInv := (e.st ≠ .wInv ∧ e.st ≠ .wRecall) ∨ e.pend = 0
        let noFwd := e.st ≠ .wFwd ∨ e.gotAns = true
        s.takes a.port k → a.txn.toNat < 256 → e.st ≠ .free →
        ((k = .rsp ∧ c = .invAck a ∧ noInv) ∨ (k = .rsp ∧ (c = .fwdAck a ∨ c = .nackGone a) ∧ noFwd)
          ∨ (k = .rsp ∧ (c = .pushAck a ∨ c = .pushDecline a) ∧ e.st ≠ .wPush) ∨ (k = .dat ∧ c = .snpData a ∧ noInv ∧ noFwd)) →
      ∃ t, exec c ⟨s, q⟩ = .next ⟨t, q⟩ ∧ noted t 1 (e.line * 128 % 2 ^ 48))
    ∧ (∀ op, s.takes a.port .rsp → s.hteByTxn a.txn.toNat = none → isErrorRsp op = true → Tbl.at TxnUse.none s.txns a.txn.toNat = TxnUse.none →
      ∃ t, exec (.unmatched .rsp op a) ⟨s, q⟩ = .next ⟨t, q⟩ ∧ t.errLog = (s.logErr 0x0D (log1Addr 0 a.src.toNat) a.pid.toNat).errLog
        ∧ s.regsBut t logRegs ∧ s.sameCredits t
        ∧ t = { s with regs := t.regs, pins := t.pins, now := t.now, errLog := t.errLog, rxCred := t.rxCred, ansPort := none, ahead := [] })

/-- R79, R80, R81: above VB_HIGH the oldest entry departs: a clean one that no core holds frees at once, a dirty one sends MEM_WR of its dirty sectors
and stays until the MEM_ACK; an entry with nothing outstanding frees and its kept answers leave; a recalled entry's frame goes back into the way of
R76 at a grant of the internal input, with no way eligible the entry stays (R81), and before its time, or without the bank's slot, nothing happens
(R27, R29). -/
def Obligations.VictimBuffer : Prop :=
  ∀ (s : Slice) (q : List Instr) (e : Fin 32), s.calm →
    let v := s.vict e.val
    let others := fun (t : Slice) => (∀ j, j ≠ e.val → t.vict j = s.vict j) ∧ s.regsBut t []
    (min 32 (s.fld CZ_CTRL CZ_CTRL_VB_HIGH) < s.victims.length → s.departing < 4 → oldestVict s.mayDepart = some e.val → s.copies v.frame.w1 = [] →
      ((getF v.frame.w0 T0_LAYOUT ≠ 0 ∨ getF v.frame.w0 T0_SD = 0) →
        ∃ t, exec .victimDeparture ⟨s, q⟩ = .next ⟨t, q⟩ ∧ t.vict e.val = Victim.none ∧ others t
          ∧ t = { s with regs := t.regs, pins := t.pins, now := t.now, victims := t.victims, ahead := [] })
      ∧ (∀ k, getF v.frame.w0 T0_LAYOUT = 0 → getF v.frame.w0 T0_SD ≠ 0 → s.txnWait = [] → s.freeTxn = some k →
        ∃ t o, exec .victimDeparture ⟨s, q⟩ = .next ⟨t, q⟩ ∧ t.egress = s.egress ++ [o] ∧ o.due = s.fc ∧ o.msg.op = OP_MEM_WR
          ∧ o.msg.ext0 = BitVec.ofNat 15 (getF v.frame.w0 T0_SD) ∧ o.msg.txn = BitVec.ofNat 10 k
          ∧ o.msg.pl = (s.victData e.val &&& sectorMask (BitVec.ofNat 4 (getF v.frame.w0 T0_SD))).setWidth 1152
          ∧ t.vict e.val = { v with depart := some ⟨NO_TXN, evenPort (halfOfSet v.setIdx), false, 0, true, false, []⟩ } ∧ others t))
    ∧ (s.victims.length ≤ min 32 (s.fld CZ_CTRL CZ_CTRL_VB_HIGH) → s.victimWaited = false →
        ∃ t, exec .victimDeparture ⟨s, q⟩ = .next ⟨t, q⟩ ∧ s.regsOnly t ∧ s.regsBut t [])
    ∧ (∀ d, v.depart = some d → (d.pend = 0 → d.writing = false → d.ans = [] →
          ∃ t, exec (.victimEntryFree e) ⟨s, q⟩ = .next ⟨t, q⟩ ∧ t.vict e.val = Victim.none ∧ others t
            ∧ t = { s with regs := t.regs, pins := t.pins, now := t.now, victims := t.victims, ahead := [] })
        ∧ ((d.pend ≠ 0 ∨ d.writing = true) → ∃ t, exec (.victimEntryFree e) ⟨s, q⟩ = .next ⟨t, q⟩ ∧ s.regsOnly t ∧ s.regsBut t []))
    ∧ (let granted := (s.coming q).innerGranted (bankKey v.setIdx) 2 && s.recallReady v
       let el := s.elig v.setIdx (getF v.frame.w0 T0_PID)
       let key := s.fkey v.setIdx (chooseWay (fun w => getF (s.frame (s.fkey v.setIdx w)).w0 T0_VALID = 1) (s.replBits v.setIdx) el)
       (granted = false → ∃ t, exec (.recallReinstate e) ⟨s, q⟩ = .next ⟨t, q⟩ ∧ s.regsOnly t ∧ s.regsBut t [])
       ∧ (granted = true → el = 0 →
           ∃ t, exec (.recallReinstate e) ⟨s, q⟩ = .next ⟨t, q⟩ ∧ t.vict e.val = { v with recalling := false } ∧ (∀ k, t.frame k = s.frame k) ∧ others t)
       ∧ (granted = true → el ≠ 0 → getF (s.frame key).w0 T0_VALID = 0 →
           ∃ t, exec (.recallReinstate e) ⟨s, q⟩ = .next ⟨t, q⟩ ∧ t.vict e.val = Victim.none ∧ t.frame key = v.frame ∧ s.framesBut t key ∧ others t))

/-- R125, R127: the oldest held request that is ready is granted and performed, and leaves the hold queue; the first continuation of a bank that is ready is
granted: that of a writeback sends the kept answer and frees its HTE. Where none is ready, or the bank's slot goes to another candidate, nothing happens (R27, R29).
R20, R21, R28: a request that the check stage admits waits at its input while it crosses, another candidate may take the slot, or something withholds it; an arbiter
whose only candidate it is grants it then, performs it and returns its credit. -/
def Obligations.ReplayAndContinuation : Prop :=
  (∀ (s : Slice) (q : List Instr) (half : Bool) (b : Fin 8), s.calm → s.save = none →
    let bk := b2n half * 8 + b.val
    let nothing := fun (c : Instr) => ∃ t, exec c ⟨s, q⟩ = .next ⟨t, q⟩ ∧ s.regsOnly t ∧ s.regsBut t []
    (s.replayAt bk = none ∨ (s.coming q).innerGranted bk 1 = false → nothing (.holdQueueReplay half b))
    ∧ (∀ h key, (s.bank bk).holdq = [h] → s.holdReady bk h = true → (s.coming q).innerGranted bk 1 = true → h.req.op = OP_RD_NC →
        h.line = lineNo h.req.a.addr.toNat → h.req.steward = false → bankKey (lineSet h.line) = bk → s.rawAt h.req.lp h.line key 0 → getF (s.frame key).w0 T0_SV = 15 →
      ∃ t, exec (.holdQueueReplay half b) ⟨s, q⟩ = .next ⟨t, q⟩ ∧ (t.bank bk).holdq = []
        ∧ t.egress = s.egress ++ [s.outDat h.req.port (s.slotFc + 19) h.req.a DT_DATA 0 ((s.frame key).data.setWidth 1152)]
        ∧ (∀ k, t.frame k = s.frame k) ∧ s.regsBut t []
        ∧ t = { s with regs := t.regs, pins := t.pins, now := t.now, repl := t.repl, banks := t.banks, egress := t.egress, fresh := s.fresh + 1,
                       gov := { s.gov with activity := t.gov.activity }, grantsTotal := s.grantsTotal + 1, ahead := [] })
    ∧ (s.contAt bk = none ∨ (s.coming q).innerGranted bk 2 = false → nothing (.continuationGrant half b))
    ∧ (∀ n i x, (s.bank bk).conts = [⟨n, none, .hte i⟩] → n ≤ s.slotFc → (s.coming q).innerGranted bk 2 = true → s.damped bk (s.contPid bk (.hte i)) = false →
        (s.hte bk i).st = .wMemAck → (s.hte bk i).kind = .request → (s.hte bk i).needAck = false →
        (s.hte bk i).pend = 0 → (s.hte bk i).acks = 0 → (s.hte bk i).arrived = false → s.fillOf bk i = none → (s.bank bk).holdq = [] →
        (s.hte bk i).ans = [x] →
      ∃ t, exec (.continuationGrant half b) ⟨s, q⟩ = .next ⟨t, q⟩ ∧ (t.bank bk).conts = [] ∧ t.hte bk i = Hte.none ∧ t.frames = s.frames
        ∧ t.egress = s.egress ++ [⟨x.port, s.slotFc + x.after, s.fresh, x.mclass, x.payload, { x.msg with src := s.node x.port }, none⟩]
        ∧ s.regsBut t []
        ∧ t = { s with regs := t.regs, pins := t.pins, now := t.now, banks := t.banks, egress := t.egress, fresh := s.fresh + 1,
                       gov := { s.gov with activity := t.gov.activity }, grantsTotal := s.grantsTotal + 1, ahead := [] }))
  ∧ (∀ (s : Slice) (q : List Instr) (c : Instr) (op : BitVec 6) (a : Arr) (lp : Nat) (fo : Bool), c.request = some (op, a) → op ≠ OP_ACC_ANCHOR →
      s.takes a.port .req → s.flag PC_CTRL PC_CTRL_EN = false → s.check op a = .accepts lp fo →
      let r : Req := ⟨op, a, lp, fo, false, s.fc⟩
      let u := if crossing op a = 0 then s.touchHalf (reqHalf op a) else s
      u.blocked r = true ∨ (isMulti op a = false ∧ (crossing op a ≠ 0 ∨ (u.coming q).uncontended (firstBank op a) = false)) →
      ∃ t, exec c ⟨s, q⟩ = .next ⟨t, q⟩ ∧ t.inputs = insInput r s.inputs ∧ s.regsBut t (if crossing op a = 0 then [AG_PSTATE] else [])
        ∧ (∀ p k, t.rxHeld p k = if (p, k) = (a.port, .req) then s.rxHeld p k - 1 else s.rxHeld p k)
        ∧ t = { u with regs := t.regs, pins := t.pins, now := t.now, inputs := t.inputs, rxCred := t.rxCred, ahead := [] })
  ∧ (∀ (s : Slice) (bk key : Nat) (r : Req), s.calm → bk < 16 → s.headsIn s.inputs bk = [r] → r ∈ s.inputs → s.innerAt bk = none →
      (s.bank bk).slotFree s.slotFc = true → r.op = OP_RD_NC → r.steward = false →
      s.rawAt r.lp (lineNo r.a.addr.toNat) key 0 → getF (s.frame key).w0 T0_SV = 15 →
      let t := s.arbitrate bk
      t.egress = s.egress ++ [s.outDat r.port (s.slotFc + 19) r.a DT_DATA 0 ((s.frame key).data.setWidth 1152)] ∧ t.inputs = s.inputs.erase r
        ∧ (∀ p k, t.rxHeld p k = if (p, k) = (r.a.port, .req) then s.rxHeld p k + 1 else s.rxHeld p k)
        ∧ (∀ k, t.frame k = s.frame k) ∧ s.regsBut t [])

/-! ### Pinned buffer -/

/-- R101, R106, R107, R108: a pinned read is answered 15 fc after its grant with the frame's bytes, zeros if the frame is dead, which is counted and
flagged; a pinned write is answered 13 fc after it and writes the sectors of SMASK, none with SMASK = 0; a write clears DEAD. A scheduled access that an
arbiter does not grant counts a conflict, and the first is captured. R102: an accepted multi-frame operation goes to the step generators at its grant stage
and touches no array of itself. R103, R104, R105: a step of the oldest one in a bank writes one whole frame, of the pattern, of the source frame, or a
dead frame of zeros; its last step is followed by COMP 13 fc after its last slot. -/
def Obligations.PinnedBuffer : Prop :=
  (∀ (s : Slice) (q : List Instr) (a : Arr) (lp : Nat) (fo : Bool),
     let key := s.bufKey lp a.addr.toNat
     let f := s.frame key
     let dead := s.pinDead lp a.addr.toNat (s.frameIn key) = true
     let frame := fun (t : Slice) (op : BitVec 6) => s.sameCredits t ∧ s.bankFrame t (firstBank op a) none ∧
       t = { s with regs := t.regs, pins := t.pins, now := t.now, frames := t.frames, banks := t.banks, egress := t.egress, fresh := s.fresh + 1,
                    rxCred := t.rxCred, gov := { s.gov with activity := t.gov.activity }, grantsTotal := s.grantsTotal + 1, ahead := [] }
     (s.opens q OP_PIN_RD a lp fo →
       ∃ t, exec (.pinRd a) ⟨s, q⟩ = .next ⟨t, q⟩
         ∧ t.egress = s.egress ++ [s.outDat (ansPort OP_PIN_RD a) (s.slotFc + 15) a DT_PIN_DATA 0
             ((if f.w0.getLsbD 0 then 0 else f.data).setWidth 1152)]
         ∧ (dead → t.flag CZ_DEADREAD ⟨lp, 1⟩ = true
             ∧ t.fld (CZ_DEAD_CNT lp) CZ_DEAD_CNT_COUNT = min (2 ^ CZ_DEAD_CNT_COUNT.len - 1) (s.fld (CZ_DEAD_CNT lp) CZ_DEAD_CNT_COUNT + 1))
         ∧ (f.w0.getLsbD 0 = true → dead)
         ∧ s.regsBut t (if dead then [CZ_DEADREAD, CZ_DEAD_CNT lp] else []) ∧ t.frames = s.frames ∧ frame t OP_PIN_RD)
     ∧ (s.opens q OP_PIN_WR a lp fo → (a.smask = 0 ∨ ¬(s.capturing lp = true ∧ getF f.w1 T1_EPST = s.epstFrozen lp)) →
       ∃ t, exec (.pinWr a) ⟨s, q⟩ = .next ⟨t, q⟩
         ∧ t.egress = s.egress ++ [s.outRsp (ansPort OP_PIN_WR a) (s.slotFc + 13) a RS_COMP 0]
         ∧ (a.smask = 0 → t.frame key = f)
         ∧ (a.smask ≠ 0 → t.frame key = ⟨0, if s.epochs lp then setF (0 : Word) T1_EPST (s.epstWritten lp) else 0,
               mergeLine (byteMask (bytesOfSectors a.smask)) a.line f.data⟩)
         ∧ s.framesBut t key ∧ s.regsBut t [] ∧ frame t OP_PIN_WR))
  ∧ (∀ (s : Slice) (bk : Nat) (r : Req), s.calm → s.headsIn s.inputs bk = [r] → r.scheduled = true → (s.bank bk).slotFree s.slotFc = false →
       let t := s.arbitrate bk
       t.fld CZ_CONFLICT_CNT CZ_CONFLICT_CNT_COUNT = min (2 ^ CZ_CONFLICT_CNT_COUNT.len - 1) (s.fld CZ_CONFLICT_CNT CZ_CONFLICT_CNT_COUNT + 1)
         ∧ (s.flag CZ_CONFLICT CZ_CONFLICT_VALID = false → t.flag CZ_CONFLICT CZ_CONFLICT_VALID = true ∧ t.fld CZ_CONFLICT CZ_CONFLICT_PID = r.lp % 16
             ∧ t.fld CZ_CONFLICT CZ_CONFLICT_HALF = bk / 8 % 2 ∧ t.fld CZ_CONFLICT CZ_CONFLICT_BANK = bk % 8
             ∧ t.fld CZ_CONFLICT CZ_CONFLICT_CAUSE = (if (s.bank bk).taken.contains (s.slotFc, 0) then 1 else 0))
         ∧ t.errLog = (s.logErr 0x07 (log1Addr r.a.addr.toNat r.a.src.toNat) r.lp).errLog ∧ s.regsBut t ([CZ_CONFLICT_CNT, CZ_CONFLICT] ++ logRegs)
         ∧ t = { s with regs := t.regs, now := t.now, pins := t.pins, errLog := t.errLog })
  ∧ (∀ (s : Slice) (q : List Instr),
       (∀ (c : Instr) (op : BitVec 6) (a : Arr) (lp : Nat) (fo : Bool), c.request = some (op, a) →
           (op = OP_PIN_FILL ∨ op = OP_PIN_COPY ∨ (op = OP_PIN_DROP ∧ a.as = false)) → s.takes a.port .req → s.flag PC_CTRL PC_CTRL_EN = false →
           s.check op a = .accepts lp fo → s.flag ID_CTRL ID_CTRL_QUIESCE = false →
           (crossing op a = 0 → s.awake (reqHalf op a) = true ∧ s.flag AG_PSTATE (flushField (reqHalf op a)) = false) →
         ∃ t, exec c ⟨s, q⟩ = .next ⟨t, q⟩
           ∧ t.pinOps = s.pinOps ++ [⟨⟨op, a, lp, fo, false, s.fc⟩, s.fc + 3 + crossing op a, a.count, [], [], false, s.fc + 3 + crossing op a⟩]
           ∧ s.regsBut t [] ∧ s.sameCredits t
           ∧ t = { s with regs := t.regs, pins := t.pins, now := t.now, pinOps := t.pinOps, rxCred := t.rxCred, ahead := [] })
       ∧ (∀ (half : Bool) (b : Fin 8) (o : PinOp) (rest : List PinOp), s.calm → s.pinOps = o :: rest → o.hasStep (b2n half * 8 + b.val) = true →
           s.epochs o.req.lp = false → (o.req.op = OP_PIN_FILL ∨ o.req.op = OP_PIN_COPY ∨ o.req.op = OP_PIN_DROP) →
           s.awake (b2n half) = true → s.flag AG_PSTATE (flushField (b2n half)) = false → o.stalled = [] →
           s.damped (b2n half * 8 + b.val) (some o.req.lp) = false → o.startIn (b2n half * 8 + b.val) ≤ s.slotFc →
           (s.coming q).innerGranted (b2n half * 8 + b.val) 2 = true →
         let bk := b2n half * 8 + b.val
         let n := stepFrame o.req.a.addr.toNat bk (o.doneIn bk)
         let key := s.bufKey o.req.lp (o.req.a.addr.toNat + 128 * n)
         let src := s.frame (s.bufKey o.req.lp (o.req.a.srcOff + 128 * n))
         let dead := o.req.op = OP_PIN_COPY
           ∧ s.pinDead o.req.lp (o.req.a.srcOff + 128 * n) (s.frameIn (s.bufKey o.req.lp (o.req.a.srcOff + 128 * n))) = true
         let g := (s.bankNow bk).firstRun s.slotFc (if o.req.op = OP_PIN_COPY then 2 else 1)
         let last := max o.last (g + if o.req.op = OP_PIN_COPY then 1 else 0)
         ∃ t, exec (.pinStep half b) ⟨s, q⟩ = .next ⟨t, q⟩
           ∧ t.frame key = ⟨if o.req.op = OP_PIN_DROP then 1 else 0, 0,
               if o.req.op = OP_PIN_FILL then fillPattern o.req.a.pl
               else if o.req.op = OP_PIN_DROP then 0 else if src.w0.getLsbD 0 then 0 else src.data⟩
           ∧ s.framesBut t key
           ∧ (2 ≤ o.left → t.egress = s.egress ∧ ∃ d, t.pinOps = { o with left := o.left - 1, done := d, last := last } :: rest.filter (fun x => x.left != 0)
               ∧ Tbl.at 0 d bk = o.doneIn bk + 1 ∧ ∀ j, j ≠ bk → Tbl.at 0 d j = o.doneIn j)
           ∧ (o.left = 1 → t.pinOps = rest.filter (fun x => x.left != 0)
               ∧ t.egress = s.egress ++ [s.outRsp o.req.port (last + 13) o.req.a (if o.err then RS_DATA_ERR else RS_COMP) 0])
           ∧ s.regsBut t (if dead then [CZ_DEADREAD, CZ_DEAD_CNT o.req.lp] else []) ∧ s.bankFrame t bk none
           ∧ t = { s with regs := t.regs, pins := t.pins, now := t.now, frames := t.frames, banks := t.banks, egress := t.egress, fresh := t.fresh, pinOps := t.pinOps,
                          gov := { s.gov with activity := t.gov.activity }, grantsTotal := s.grantsTotal + 1, ahead := [] })
       ∧ (∀ (half : Bool) (b : Fin 8), s.pinOps.any (fun o => o.hasStep (b2n half * 8 + b.val)) = false →
           ∃ t, exec (.pinStep half b) ⟨s, q⟩ = .next ⟨t, q⟩ ∧ s.regsOnly t ∧ s.regsBut t [])
       ∧ (∀ (a : Arr) (lp : Nat) (fo : Bool) (key : Nat), a.as = true → s.opens q OP_PIN_DROP a lp fo →
           let line := lineNo a.addr.toNat
           let f := s.frame key
           s.locate lp line = .frame key → s.hteOf line = none → s.rtFind key = none → getF f.w0 T0_LAYOUT = 0 → getF f.w1 T1_HSTATE = 0 → s.epochs lp = false →
         ∃ t, exec (.pinDrop a) ⟨s, q⟩ = .next ⟨t, q⟩
           ∧ t.egress = s.egress ++ [s.outRsp (ansPort OP_PIN_DROP a) (s.slotFc + 17) a RS_COMP 0]
           ∧ t.frame key = ⟨rawW0 lp line 15 15 (s.accLine lp line), setF (0 : Word) T1_EPST (getF f.w1 T1_EPST), deadLine (s.accFmt lp line)⟩
           ∧ s.framesBut t key ∧ s.regsBut t [] ∧ s.sameCredits t ∧ s.bankFrame t (bankKey (lineSet line)) none
           ∧ t = { s with regs := t.regs, pins := t.pins, now := t.now, frames := t.frames, repl := t.repl, banks := t.banks, egress := t.egress, fresh := s.fresh + 1,
                          rxCred := t.rxCred, gov := { s.gov with activity := t.gov.activity }, grantsTotal := s.grantsTotal + 1, ahead := [] }))

/-- R113: a fan-out read takes the frame's bytes into its entry, which is then busy; where every mapped target has a credit one is taken from each,
and the deliveries begin 15 fc after the grant; else they wait. R111: unmapped targets are counted. At the window's expiry the targets with a credit
are served first. -/
def Obligations.FanoutRead : Prop :=
  ∀ (s : Slice) (q : List Instr),
    (∀ (a : Arr) (lp : Nat) (fo : Bool), s.opens q OP_PIN_FANOUT a lp fo → s.fanBusy (getF a.ext0 ⟨0, 4⟩) = false →
      let k := getF a.ext0 ⟨0, 4⟩
      let f := s.frame (s.bufKey lp a.addr.toNat)
      let g := s.slotFc
      let want := (s.foTargets k).filter s.mapped
      let lost := ((s.foTargets k).filter (fun c => !(s.mapped c))).length
      let r : Req := ⟨OP_PIN_FANOUT, a, lp, fo, false, s.fc⟩
      ∃ t, exec (.pinFanout a) ⟨s, q⟩ = .next ⟨t, q⟩
        ∧ (let d := if f.w0.getLsbD 0 then 0 else f.data
           if want = [] then t.fanTx k = ⟨r, d, [], g + 7, true, g + 15, []⟩ ∧ ∀ c, t.foCredits c = s.foCredits c
           else if want.all (fun c => s.foUsable c (g + 7) != 0) then
             t.fanTx k = ⟨r, d, want.map (· + 1024), g + 7, true, g + 15, []⟩
             ∧ (∀ c, t.foCredits c = if want.contains c then s.foCredits c - 1 else s.foCredits c)
           else t.fanTx k = ⟨r, d, want, g + 7, false, 0, []⟩ ∧ ∀ c, t.foCredits c = s.foCredits c)
        ∧ t.fanBusy k = true ∧ t.fld (CZ_FO_CFG k) CZ_FO_CFG_PENDING = min 1023 want.length
        ∧ (∀ j, j ≠ k → t.fanTx j = s.fanTx j)
        ∧ t.fld CZ_FO_VIOL CZ_FO_VIOL_COUNT = min (2 ^ CZ_FO_VIOL_COUNT.len - 1) (s.fld CZ_FO_VIOL CZ_FO_VIOL_COUNT + lost)
        ∧ (want = [] → t.egress = s.egress ++ [s.outRsp (ansPort OP_PIN_FANOUT a) (g + 15) a RS_COMP 0]) ∧ (want ≠ [] → t.egress = s.egress)
        ∧ s.regsBut t ([CZ_FO_CFG k, CZ_FO_VIOL] ++ if s.pinDead lp a.addr.toNat (s.frameIn (s.bufKey lp a.addr.toNat)) then [CZ_DEADREAD, CZ_DEAD_CNT lp] else [])
        ∧ s.sameCredits t ∧ s.bankFrame t (firstBank OP_PIN_FANOUT a) none
        ∧ t = { s with regs := t.regs, pins := t.pins, now := t.now, banks := t.banks, fan := t.fan, foCred := t.foCred, rxCred := t.rxCred,
                       egress := t.egress, fresh := t.fresh, gov := { s.gov with activity := t.gov.activity }, grantsTotal := s.grantsTotal + 1, ahead := [] })
    ∧ (∀ k : Fin 16, let x := s.fanTx k.val
        (x ≠ FanTx.none → x.serving = false → x.ready + 256 ≤ s.fc → x.pend.Nodup → x.pend ≠ [] →
          ∃ t, exec (.fanoutWindowExpiry k) ⟨s, q⟩ = .next ⟨t, q⟩
            ∧ t.fanTx k.val = { x with pend := x.pend.map (fun c => if s.foUsable c s.fc = 0 then c else c + 1024), serving := true,
                                       next := s.fc + 8, lag := (t.fanTx k.val).lag }
            ∧ (∀ c, Tbl.at 0 (t.fanTx k.val).lag c = if x.pend.contains c && s.foUsable c s.fc = 0 then s.foSoonAt c s.fc else Tbl.at 0 x.lag c)
            ∧ (∀ c, t.foCredits c = if x.pend.contains c && s.foUsable c s.fc != 0 then s.foCredits c - 1 else s.foCredits c)
            ∧ s.regsBut t [CZ_FO_CFG k.val] ∧ t = { s with regs := t.regs, pins := t.pins, now := t.now, fan := t.fan, foCred := t.foCred, ahead := [] })
        ∧ (x = FanTx.none ∨ x.serving = true ∨ s.fc < x.ready + 256 → ∃ t, exec (.fanoutWindowExpiry k) ⟨s, q⟩ = .next ⟨t, q⟩ ∧ s.regsOnly t ∧ s.regsBut t []))

/-- R113, R114: a delivery goes to the first target whose credit is taken, else to the first of those that have a credit and can be delivered to first, no earlier
than the credit it waited for may be used, one an fc on each port, those of a lower entry first; the last is followed by COMP one fc later, in which the entry
frees. R112: FO_CREDIT adds credits to the core of its source, at most 7; a source of no core is discarded; an
excess and a discard are counted and logged. FO_CREDIT_INIT gives every core its value; a write of CZ_FO_CRED_VAL sets the selected core's. R115:
ABORT ends a busy entry at once, counts what was not delivered and answers BAD_TARGET. -/
def Obligations.FanoutDelivery : Prop :=
  (∀ (s : Slice) (q : List Instr) (k : Fin 16) (c : Nat) (res : Bool), s.flag PC_CTRL PC_CTRL_EN = false →
     let x := s.fanTx k.val
     let core := c % 1024
     let first := fun (y : Nat) => max (max x.next s.fc) (Tbl.at 0 x.lag y)
     let due0 := if res then max x.next s.fc else first c
     let due := max due0 (Tbl.at 0 s.foPort x.req.port.val)
     let a := x.req.a
     let rest := x.pend.filter (fun y => y != c)
     x ≠ FanTx.none → x.serving = true → s.foAfter k.val due0 = false →
     (if res then x.pend.find? (fun y => decide (1024 ≤ y)) = some c
       else x.pend.find? (fun y => decide (1024 ≤ y)) = none
         ∧ x.pend.find? (fun y => s.foCredits y != 0 && x.pend.all (fun z => s.foCredits z = 0 || decide (first y ≤ first z))) = some c) →
     ∃ t o, exec (.foData k) ⟨s, q⟩ = .next ⟨t, q⟩
       ∧ o = ⟨x.req.port, due, s.fresh, s.classOf a.src.toNat, true,
           ⟨.dat, DT_FO_DATA, s.node x.req.port, BitVec.ofNat 11 ((s.nodeOf core).getD 0), BitVec.ofNat 4 (s.fld (CZ_FO_CFG k.val) CZ_FO_CFG_PID), a.txn, false, 0,
             (a.ext1.extractLsb' 0 12).setWidth 15, 0, 0, x.data.setWidth 1152⟩, none⟩
       ∧ (rest ≠ [] → t.egress = s.egress ++ [o] ∧ t.fanTx k.val = { x with pend := rest, next := due + 1 } ∧ t.fanBusy k.val = true)
       ∧ (rest = [] → (∃ m, t.egress = s.egress ++ [o, m] ∧ m.due = due + 1 ∧ m.msg.op = RS_COMP ∧ m.msg.dst = a.src ∧ m.msg.txn = a.txn)
           ∧ t.fanTx k.val = { x with pend := [], next := due + 1 } ∧ t.fanBusy k.val = true ∧ (t.foFree.fanBusy k.val = true ↔ t.fc < due + 1))
       ∧ Tbl.at 0 t.foPort x.req.port.val = due + 1
       ∧ (∀ j, t.foCredits j = if res = false ∧ j = core ∧ c < 1024 then s.foCredits j - 1 else s.foCredits j)
       ∧ (∀ j, j ≠ k.val → t.fanTx j = s.fanTx j) ∧ s.regsBut t [CZ_FO_CFG k.val]
       ∧ t = { s with regs := t.regs, pins := t.pins, now := t.now, egress := t.egress, fresh := t.fresh, fan := t.fan, foCred := t.foCred, foPort := t.foPort, ahead := [] })
  ∧ (∀ (s : Slice) (q : List Instr),
       (∀ a : Arr, s.takes a.port .rsp → s.mine a.dst = true → s.flag PC_CTRL PC_CTRL_EN = false → s.fan = [] →
         let n := fun c => s.foCredits c + getF a.ext0 ⟨0, 3⟩
         let bad := s.coreOf a.src.toNat = none ∨ ∃ c, s.coreOf a.src.toNat = some c ∧ 7 < n c
         ∃ t, exec (.foCredit a) ⟨s, q⟩ = .next ⟨t, q⟩
           ∧ (∀ c, t.foCredits c = if s.coreOf a.src.toNat = some c ∧ s.wroteNow (foWroteKey c) = false then min 7 (n c) else s.foCredits c)
           ∧ (∀ c, s.coreOf a.src.toNat = some c → s.wroteNow (foWroteKey c) = false → t.foUsable c s.fc = s.foUsable c s.fc)
           ∧ (bad → t.fld CZ_FO_VIOL CZ_FO_VIOL_COUNT = min (2 ^ CZ_FO_VIOL_COUNT.len - 1) (s.fld CZ_FO_VIOL CZ_FO_VIOL_COUNT + 1)
               ∧ t.errLog = (s.logErr 0x0E (log1Addr 0 a.src.toNat) 0).errLog ∧ s.regsBut t ([CZ_FO_VIOL] ++ logRegs))
           ∧ (¬bad → t.errLog = s.errLog ∧ s.regsBut t [])
           ∧ s.sameCredits t ∧ t = { s with regs := t.regs, pins := t.pins, now := t.now, foCred := t.foCred, foSoon := t.foSoon, errLog := t.errLog, rxCred := t.rxCred, ansPort := t.ansPort, ahead := [] })
       ∧ (∀ (n : Node) (v : Word), s.ready = true → s.anyActive = false → s.fan = [] →
         ∃ t, exec (.foCreditInitWrite n v) ⟨s, q⟩ = .next ⟨t, q⟩ ∧ t.fld CZ_PIN_CTRL CZ_PIN_CTRL_FO_CREDIT_INIT = getF v CZ_PIN_CTRL_FO_CREDIT_INIT
           ∧ (∀ c, t.foCredits c = getF v CZ_PIN_CTRL_FO_CREDIT_INIT) ∧ s.noted.regsBut t [CZ_PIN_CTRL]
           ∧ t = { s.noted with regs := t.regs, pins := t.pins, now := t.now, wroteRegs := t.wroteRegs, foCred := t.foCred, foSoon := t.foSoon, ahead := [] })
       ∧ (∀ (n : Node) (v : Word) (k : Nat) (x : FanTx), s.ready = true → s.anyActive = false → s.fan = [(k, x)] → k < 16 → x.serving = false → x.pend ≠ [] →
           getF v CZ_PIN_CTRL_FO_CREDIT_INIT ≠ 0 →
         ∃ t, exec (.foCreditInitWrite n v) ⟨s, q⟩ = .next ⟨t, q⟩ ∧ (t.fanTx k).serving = true ∧ (t.fanTx k).next = max s.fc x.ready + 8
           ∧ ∀ c, t.foCredits c = getF v CZ_PIN_CTRL_FO_CREDIT_INIT - if x.pend.contains c then 1 else 0)
       ∧ (∀ (n : Node) (v : Word), s.ready = true → s.fan = [] →
         ∃ t, exec (.foCredValWrite n v) ⟨s, q⟩ = .next ⟨t, q⟩
           ∧ (∀ c, t.foCredits c = if c = s.fld CZ_FO_CRED_SEL CZ_FO_CRED_SEL_CORE then getF v CZ_FO_CRED_VAL_COUNT else s.foCredits c)
           ∧ t.wroteNow (foWroteKey (s.fld CZ_FO_CRED_SEL CZ_FO_CRED_SEL_CORE)) = true
           ∧ s.noted.regsBut t [] ∧ t = { s.noted with regs := t.regs, pins := t.pins, now := t.now, wroteRegs := t.wroteRegs, foCred := t.foCred,
                                                       foSoon := t.foSoon, ahead := [] })
       ∧ (∀ (k : Fin 16) (n : Node) (v : Word), s.ready = true → s.fanTx k.val ≠ FanTx.none → ¬((s.fanTx k.val).serving = true ∧ (s.fanTx k.val).pend = []) →
         let x := s.fanTx k.val
         ∃ t, exec (.foAbort k n v) ⟨s, q⟩ = .next ⟨t, q⟩
           ∧ (∃ o, t.egress = s.egress ++ [o] ∧ o.due = s.fc ∧ o.port = x.req.port ∧ o.msg.op = RS_BAD_TARGET ∧ o.msg.dst = x.req.a.src ∧ o.msg.txn = x.req.a.txn)
           ∧ t.fanTx k.val = FanTx.none ∧ t.fanBusy k.val = false ∧ t.fld (CZ_FO_CFG k.val) CZ_FO_CFG_DROPPED = min 0x3FF x.pend.length
           ∧ t.fld (CZ_FO_CFG k.val) CZ_FO_CFG_PENDING = 0 ∧ (∀ j, j ≠ k.val → t.fanTx j = s.fanTx j) ∧ s.noted.regsBut t ([CZ_FO_CFG k.val] ++ logRegs)
           ∧ t = { s.noted with regs := t.regs, pins := t.pins, now := t.now, wroteRegs := t.wroteRegs, errLog := t.errLog, egress := t.egress, fresh := s.fresh + 1, fan := t.fan, ahead := [] })
       ∧ (∀ (k : Fin 16) (n : Node) (v : Word), s.ready = true → (s.fanTx k.val = FanTx.none ∨ ((s.fanTx k.val).serving = true ∧ (s.fanTx k.val).pend = [])) →
         ∃ t, exec (.foAbort k n v) ⟨s, q⟩ = .next ⟨t, q⟩ ∧ s.noted.regsBut t ([CZ_FO_CFG k.val] ++ logRegs)
           ∧ t = { s.noted with regs := t.regs, pins := t.pins, now := t.now, wroteRegs := t.wroteRegs, errLog := t.errLog, ahead := [] }))

/-! ### Exact accumulation -/

/-- R160, R162, R164: an accumulation request adds its contributions, or merges its partials, into the elements of its span, and is answered with COMP
17 fc after its last grant; SAT and NFIN say whether one was clamped or non-finite. R153: AX_STATUS of the covering descriptor takes the flags. R106,
R156: each dead frame or line read is flagged. -/
def Obligations.Accumulate : Prop :=
  ∀ (s : Slice) (q : List Instr) (c : Instr) (op : BitVec 6) (a : Arr) (lp : Nat) (fo : Bool) (key : Nat → Nat), c.request = some (op, a) →
    (op = OP_ACC_ADD ∨ op = OP_ACC_ADD_S ∨ op = OP_ACC_MERGE) → s.opens q op a lp fo → s.alone q → s.inPlace op a lp key →
    let x := axaOf a.format
    let n := spanFrames op a
    let cs := if op = OP_ACC_MERGE then [] else contribs op a
    let old := fun j => s.opData a (key j)
    let new := fun j => if op = OP_ACC_MERGE then mergeEls x (old j) a.line else addLine x (old j) ((cs.drop (j * x.perLine)).take x.perLine)
    let sat := (cs.filter (fun k => k.sat)).length
    let nf := if op = OP_ACC_MERGE then (List.range x.perLine).any (fun i => (elAt x a.line i).partialNf) else cs.any (fun k => k.nf)
    let dead := (List.range n).any (fun j => (a.pin && (s.frame (key j)).w0.getLsbD 0) || anyDead x (old j))
    ∃ t, exec c ⟨s, q⟩ = .next ⟨t, q⟩
      ∧ t.egress = s.egress ++ [s.outRsp (ansPort op a) (s.lastGrant op a + 17) a RS_COMP (accComp (sat != 0) nf)]
      ∧ (∀ j, j < n → t.frame (key j) = s.opFrame a (key j) 15 (new j))
      ∧ (∀ d, s.spanDesc op a = some d →
          t.fld (AX_STATUS d) AX_STATUS_SAT_CNT = min (2 ^ 32 - 1) (s.fld (AX_STATUS d) AX_STATUS_SAT_CNT + sat)
          ∧ t.flag (AX_STATUS d) AX_STATUS_SAT = (s.flag (AX_STATUS d) AX_STATUS_SAT || sat != 0)
          ∧ t.flag (AX_STATUS d) AX_STATUS_NF = (s.flag (AX_STATUS d) AX_STATUS_NF || nf)
          ∧ t.flag (AX_STATUS d) AX_STATUS_CNT = (s.flag (AX_STATUS d) AX_STATUS_CNT || (List.range n).any (fun j => anyClass x (new j) .ceiling)))
      ∧ (dead = true → t.flag CZ_DEADREAD ⟨lp, 1⟩ = true)
      ∧ s.regsBut t ((if dead then deadRegs lp else []) ++ ((s.spanDesc op a).map AX_STATUS).toList) ∧ s.operated t n key

/-- R167, R168, R169: a finalize is answered with the rounded values of its run, 21 fc after its last read slot and 2 more for MXFP8, with what its
elements were in EXT0. R170: with ZERO it leaves zeros; else the elements stay. R244: a digested region that feeds from finalizes absorbs the answer. -/
def Obligations.Finalize : Prop :=
  ∀ (s : Slice) (q : List Instr) (c : Instr) (op : BitVec 6) (a : Arr) (lp : Nat) (fo : Bool) (key : Nat → Nat), c.request = some (op, a) →
    (op = OP_ACC_FIN ∨ op = OP_ACC_FIN_FUSE) → s.opens q op a lp fo → s.alone q → s.inPlace op a lp key →
    let x := axaOf a.format
    let n := spanFrames op a
    let els := (List.range n).flatMap (fun j => (List.range x.perLine).map (elAt x (s.opData a (key j))))
    let ws := ((List.range els.length).zip els).map (fun ie => finValue x a.anchor ie.2 a.strict (fuseOperand ⟨op, a, lp, fo, false, s.fc⟩ ie.1))
    let has := fun (k : ElClass) => els.any (fun e => e.cls x = k)
    let deadF := fun j => a.pin && (s.frame (key j)).w0.getLsbD 0
    let dead := has .dead || (List.range n).any deadF
    let pl := finPayload a.fmt3 ws
    let entry := s.dgEntry lp (if a.pin then 1 else 0) (a.addr.toNat / 128)
    let fed := entry.any (fun r => s.flag (DG_REG_LO r) DG_REG_LO_FEED_FIN)
    let late := (if a.pin then 0 else (if a.zero then 2 else 1) * (n - 1)) + (if 3 ≤ a.fmt3 then 2 else 0)
      + if fed then max s.hashFree s.fc - s.fc - 15 else 0
    ∃ t, exec c ⟨s, q⟩ = .next ⟨t, q⟩
      ∧ t.egress = s.egress ++ [s.outDat (ansPort op a) (s.lastGrant op a + 21 + late) a DT_ACC_DATA
          (BitVec.ofNat 15 (b2n (has .nf) + 2 * b2n (has .ceiling) + 4 * b2n dead)) pl]
      ∧ (∀ j, j < n → t.frame (key j) = if a.zero then s.opFrame a (key j) 15 0 else s.opRead a (key j))
      ∧ (dead = true → t.flag CZ_DEADREAD ⟨lp, 1⟩ = true)
      ∧ (∀ r, entry = some r → fed = true → t.hashFree = max s.hashFree s.fc + 1 ∧ ∀ j, j < 4 →
          t.fld (DG_LANE lp j) DG_LANE_VALUE = (s.fld (DG_LANE lp j) DG_LANE_VALUE % cairnP
            + cairnHash (s.fld (DG_REG_HI r) DG_REG_HI_TAG) (a.addr.toNat / 128 - s.fld (DG_REG_LO r) DG_REG_LO_BASE) (pl.extractLsb' 0 1024)
                (s.fld (DG_KEY lp j) DG_KEY_KEY % cairnP)) % cairnP)
      ∧ (fed = false → t.hashFree = s.hashFree)
      ∧ s.regsBut t ((if dead then deadRegs lp else []) ++ if fed then (List.range 4).map (DG_LANE lp) else [])
      ∧ s.operated { t with hashFree := s.hashFree } n key

/-- R166: EXPMAX raises a signed word to the largest exponent of its inputs. R165: ACC_ANCHOR rewrites ANCHOR of a descriptor and nothing else. R176,
R177: a descriptor write takes effect unless the descriptor is sealed or its range is refused; its range is written while VALID = 0; clearing SAT
zeroes SAT_CNT. -/
def Obligations.ExpmaxAndDescriptors : Prop :=
  ∀ (s : Slice) (q : List Instr),
    (∀ (a : Arr) (lp : Nat) (fo : Bool) (key : Nat → Nat), s.opens q OP_EXPMAX a lp fo → s.alone q → s.inPlace OP_EXPMAX a lp key →
      let o := a.addr.toNat % 128 / 4 * 4
      let old := s.opData a (key 0)
      let word := sext 32 (bytesAt old o 4)
      let top := match (expMaxOf a).1 with
        | none => word
        | some e => max word e
      ∃ t, exec (.expmax a) ⟨s, q⟩ = .next ⟨t, q⟩
        ∧ t.egress = s.egress ++ [s.outRsp (ansPort OP_EXPMAX a) (s.slotFc + 17) a RS_COMP (accComp false (expMaxOf a).2)]
        ∧ t.frame (key 0) = s.opFrame a (key 0) (sectorOf a.addr.toNat) (setBytes old o 4 (wrapN 32 top))
        ∧ s.regsBut t (if a.pin && (s.frame (key 0)).w0.getLsbD 0 then deadRegs lp else []) ∧ s.operated t 1 key)
    ∧ (∀ (a : Arr) (lp : Nat) (fo : Bool), s.takes a.port .req → s.flag PC_CTRL PC_CTRL_EN = false → s.check OP_ACC_ANCHOR a = .accepts lp fo →
      let d := a.addr.toNat % 32
      ∃ t, exec (.accAnchor a) ⟨s, q⟩ = .next ⟨t, q⟩ ∧ t.egress = s.egress ++ [s.outRsp a.port (s.fc + 20) a RS_COMP 0]
        ∧ t.fld (AX_CFG d) AX_CFG_ANCHOR = (if s.wroteNow (AX_CFG d) then s.fld (AX_CFG d) AX_CFG_ANCHOR else getF a.ext1 ⟨0, 10⟩)
        ∧ (∀ f : Fld, f ∈ [AX_CFG_PID, AX_CFG_FORMAT, AX_CFG_KIND, AX_CFG_VALID] → t.fld (AX_CFG d) f = s.fld (AX_CFG d) f)
        ∧ t.anchorOf d = s.anchorOf d ∧ s.regsBut t [AX_CFG d] ∧ s.sameCredits t
        ∧ t = { s with regs := t.regs, pins := t.pins, now := t.now, egress := t.egress, fresh := s.fresh + 1, rxCred := t.rxCred, anchors := t.anchors,
                       ahead := [] })
    ∧ (∀ (d : Fin 32) (n : Node) (v : Word), s.ready = true → s.axSealed (AX_CFG 0) d.val = false →
        s.lockedReg (AX_CFG 0) d.val = false → s.takesActive (AX_CFG 0) d.val v = false →
      ∃ t, exec (.axCfgWrite d n v) ⟨s, q⟩ = .next ⟨t, q⟩ ∧ t = { s.noted with regs := t.regs, pins := t.pins, now := t.now, wroteRegs := t.wroteRegs, ahead := [] }
        ∧ (s.axBad d.val v = none → s.noted.regsBut t [AX_CFG d.val]
            ∧ ∀ f : Fld, f ∈ [AX_CFG_PID, AX_CFG_ANCHOR, AX_CFG_FORMAT, AX_CFG_KIND, AX_CFG_VALID] → t.fld (AX_CFG d.val) f = getF v f)
        ∧ (∀ k, s.axBad d.val v = some k → s.noted.regsBut t [AX_VIOL_CNT, AX_VIOL]
            ∧ t.fld AX_VIOL_CNT AX_VIOL_CNT_COUNT = min (2 ^ 32 - 1) (s.fld AX_VIOL_CNT AX_VIOL_CNT_COUNT + 1)
            ∧ (s.flag AX_VIOL AX_VIOL_VALID = false → t.fld AX_VIOL AX_VIOL_CAUSE = k ∧ t.fld AX_VIOL AX_VIOL_ADDR = d.val)))
    ∧ (∀ (d : Fin 32) (n : Node) (v : Word), s.ready = true → s.axSealed (AX_CFG 0) d.val = false →
        (s.lockedReg (AX_CFG 0) d.val = true ∨ s.takesActive (AX_CFG 0) d.val v = true) → s.axBad d.val v = none →
      ∃ t, exec (.axCfgWrite d n v) ⟨s, q⟩ = .next ⟨t, q⟩ ∧ t.fld (AX_CFG d.val) AX_CFG_ANCHOR = getF v AX_CFG_ANCHOR
        ∧ (∀ f : Fld, f ∈ [AX_CFG_PID, AX_CFG_FORMAT, AX_CFG_KIND, AX_CFG_VALID] → t.fld (AX_CFG d.val) f = s.fld (AX_CFG d.val) f)
        ∧ s.noted.regsBut t ([AX_CFG d.val] ++ logRegs) ∧ t = { s.noted with regs := t.regs, pins := t.pins, now := t.now, wroteRegs := t.wroteRegs, errLog := t.errLog, ahead := [] })
    ∧ (∀ (d : Fin 32) (n : Node) (v : Word), s.ready = true → s.axSealed (AX_CFG 0) d.val = true →
      ∃ t, exec (.axCfgWrite d n v) ⟨s, q⟩ = .next ⟨t, q⟩ ∧ s.noted.regsBut t logRegs
        ∧ t = { s.noted with regs := t.regs, pins := t.pins, now := t.now, wroteRegs := t.wroteRegs, errLog := t.errLog, ahead := [] })
    ∧ (∀ (d : Fin 32) (limit : Bool) (n : Node) (v : Word), s.ready = true → s.axSealed (AX_CFG 0) d.val = false →
      let off := if limit then AX_LIMIT d.val else AX_BASE d.val
      let f : Fld := ⟨9, 39⟩
      ∃ t, exec (.axRangeWrite d limit n v) ⟨s, q⟩ = .next ⟨t, q⟩
        ∧ t = { s.noted with regs := t.regs, pins := t.pins, now := t.now, wroteRegs := t.wroteRegs, errLog := t.errLog, ahead := [] }
        ∧ (s.flag (AX_CFG d.val) AX_CFG_VALID = false → t.fld off f = getF v f ∧ s.noted.regsBut t [off] ∧ t.errLog = s.noted.errLog)
        ∧ (s.flag (AX_CFG d.val) AX_CFG_VALID = true → s.noted.regsBut t ([AX_VIOL_CNT, AX_VIOL] ++ logRegs)
            ∧ (s.lockedReg (if limit then AX_LIMIT 0 else AX_BASE 0) d.val = false → s.noted.regsBut t [AX_VIOL_CNT, AX_VIOL] ∧ t.errLog = s.noted.errLog)
            ∧ t.fld AX_VIOL_CNT AX_VIOL_CNT_COUNT = min (2 ^ 32 - 1) (s.fld AX_VIOL_CNT AX_VIOL_CNT_COUNT + 1)
            ∧ (s.flag AX_VIOL AX_VIOL_VALID = false → t.fld AX_VIOL AX_VIOL_CAUSE = 7 ∧ t.fld AX_VIOL AX_VIOL_ADDR = d.val)))
    ∧ (∀ (d : Fin 32) (n : Node) (v : Word), s.ready = true →
      ∃ t, exec (.axStatusSatClear d n v) ⟨s, q⟩ = .next ⟨t, q⟩
        ∧ (s.axSealed (AX_STATUS 0) d.val = false → t.fld (AX_STATUS d.val) AX_STATUS_SAT = 0 ∧ t.fld (AX_STATUS d.val) AX_STATUS_SAT_CNT = 0
            ∧ t.fld (AX_STATUS d.val) AX_STATUS_CNT = (if getF v AX_STATUS_CNT = 1 then 0 else s.fld (AX_STATUS d.val) AX_STATUS_CNT)
            ∧ t.fld (AX_STATUS d.val) AX_STATUS_NF = (if getF v AX_STATUS_NF = 1 then 0 else s.fld (AX_STATUS d.val) AX_STATUS_NF)
            ∧ s.noted.regsBut t [AX_STATUS d.val] ∧ s.noted.wroteOnly t)
        ∧ (s.axSealed (AX_STATUS 0) d.val = true → s.noted.regsBut t logRegs
            ∧ t = { s.noted with regs := t.regs, pins := t.pins, now := t.now, wroteRegs := t.wroteRegs, errLog := t.errLog, ahead := [] }))

/-- R151, R152: element i of a line takes its own contribution, or the partial at its place, by the update rule, and no other. R151, R152, R172: with
no element NF, DEAD or at its count ceiling on the way, the stored value and count do not depend on the order of two contributions, nor on whether one
of them arrives through a partial. -/
def Obligations.ElementsAndOrder : Prop :=
  (∀ (fmt : Nat) (l p : Line) (cs : List Conv) (i : Nat),
     let x := axaOf fmt
     i < x.perLine →
     (∀ c, cs[i]? = some c → cs.length ≤ x.perLine → elAt x (addLine x l cs) i = (elAt x l i).update x c.q (b2n c.counted) c.nf)
     ∧ (cs.length ≤ i → elAt x (addLine x l cs) i = elAt x l i)
     ∧ elAt x (mergeEls x l p) i = (elAt x l i).merge x (elAt x p i))
  ∧ (∀ (fmt : Nat) (e : El) (q1 q2 : Int) (n1 n2 : Nat),
       let x := axaOf fmt
       let ok := fun (y : El) => y.cls x ≠ .nf ∧ y.cls x ≠ .dead
       ok e → ok (e.update x q1 n1 false) → ok (e.update x q2 n2 false) → ok ((⟨0, 0⟩ : El).update x q1 n1 false) → e.c + n1 + n2 < x.cmax →
       (e.update x q1 n1 false).update x q2 n2 false = (e.update x q2 n2 false).update x q1 n1 false
       ∧ (let part := ((⟨0, 0⟩ : El).update x q1 n1 false).update x q2 n2 false
          part.partialNf = false → e.merge x part = (e.update x q1 n1 false).update x q2 n2 false))

/-! ### Line operations -/

/-- R181, R183, R186, R188: a line operation applies OP to every element and is answered with COMP; an atomic applies its own to one element and
answers with the old one; only a CAS whose compare value fails writes nothing. R190: with no other operation pending no order decision is counted. -/
def Obligations.LineOperations : Prop :=
  ∀ (s : Slice) (q : List Instr) (a : Arr) (lp : Nat) (fo : Bool) (key : Nat → Nat), s.alone q →
    let old := s.opData a (key 0)
    let o := a.addr.toNat % 128
    let n := widthBytes a.width
    let was := bytesAt old o n
    let rest := fun (t : Slice) => s.regsBut t (if a.pin && (s.frame (key 0)).w0.getLsbD 0 then deadRegs lp else []) ∧ s.operated t 1 key
    let atomic := fun (c : Instr) (op : BitVec 6) (new : Option Nat) (ok : Bool) => s.opens q op a lp fo → s.inPlace op a lp key →
      ∃ t, exec c ⟨s, q⟩ = .next ⟨t, q⟩
        ∧ t.egress = s.egress ++ [s.outDat (ansPort op a) (s.slotFc + 21) a DT_ATOM_DATA (BitVec.ofNat 15 (b2n ok)) (BitVec.ofNat 1152 was)]
        ∧ t.frame (key 0) = (match new with
            | some v => s.opFrame a (key 0) (sectorOf a.addr.toNat) (setBytes old o n v)
            | none => s.opRead a (key 0)) ∧ rest t
    (s.opens q OP_LINE_OP a lp fo → s.inPlace OP_LINE_OP a lp key →
      ∃ t, exec (.lineOp a) ⟨s, q⟩ = .next ⟨t, q⟩ ∧ t.egress = s.egress ++ [s.outRsp (ansPort OP_LINE_OP a) (s.slotFc + 17) a RS_COMP 0]
        ∧ t.frame (key 0) = s.opFrame a (key 0) 15 (lineOpData a.lop a.width a.bf old a.line) ∧ rest t)
    ∧ atomic (.fetchOp a) OP_FETCH_OP (some (elemOp a.lop n (fminFmt a.width a.bf) was (bytesAt a.pl 0 n))) false
    ∧ atomic (.swap a) OP_SWAP (some (bytesAt a.pl 0 n)) false
    ∧ atomic (.cas a) OP_CAS (if was = bytesAt a.pl 8 n then some (bytesAt a.pl 0 n) else none) (decide (was = bytesAt a.pl 8 n))

/-- R181, R182: every element operation is indifferent to the order of two operands, FMIN and FMAX among them, and element i of a line operation is
that of its own two elements. -/
def Obligations.ElementOperations : Prop :=
  ∀ (op width : Nat) (bf : Bool), opAllowed op width = true →
    let n := widthBytes width
    let f := fminFmt width bf
    (∀ old a b, old < 2 ^ (8 * n) → a < 2 ^ (8 * n) → b < 2 ^ (8 * n) →
      elemOp op n f (elemOp op n f old a) b = elemOp op n f (elemOp op n f old b) a ∧ elemOp op n f old a < 2 ^ (8 * n))
    ∧ (∀ (l p : Line) (i : Nat), i < 128 / n → bytesAt (lineOpData op width bf l p) (n * i) n = elemOp op n f (bytesAt l (n * i) n) (bytesAt p (n * i) n))

/-- R189, R190: a granted operation that meets another in its line while that one is pending counts an order decision, and the first one is captured.
Here the other one waits in the hold queue of the bank. -/
def Obligations.OrderDecision : Prop :=
  ∀ (s : Slice) (q : List Instr) (a : Arr) (e : HoldEntry) (lp : Nat) (fo : Bool) (key : Nat → Nat), s.opens q OP_FETCH_OP a lp fo →
    s.inPlace OP_FETCH_OP a lp key → s.inputs = [] → q.filterMap reqOf = [] → (s.bank (firstBank OP_FETCH_OP a)).holdq = [e] → e.req.op = OP_LINE_OP →
    e.req.steward = false → e.req.lp = lp → e.req.a.pin = a.pin → e.req.a.addr.toNat / 128 = a.addr.toNat / 128 →
    (a.src ≠ e.req.a.src ∨ a.txn ≠ e.req.a.txn) →
    ∃ t, exec (.fetchOp a) ⟨s, q⟩ = .next ⟨t, q⟩
      ∧ t.fld (SY_ODC lp) SY_ODC_COUNT = min (2 ^ SY_ODC_COUNT.len - 1) (s.fld (SY_ODC lp) SY_ODC_COUNT + 1)
      ∧ (s.flag SY_ODC_REF SY_ODC_REF_VALID = false → t.flag SY_ODC_REF SY_ODC_REF_VALID = true ∧ t.fld SY_ODC_REF SY_ODC_REF_PID = lp
          ∧ t.flag SY_ODC_REF SY_ODC_REF_PIN = a.pin
          ∧ t.fld SY_ODC_REF SY_ODC_REF_LINE = getF (BitVec.ofNat 64 (a.addr.toNat / 128)) ⟨0, SY_ODC_REF_LINE.len⟩
          ∧ t.fld SY_ODC_NODES SY_ODC_NODES_EARLIER_SRC = a.src.toNat ∧ t.fld SY_ODC_NODES SY_ODC_NODES_EARLIER_OP = OP_FETCH_OP.toNat
          ∧ t.fld SY_ODC_NODES SY_ODC_NODES_LATER_SRC = e.req.a.src.toNat ∧ t.fld SY_ODC_NODES SY_ODC_NODES_LATER_OP = OP_LINE_OP.toNat)
      ∧ s.regsBut t ([SY_ODC lp, SY_ODC_REF, SY_ODC_NODES] ++ if a.pin && (s.frame (key 0)).w0.getLsbD 0 then deadRegs lp else [])

/-! ### Synchronisation objects -/

/-- R200, R202, R203, R204, R210: SY_INIT refuses an object of another partition, one with waiters or a drain, and bad arguments, and else writes it;
SY_READ returns its 16 bytes; the other requests answer UNINIT or OWNER where the object is not theirs; SY_ADD answers TYPE on a barrier and BADARG
for a semaphore and a delta below 1, and else adds with saturation. -/
def Obligations.SyncObjects : Prop :=
  ∀ (s : Slice) (q : List Instr) (a : Arr) (lp : Nat) (fo : Bool) (key : Nat → Nat), s.alone q →
    let old := s.opData a (key 0)
    let i := a.addr.toNat % 128 / 16
    let o := objAt old i
    let ty := getF o SO_TYPE
    let mine := ty ≠ 0 ∧ getF o SO_PID = lp
    let run := fun (c : Instr) (op : BitVec 6) (o' : SyObj) (kind : BitVec 6) (pl : Payload) => s.opens q op a lp fo → s.inPlace op a lp key →
      ∃ t, exec c ⟨s, q⟩ = .next ⟨t, q⟩ ∧ t.egress = s.egress ++ [s.outDat (ansPort op a) (s.slotFc + 21) a kind 0 pl]
        ∧ t.frame (key 0) = (if o' = o then s.opRead a (key 0) else s.opFrame a (key 0) (sectorOf a.addr.toNat) (setObj old i o'))
        ∧ s.regsBut t (if a.pin && (s.frame (key 0)).w0.getLsbD 0 then deadRegs lp else []) ∧ s.operated t 1 key
    let bad := (a.sType = 3 ∧ a.sArg1 = 0) ∨ (a.sType ≠ 3 ∧ a.sArg1 ≠ 0) ∨ (a.sType = 3 ∧ a.sArg ≠ 0)
    let code := if ty ≠ 0 ∧ getF o SO_PID ≠ lp then ST_OWNER else if getF o SO_WAITERS ≠ 0 ∨ getF o SO_DRAIN = 1 then ST_BUSY else if bad then ST_BADARG else ST_OK
    let fresh := setF (setF (setF (setF (setF (0 : SyObj) SO_TYPE a.sType) SO_VALUE a.sArg) SO_PCOUNT a.sArg1) SO_PID lp) SO_LAST a.src.toNat
    let d := sext 32 a.sArg
    let sum := satSum (getF o SO_VALUE) d
    run (.syInit a) OP_SY_INIT (if code = ST_OK then fresh else o) DT_SYNC_DATA (syncData 0 code false false 0)
    ∧ run (.syRead a) OP_SY_READ o DT_SYNC_OBJ (o.setWidth 1152)
    ∧ (∀ c op, (c = .syAdd a ∧ op = OP_SY_ADD) ∨ (c = .syAcq a ∧ op = OP_SY_ACQ) ∨ (c = .syArrive a ∧ op = OP_SY_ARRIVE) ∨ (c = .syWait a ∧ op = OP_SY_WAIT) →
        ¬mine → run c op o DT_SYNC_DATA (syncData 0 (if ty = 0 then ST_UNINIT else ST_OWNER) false false 0))
    ∧ (mine → ty = 3 → run (.syAdd a) OP_SY_ADD o DT_SYNC_DATA (syncData 0 ST_TYPE false false 0))
    ∧ (mine → ty = 2 → d < 1 → run (.syAdd a) OP_SY_ADD o DT_SYNC_DATA (syncData 0 ST_BADARG false false 0))
    ∧ (mine → (ty = 1 ∨ (ty = 2 ∧ 1 ≤ d)) → s.waitersOn a.pin lp (a.addr.toNat / 16) = [] →
        run (.syAdd a) OP_SY_ADD (addValue o d a.src.toNat) DT_SYNC_DATA (syncData 0 ST_OK sum.2.1 sum.2.2 0))

/-- R205, R206, R207, R208, R209, R211: an acquisition, arrival or wait that its object allows is answered at once; one that must wait parks in the
lowest free waiter-table entry, or is answered FAILED or OK if its WAIT is 0, or WT_FULL; a change that satisfies a parked waiter releases it 22 fc
after the grant; the last arrival of a generation completes it. -/
def Obligations.SyncWaits : Prop :=
  ∀ (s : Slice) (q : List Instr) (a : Arr) (lp : Nat) (fo : Bool) (key : Nat → Nat), s.alone q →
    let old := s.opData a (key 0)
    let ix := a.addr.toNat % 128 / 16
    let obj := a.addr.toNat / 16
    let o := objAt old ix
    let v := getF o SO_VALUE
    let n := a.sArg
    let gen := a.sArg1
    let dist := genDist o gen
    let drain := getF o SO_DRAIN = 1
    let src := a.src.toNat
    let is := fun (ty : Nat) => getF o SO_TYPE = ty ∧ getF o SO_PID = lp
    let run := fun (c : Instr) (op : BitVec 6) (o' : SyObj) (ans : Option Payload) (regs : List Nat) (more : Slice → Prop) =>
      s.opens q op a lp fo → s.inPlace op a lp key →
      ∃ t, exec c ⟨s, q⟩ = .next ⟨t, q⟩
        ∧ t.egress = s.egress ++ (ans.map (fun x => s.outDat (ansPort op a) (s.slotFc + 21) a DT_SYNC_DATA 0 x)).toList
        ∧ t.frame (key 0) = (if o' = o then s.opRead a (key 0) else s.opFrame a (key 0) (sectorOf a.addr.toNat) (setObj old ix o'))
        ∧ s.regsBut t ((if a.pin && (s.frame (key 0)).w0.getLsbD 0 then deadRegs lp else []) ++ regs) ∧ more t
        ∧ s.operated { t with waiters := s.waiters, drains := s.drains, releases := s.releases } 1 key
    let calm := fun (t : Slice) => t.waiters = s.waiters ∧ t.drains = s.drains ∧ t.releases = s.releases
    let parked := fun (i kind st arg : Nat) (t : Slice) => t.drains = s.drains ∧ t.releases = s.releases ∧ (∀ j, j ≠ i → t.waiter j = s.waiter j)
      ∧ t.waiter i = ⟨obj, a.dclass, BitVec.ofNat 4 lp, a.pin, a.cmp, kind, st, a.wait, decide (a.port.val % 2 = 1), a.txn, a.src, arg, s.fresh + 1, a.pid⟩
    let full := fun (c : Instr) (op : BitVec 6) (g : Nat) => run c op o (some (syncData g ST_WT_FULL false false 0)) [SY_STATUS, SY_PCNT lp] (fun t =>
      t.flag SY_STATUS SY_STATUS_WTFULL = true ∧ t.fld (SY_PCNT lp) SY_PCNT_WTFULL = min 65535 (s.fld (SY_PCNT lp) SY_PCNT_WTFULL + 1) ∧ calm t)
    let more1 := setF o SO_WAITERS (getF o SO_WAITERS + 1)
    let queued := (s.waitersOn a.pin lp obj).any (fun w => w.2.kind = 0)
    (is 2 → n ≠ 0 → queued = false → n ≤ v →
        run (.syAcq a) OP_SY_ACQ (setF (setF o SO_VALUE (v - n)) SO_LAST src) (some (syncData 0 ST_RELEASED false false 0)) [] calm)
    ∧ (is 2 → n ≠ 0 → (queued = true ∨ v < n) →
        (a.wait = false → run (.syAcq a) OP_SY_ACQ o (some (syncData 0 ST_FAILED false false 0)) [] calm)
        ∧ (a.wait = true → ∀ i, s.freeWaiter = some i → run (.syAcq a) OP_SY_ACQ more1 none [] (parked i 0 0 n))
        ∧ (a.wait = true → s.freeWaiter = none → full (.syAcq a) OP_SY_ACQ 0))
    ∧ (is 1 →
        (cmpHolds a.cmp v n = true → run (.syWait a) OP_SY_WAIT o (some (syncData 0 ST_RELEASED false false 0)) [] calm)
        ∧ (cmpHolds a.cmp v n = false → a.wait = false → run (.syWait a) OP_SY_WAIT o (some (syncData 0 ST_FAILED false false 0)) [] calm)
        ∧ (cmpHolds a.cmp v n = false → a.wait = true → ∀ i, s.freeWaiter = some i → run (.syWait a) OP_SY_WAIT more1 none [] (parked i 2 0 n))
        ∧ (cmpHolds a.cmp v n = false → a.wait = true → s.freeWaiter = none → full (.syWait a) OP_SY_WAIT 0))
    ∧ (is 3 → 32768 ≤ dist → ¬(dist = 65535 ∧ drain) → run (.syWait a) OP_SY_WAIT o (some (syncData gen ST_RELEASED false false 0)) [] calm)
    ∧ (is 3 → (dist = 0 ∨ (dist = 65535 ∧ drain)) → a.wait = true → ∀ i, s.freeWaiter = some i → run (.syWait a) OP_SY_WAIT more1 none [] (parked i 3 0 gen))
    ∧ (is 3 → dist ≠ 0 → dist ≠ 1 → run (.syArrive a) OP_SY_ARRIVE (setF o SO_MISUSE 1) (some (syncData gen ST_MISUSE false false 0)) [SY_STATUS, SY_PCNT lp]
        (fun t => t.flag SY_STATUS SY_STATUS_MISUSE = true ∧ t.fld (SY_PCNT lp) SY_PCNT_MISUSE = min 65535 (s.fld (SY_PCNT lp) SY_PCNT_MISUSE + 1) ∧ calm t))
    ∧ (is 3 → dist = 0 → drain → ∀ i, s.freeWaiter = some i →
        run (.syArrive a) OP_SY_ARRIVE (setF (setF o SO_EARLY 1) SO_WAITERS (getF o SO_WAITERS + 1)) none [SY_PCNT lp]
          (fun t => parked i 1 1 gen t ∧ t.fld (SY_PCNT lp) SY_PCNT_EARLY = min 65535 (s.fld (SY_PCNT lp) SY_PCNT_EARLY + 1)))
    ∧ (is 3 → dist = 0 → ¬drain → v + 1 ≠ getF o SO_PCOUNT →
        let o1 := setF (setF o SO_VALUE (v + 1)) SO_LAST src
        (a.wait = false → run (.syArrive a) OP_SY_ARRIVE o1 (some (syncData gen ST_OK false false 0)) [] calm)
        ∧ (a.wait = true → ∀ i, s.freeWaiter = some i →
            run (.syArrive a) OP_SY_ARRIVE (setF o1 SO_WAITERS (getF o SO_WAITERS + 1)) none [] (parked i 1 0 gen)))
    ∧ (is 3 → dist = 0 → ¬drain → v + 1 = getF o SO_PCOUNT → ∀ j, s.freeDrain = some j → s.waitersOn a.pin lp obj = [] →
        let tick := s.relTick lp (s.slotFc)
        run (.syArrive a) OP_SY_ARRIVE (setF (setF (setF (setF o SO_VALUE 0) SO_GEN ((getF o SO_GEN + 1) % 65536)) SO_DRAIN 1) SO_LAST src)
          (some (syncData (getF o SO_GEN) ST_RELEASED false false tick)) []
          (fun t => t.waiters = s.waiters ∧ t.releases = s.releases ∧ (∀ k, k ≠ j → Tbl.at Drain.none t.drains k = Tbl.at Drain.none s.drains k)
            ∧ Tbl.at Drain.none t.drains j = ⟨obj, a.pin, BitVec.ofNat 4 lp, getF o SO_GEN, tick.toNat, 0, true, s.slotFc + 2⟩))
    ∧ (∀ i w, s.waitersOn a.pin lp obj = [(i, w)] → s.waiter i = w → s.releases = [] →
        let o1 := addValue o (sext 32 n) src
        let sum := satSum v (sext 32 n)
        let out : Release := ⟨w.port, s.slotFc + 22, s.classOf w.src.toNat, w.msg 0 ST_RELEASED 0, i, none, 0⟩
        let freed := fun (t : Slice) => t.waiters = s.waiters ∧ t.drains = s.drains ∧ t.releases = [out]
        (is 1 → getF o1 SO_VALUE ≠ v → w.kind = 2 → cmpHolds w.cmp (getF o1 SO_VALUE) w.arg = true →
          run (.syAdd a) OP_SY_ADD (fewer o1 1) (some (syncData 0 ST_OK sum.2.1 sum.2.2 0)) [] freed)
        ∧ (is 2 → 1 ≤ sext 32 n → w.kind = 0 → w.arg ≤ getF o1 SO_VALUE →
          run (.syAdd a) OP_SY_ADD (fewer (setF o1 SO_VALUE (getF o1 SO_VALUE - w.arg)) 1) (some (syncData 0 ST_OK sum.2.1 sum.2.2 0)) [] freed))

/-- R208, R212: one release goes from the sequencer to egress, in an fc after the one before it; the drain of a tracker entry whose releases have left, and whose RELEASE_TICK has come,
clears DRAIN of the object and frees the entry, at the grant of its bank's slot; before that nothing happens. -/
def Obligations.ReleasesAndDrains : Prop :=
  ∀ (s : Slice) (q : List Instr),
    (∀ x rest, s.releases = x :: rest → s.flag PC_CTRL PC_CTRL_EN = false →
      ∃ t, exec .syncReleaseSend ⟨s, q⟩ = .next ⟨t, q⟩ ∧ t.releases = rest
        ∧ t.egress = s.egress ++ [⟨x.port, max (max x.due s.fc) (s.relLast + 1), s.fresh, x.mclass, true, { x.msg with src := s.node x.port }, some (x.slot, x.drain, x.tick)⟩]
        ∧ t.relLast = max (max x.due s.fc) (s.relLast + 1) ∧ s.regsBut t []
        ∧ t = { s with regs := t.regs, pins := t.pins, now := t.now, releases := rest, relLast := t.relLast, egress := t.egress, fresh := s.fresh + 1, ahead := [] })
    ∧ (s.releases = [] → ∃ t, exec .syncReleaseSend ⟨s, q⟩ = .next ⟨t, q⟩ ∧ s.regsOnly t ∧ s.regsBut t [])
    ∧ (∀ (j : Fin 8) (key : Nat → Nat),
        let d := Tbl.at Drain.none s.drains j.val
        let p := d.pid.toNat
        let r := syReq OP_SY_DRAIN d.pin p d.obj j.val 0 s.fc
        let old := s.opData r.a (key 0)
        let ix := r.a.addr.toNat % 128 / 16
        let o := objAt old ix
        let o' := setF o SO_DRAIN 0
        let bk := objBank r.a.pin (r.a.addr.toNat / 16)
        (d.busy = true → d.left = 0 → d.tick ≤ s.count.toNat → s.drainWaits j.val = false → s.awake (bk / 8) = true → s.flag AG_PSTATE (flushField (bk / 8)) = false →
            d.since ≤ s.slotFc → (s.coming q).innerGranted bk 2 = true → s.damped bk none = false → s.calm → s.inPlace r.op r.a p key → s.waitersOn d.pin p d.obj = [] → s.save = none →
          ∃ t, exec (.barrierDrainEnd j) ⟨s, q⟩ = .next ⟨t, q⟩ ∧ Tbl.at Drain.none t.drains j.val = Drain.none
            ∧ (∀ k, k ≠ j.val → Tbl.at Drain.none t.drains k = Tbl.at Drain.none s.drains k)
            ∧ t.frame (key 0) = (if o' = o then s.opRead r.a (key 0) else s.opFrame r.a (key 0) (sectorOf r.a.addr.toNat) (setObj old ix o'))
            ∧ t.egress = s.egress ∧ s.regsBut t (if r.a.pin && (s.frame (key 0)).w0.getLsbD 0 then deadRegs p else [])
            ∧ s.operated { t with drains := s.drains } 1 key)
        ∧ (d.busy = false ∨ d.left ≠ 0 ∨ s.count.toNat < d.tick ∨ (s.awake (objBank d.pin d.obj / 8) = true ∧ (s.slotFc < d.since
              ∨ (s.coming q).innerGranted (objBank d.pin d.obj) 2 = false)) → ∃ t, exec (.barrierDrainEnd j) ⟨s, q⟩ = .next ⟨t, q⟩ ∧ s.regsOnly t ∧ s.regsBut t []))

/-- R216, R217: the debug actions read an object into SY_DBG_OBJ0 and SY_DBG_OBJ1, set its VALUE, or release every waiter of it as FORCED; RESULT says
NOT_HOME, SEALED or UNINIT where they do not, and they set MANUAL and LAST_SIG. -/
def Obligations.DebugActions : Prop :=
  ∀ (s : Slice) (q : List Instr) (n : Node) (v : Word) (key : Nat → Nat), s.ready = true → s.calm → s.flag SY_DBG_CMD SY_DBG_CMD_BUSY = false →
    let pin := s.flag SY_DBG_ADDR SY_DBG_ADDR_PIN
    let p := s.fld SY_DBG_ADDR SY_DBG_ADDR_PID
    let obj := s.fld SY_DBG_ADDR SY_DBG_ADDR_OBJ
    let away := if pin then decide (s.bufBytes p ≤ obj * 16) else s.homeOf (obj * 16) != s.id
    let act := fun (c : Instr) (k : Nat) => (c = .dbgRead n v ∧ k = 0) ∨ (c = .setValue n v ∧ k = 1) ∨ (c = .releaseAll n v ∧ k = 2)
    let ended := fun (t : Slice) (code k : Nat) => t.flag SY_DBG_CMD SY_DBG_CMD_BUSY = false ∧ t.fld SY_DBG_CMD SY_DBG_CMD_RESULT = code
      ∧ t.fld SY_DBG_CMD SY_DBG_CMD_ACTION = k ∧ t.fld SY_DBG_CMD SY_DBG_CMD_VALUE = getF v SY_DBG_CMD_VALUE
    (∀ c k, act c k → away = true →
      ∃ t, exec c ⟨s, q⟩ = .next ⟨t, q⟩ ∧ ended t 4 k ∧ s.noted.regsBut t [SY_DBG_CMD] ∧ s.noted.wroteOnly t)
    ∧ (∀ c k, act c k → away = false → s.sealed p = true →
      ∃ t, exec c ⟨s, q⟩ = .next ⟨t, q⟩ ∧ ended t 1 k ∧ (k = 0 → t.reg SY_DBG_OBJ0 = 0 ∧ t.reg SY_DBG_OBJ1 = 0)
        ∧ s.noted.regsBut t ([SY_DBG_CMD] ++ (if k = 0 then [SY_DBG_OBJ0, SY_DBG_OBJ1] else []) ++ logRegs)
        ∧ t = { s.noted with regs := t.regs, pins := t.pins, now := t.now, wroteRegs := t.wroteRegs, errLog := t.errLog, ahead := [] })
    ∧ (let r := fun op => syReq op pin p obj 0 (getF v SY_DBG_CMD_VALUE) s.fc
       let a := (r OP_SY_READ).a
       let old := s.opData a (key 0)
       let ix := a.addr.toNat % 128 / 16
       let o := objAt old ix
       let manual := fun (x : SyObj) => setF (setF x SO_MANUAL 1) SO_LAST 0x7FF
       let run := fun (c : Instr) (k code : Nat) (o' : SyObj) (regs : List Nat) (more : Slice → Prop) =>
         ∃ t, exec c ⟨s, q⟩ = .next ⟨t, q⟩ ∧ ended t code k ∧ t.egress = s.egress ∧ more t
           ∧ t.frame (key 0) = (if o' = o then s.opRead a (key 0) else s.opFrame a (key 0) (sectorOf a.addr.toNat) (setObj old ix o'))
           ∧ s.noted.noted.regsBut t ([SY_DBG_CMD] ++ regs ++ if a.pin && (s.frame (key 0)).w0.getLsbD 0 then deadRegs p else [])
           ∧ s.noted.operated { t with releases := s.releases, wroteRegs := s.wroteRegs } 1 key
       let bk := objBank pin obj
       away = false → s.sealed p = false → s.awake (bk / 8) = true → s.flag AG_PSTATE (flushField (bk / 8)) = false → (s.coming q).innerGranted bk 6 = true →
         s.damped bk none = false → s.inPlace OP_SY_READ a p key →
         run (.dbgRead n v) 0 0 o [SY_DBG_OBJ0, SY_DBG_OBJ1] (fun t => t.reg SY_DBG_OBJ0 = o.extractLsb' 0 64 ∧ t.reg SY_DBG_OBJ1 = o.extractLsb' 64 64
           ∧ t.releases = s.releases)
         ∧ (getF o SO_TYPE = 0 → run (.setValue n v) 1 3 o [] (fun t => t.releases = s.releases)
             ∧ run (.releaseAll n v) 2 3 o [] (fun t => t.releases = s.releases))
         ∧ ((getF o SO_TYPE = 1 ∨ getF o SO_TYPE = 2) → s.waitersOn pin p obj = [] →
             run (.setValue n v) 1 0 (manual (setF o SO_VALUE (getF v SY_DBG_CMD_VALUE))) [] (fun t => t.releases = s.releases))
         ∧ (getF o SO_TYPE ≠ 0 → run (.releaseAll n v) 2 0 (manual (setF o SO_WAITERS 0)) [] (fun t =>
             (t.releases.map Release.slot) = s.releases.map Release.slot ++ (s.waitersOn pin p obj).map Prod.fst
             ∧ ∀ x ∈ t.releases.drop s.releases.length, getF x.msg.pl ⟨16, 4⟩ = ST_FORCED ∧ x.tick = 0)))

/-- R219: a save writes each waiter of the partition with WR_NC and frees its entry, and ends once every write is answered; a restore reads the
entries with RD_NC and appends them; a wrong area, a partition that is not ACTIVE or an entry of another PID ends it with DENIED. R292, R379: COMP
also ends the writes of dampers and routers. -/
def Obligations.SaveAndRestore : Prop :=
  ∀ (s : Slice) (q : List Instr),
    let ends := fun (t : Slice) (code moved : Nat) => t.flag SY_SAVE_CTRL SY_SAVE_CTRL_BUSY = false ∧ t.flag SY_SAVE_CTRL SY_SAVE_CTRL_DONE = true
      ∧ t.fld SY_SAVE_CTRL SY_SAVE_CTRL_RESULT = code ∧ t.fld SY_SAVE_CTRL SY_SAVE_CTRL_COUNT = moved % 128 ∧ t.save = none
    let request := fun (op : BitVec 6) (p : Pid) (k line : Nat) (pl : Payload) => (⟨0, s.fc, s.fresh, 31, decide (op = OP_WR_NC),
      ⟨.req, op, s.node 0, 0x7FF, p, BitVec.ofNat 10 k, false, 0, 0, BitVec.ofNat 48 line, 0, pl⟩, none⟩ : Out)
    (∀ (n : Node) (v : Word), s.ready = true → s.flag SY_SAVE_CTRL SY_SAVE_CTRL_BUSY = false → s.flag PC_CTRL PC_CTRL_EN = false → s.txnWait = [] →
        let p := getF v SY_SAVE_CTRL_PID
        let base := s.fld SY_SAVE_ADDR SY_SAVE_ADDR_ADDR * 1024
        let drained := s.drains.any (fun d => d.2.busy && d.2.pid.toNat = p) = false
        (s.saveArea p base = false →
          (∃ t, exec (.sySave n v) ⟨s, q⟩ = .next ⟨t, q⟩ ∧ ends t 2 0 ∧ s.noted.regsBut t [SY_SAVE_CTRL]
            ∧ t = { s.noted with regs := t.regs, pins := t.pins, now := t.now, wroteRegs := t.wroteRegs, save := none, ahead := [] })
          ∧ ∃ t, exec (.syRestore n v) ⟨s, q⟩ = .next ⟨t, q⟩ ∧ ends t 2 0 ∧ s.noted.regsBut t [SY_SAVE_CTRL]
            ∧ t = { s.noted with regs := t.regs, pins := t.pins, now := t.now, wroteRegs := t.wroteRegs, save := none, ahead := [] })
        ∧ (s.saveArea p base = true → drained → s.waitersOf p = [] →
          ∃ t, exec (.sySave n v) ⟨s, q⟩ = .next ⟨t, q⟩ ∧ ends t 0 0 ∧ s.noted.regsBut t [SY_SAVE_CTRL]
            ∧ t = { s.noted with regs := t.regs, pins := t.pins, now := t.now, wroteRegs := t.wroteRegs, save := none, ahead := [] })
        ∧ (∀ i w k, s.saveArea p base = true → drained → s.waitersOf p = [(i, w)] → s.freeTxn = some k →
          ∃ t, exec (.sySave n v) ⟨s, q⟩ = .next ⟨t, q⟩ ∧ t.flag SY_SAVE_CTRL SY_SAVE_CTRL_BUSY = true
            ∧ t.egress = s.egress ++ [request OP_WR_NC (BitVec.ofNat 4 p) k base
                ((0xFFFF : Payload) ||| (w.view0.setWidth 1152 <<< 128) ||| (w.view1.setWidth 1152 <<< 192))]
            ∧ t.waiter i = Waiter.none ∧ (∀ j, j ≠ i → t.waiter j = s.waiter j)
            ∧ t.save = some ⟨false, BitVec.ofNat 4 p, base, getF v SY_SAVE_CTRL_COUNT, 1, 1, false, 0⟩ ∧ s.noted.regsBut t [SY_SAVE_CTRL]
            ∧ t = { s.noted with regs := t.regs, pins := t.pins, now := t.now, wroteRegs := t.wroteRegs, save := t.save, waiters := t.waiters, txns := t.txns, egress := t.egress, fresh := s.fresh + 1,
                                 ahead := [] })
        ∧ (s.saveArea p base = true → s.ptState p = 2 → getF v SY_SAVE_CTRL_COUNT = 0 →
          ∃ t, exec (.syRestore n v) ⟨s, q⟩ = .next ⟨t, q⟩ ∧ ends t 0 0 ∧ s.noted.regsBut t [SY_SAVE_CTRL]
            ∧ t = { s.noted with regs := t.regs, pins := t.pins, now := t.now, wroteRegs := t.wroteRegs, save := none, ahead := [] })
        ∧ (∀ k, s.saveArea p base = true → s.ptState p = 2 → getF v SY_SAVE_CTRL_COUNT ≠ 0 → s.freeWaiter ≠ none → s.freeTxn = some k →
          ∃ t, exec (.syRestore n v) ⟨s, q⟩ = .next ⟨t, q⟩ ∧ t.flag SY_SAVE_CTRL SY_SAVE_CTRL_BUSY = true
            ∧ t.egress = s.egress ++ [request OP_RD_NC (BitVec.ofNat 4 p) k base 0]
            ∧ t.save = some ⟨true, BitVec.ofNat 4 p, base, getF v SY_SAVE_CTRL_COUNT, 0, 0, false, 0⟩ ∧ s.noted.regsBut t [SY_SAVE_CTRL]
            ∧ t = { s.noted with regs := t.regs, pins := t.pins, now := t.now, wroteRegs := t.wroteRegs, save := t.save, txns := t.txns, egress := t.egress, fresh := s.fresh + 1, ahead := [] }))
    ∧ (∀ a : Arr, s.takes a.port .rsp → s.mine a.dst = true → s.flag PC_CTRL PC_CTRL_EN = false → s.txnWait = [] →
        let k := a.txn.toNat
        let frees := fun (t : Slice) => (∀ j, Tbl.at TxnUse.none t.txns j = if j = k then TxnUse.none else Tbl.at TxnUse.none s.txns j) ∧ s.sameCredits t
          ∧ t = { s with regs := t.regs, pins := t.pins, now := t.now, txns := t.txns, save := t.save, rxCred := t.rxCred, ansPort := none, ahead := [] }
        (∀ o, Tbl.at TxnUse.none s.txns k = .saveWrite → s.save = some o →
          ∃ t, exec (.comp a) ⟨s, q⟩ = .next ⟨t, q⟩ ∧ frees t ∧ (o.left ≤ 1 → ends t o.code o.moved ∧ s.regsBut t [SY_SAVE_CTRL])
            ∧ (2 ≤ o.left → t.save = some { o with left := o.left - 1 } ∧ s.regsBut t []))
        ∧ (Tbl.at TxnUse.none s.txns k = .damper → ∃ t, exec (.comp a) ⟨s, q⟩ = .next ⟨t, q⟩ ∧ frees t ∧ t.save = s.save ∧ s.regsBut t [])
        ∧ (Tbl.at TxnUse.none s.txns k = .router →
          ∃ t, exec (.comp a) ⟨s, q⟩ = .next ⟨t, q⟩ ∧ frees t ∧ t.save = s.save
            ∧ ((∀ j, j ≠ k → Tbl.at TxnUse.none s.txns j ≠ .router) → s.txns.wf TxnUse.none = true →
                t.flag NV_STATUS NV_STATUS_ROUTER_DONE = true ∧ s.regsBut t [NV_STATUS])
            ∧ ((∃ e ∈ s.txns, e.1 ≠ k ∧ e.2 = .router) → s.regsBut t [])))
    ∧ (∀ (a : Arr) (o : SaveOp) (k i : Nat), s.takes a.port .dat → s.mine a.dst = true → s.flag PC_CTRL PC_CTRL_EN = false → s.txnWait = [] →
        Tbl.at TxnUse.none s.txns a.txn.toNat = .restoreRead k → s.save = some o → s.freeWaiter = some i →
        let b := (o.base + 16 * o.moved) % 128
        let w := waiterOf (BitVec.ofNat 64 (bytesAt a.line b 8)) (BitVec.ofNat 64 (bytesAt a.line (b + 8) 8)) (s.fresh + 1)
        let bk := objBank w.pin w.obj
        (w.pid = o.pid → s.ptState o.pid.toNat = 2 → o.total ≤ o.moved + 1 →
          ∃ t, exec (.data a) ⟨s, q⟩ = .next ⟨t, q⟩ ∧ t.waiter i = w ∧ (∀ j, j ≠ i → t.waiter j = s.waiter j) ∧ ends t 0 (o.moved + 1)
            ∧ (t.bank bk).conts = (s.bank bk).conts ++ [⟨s.contFrom a.port bk, none, .restored i⟩] ∧ (∀ x, x ≠ bk → t.bank x = s.bank x)
            ∧ s.regsBut t [SY_SAVE_CTRL] ∧ s.sameCredits t
            ∧ t = { s with regs := t.regs, pins := t.pins, now := t.now, txns := t.txns, save := none, waiters := t.waiters, banks := t.banks, fresh := s.fresh + 1,
                           rxCred := t.rxCred, ansPort := none, ahead := [] })
        ∧ (w.pid ≠ o.pid ∨ s.ptState o.pid.toNat ≠ 2 →
          ∃ t, exec (.data a) ⟨s, q⟩ = .next ⟨t, q⟩ ∧ ends t 2 o.moved ∧ s.regsBut t [SY_SAVE_CTRL] ∧ s.sameCredits t
            ∧ t = { s with regs := t.regs, pins := t.pins, now := t.now, txns := t.txns, save := none, rxCred := t.rxCred, ansPort := none, ahead := [] }))

/-! ### Determinism and digests -/

/-- R234, R235, R228: ARM arms the launch slot with its fields, and is ignored whole while it is armed; a count already past is LATE; CANCEL disarms, but comes too late from the armed count on.
At the launch count the slot disarms, and clears the timing events, restarts the time base and starts a capture as its fields ask. R228: the arbiter pointers
are set 256 fc after the launch fc. R245: a capture walk that has passed entry 15 ends. R248: a lane takes the value written, and 0 for 2^61 − 1. R243: the order of absorption does not matter. -/
def Obligations.LaunchAndDigests : Prop :=
  ∀ (s : Slice) (q : List Instr),
    let nothing := fun (c : Instr) => ∃ t, exec c ⟨s, q⟩ = .next ⟨t, q⟩ ∧ s.regsOnly t ∧ s.regsBut t []
    (∀ (c : Instr) (n : Node) (v w : Word), s.ready = true →
        (c = .dgLaunchArm n v ∧ w = setF v DG_LAUNCH_ARM 1) ∨ (c = .dgLaunchCancel n v ∧ w = setF v DG_LAUNCH_CANCEL 1) →
      let ignored := getF w DG_LAUNCH_ARM = 1 ∧ s.flag DG_LAUNCH DG_LAUNCH_ARMED = true
      let arms := getF w DG_LAUNCH_ARM = 1 ∧ getF w DG_LAUNCH_CANCEL = 0
      let late := arms ∧ (s.reg DG_LAUNCH_TICK).toNat < s.count.toNat + 1
      ∃ t, exec c ⟨s, q⟩ = .next ⟨t, q⟩ ∧ s.noted.wroteOnly t ∧ (ignored → s.noted.regsBut t [])
        ∧ (¬ignored → (∀ f ∈ [DG_LAUNCH_PID, DG_LAUNCH_CAPTURE, DG_LAUNCH_TIME_BASE, DG_LAUNCH_TEVT_CLEAR], t.fld DG_LAUNCH f = getF w f)
          ∧ (t.flag DG_LAUNCH DG_LAUNCH_ARMED = true ↔ arms ∨ (getF w DG_LAUNCH_CANCEL = 1 ∧ s.flag DG_LAUNCH DG_LAUNCH_ARMED = true
              ∧ (s.reg DG_LAUNCH_TICK).toNat ≤ s.count.toNat))
          ∧ (late → t.flag DG_DET_STATUS DG_DET_STATUS_LAUNCH_LATE = true ∧ (s.detActive = true → t.flag DG_TEVT DG_TEVT_LATE = true)
              ∧ s.noted.regsBut t [DG_LAUNCH, DG_DET_STATUS, DG_TEVT, DG_TEVT_CNT])
          ∧ (¬late → s.noted.regsBut t [DG_LAUNCH])))
    ∧ (let go := s.flag DG_LAUNCH DG_LAUNCH_ARMED = true ∧ (s.reg DG_LAUNCH_TICK).toNat ≤ s.count.toNat
       let on := fun (f : Fld) => s.flag DG_LAUNCH f = true
       let st := DG_CAP_STATUS
       (¬go → nothing .launch)
       ∧ (go → ∃ t, exec .launch ⟨s, q⟩ = .next ⟨t, q⟩ ∧ t.reg DG_LAUNCH = setF (s.reg DG_LAUNCH) DG_LAUNCH_ARMED 0
          ∧ (on DG_LAUNCH_TEVT_CLEAR → t.reg DG_TEVT = 0 ∧ t.fld DG_TEVT_CNT DG_TEVT_CNT_COUNT = 0)
          ∧ (¬on DG_LAUNCH_TEVT_CLEAR → t.reg DG_TEVT = s.reg DG_TEVT ∧ t.reg DG_TEVT_CNT = s.reg DG_TEVT_CNT)
          ∧ (on DG_LAUNCH_TIME_BASE → t.timeBase = some s.fc ∧ t.winFc = 0 ∧ t.damperDue = true ∧ t.walks = s.walks ++ [⟨s.fresh, .timeBase, [], 0⟩]
              ∧ t.fresh = s.fresh + 1)
          ∧ (¬on DG_LAUNCH_TIME_BASE → t = { s with regs := t.regs, pins := t.pins, now := t.now, capture := t.capture, ahead := [] })
          ∧ (on DG_LAUNCH_CAPTURE → s.flag st DG_CAP_STATUS_BUSY = false →
              t.capture = some ⟨BitVec.ofNat 4 (s.fld DG_LAUNCH DG_LAUNCH_PID), 0, 0, none⟩ ∧ t.flag st DG_CAP_STATUS_BUSY = true
              ∧ t.fld st DG_CAP_STATUS_LINES = 0 ∧ t.flag st DG_CAP_STATUS_ERR = false)
          ∧ (on DG_LAUNCH_CAPTURE → s.flag st DG_CAP_STATUS_BUSY = true → t.capture = s.capture ∧ t.flag st DG_CAP_STATUS_MISSED = true)
          ∧ (¬on DG_LAUNCH_CAPTURE → t.capture = s.capture ∧ t.reg st = s.reg st)
          ∧ s.regsBut t [DG_LAUNCH, DG_TEVT, DG_TEVT_CNT, st]
          ∧ t = { s with regs := t.regs, pins := t.pins, now := t.now, walks := t.walks, fresh := t.fresh, timeBase := t.timeBase, eports := t.eports, fillRegs := t.fillRegs,
                         winFc := t.winFc, damperDue := t.damperDue, capture := t.capture, ahead := [] }))
    ∧ (let ended := ∃ l, s.timeBase = some l ∧ l + 256 ≤ s.fc
       (¬ended → nothing .timeBaseWalkEnd)
       ∧ (ended → ∃ t, exec .timeBaseWalkEnd ⟨s, q⟩ = .next ⟨t, q⟩ ∧ t.timeBase = none ∧ t.regPtr = 0
          ∧ (∀ bk, t.bank bk = if bk < 16 then { s.bank bk with ptr := 0 } else s.bank bk) ∧ s.regsBut t []
          ∧ t = { s with regs := t.regs, pins := t.pins, now := t.now, regPtr := 0, timeBase := none, banks := t.banks, ahead := [] }))
    ∧ (let ended := ∃ c, s.capture = some c ∧ 16 ≤ c.entry
       (¬ended → nothing .captureWalkDone)
       ∧ (ended → ∃ t, exec .captureWalkDone ⟨s, q⟩ = .next ⟨t, q⟩ ∧ t.capture = none ∧ t.flag DG_CAP_STATUS DG_CAP_STATUS_DONE = true
          ∧ t.flag DG_CAP_STATUS DG_CAP_STATUS_BUSY = false ∧ s.regsBut t [DG_CAP_STATUS]
          ∧ t = { s with regs := t.regs, pins := t.pins, now := t.now, capture := none, ahead := [] }))
    ∧ (∀ (p : Pid) (j : Fin 4) (n : Node) (v : Word), s.ready = true →
        ∃ t, exec (.dgLaneWrite p j n v) ⟨s, q⟩ = .next ⟨t, q⟩
          ∧ t.fld (DG_LANE p.toNat j.val) DG_LANE_VALUE = (if getF v DG_LANE_VALUE = 2 ^ 61 - 1 then 0 else getF v DG_LANE_VALUE)
          ∧ s.noted.regsBut t [DG_LANE p.toNat j.val] ∧ s.noted.wroteOnly t)
    ∧ (∀ (p tag1 idx1 tag2 idx2 : Nat) (d1 d2 : Line) (a : Nat),
        ((s.absorb p tag1 idx1 d1).absorb p tag2 idx2 d2).reg a = ((s.absorb p tag2 idx2 d2).absorb p tag1 idx1 d1).reg a)

/-! ### Epochs and snapshots -/

/-- R253, R265, R266, R234: a write of EP_PCTRL with ARM is ignored whole while the close slot is armed; else ARM arms, CANCEL disarms, a count
already past is LATE, RELEASE of a drained harvest makes it FINAL, and ABORT of a harvest stops it, zeroes its shelf frames and leaves NORMALISE; EN
is locked while the partition is active. PID 0 has no such register (R11). -/
def Obligations.EpochControl : Prop :=
  ∀ (s : Slice) (q : List Instr) (p : Pid) (n : Node) (v w : Word) (c : Instr), s.ready = true →
    (c = .epArm p n v ∧ w = setF v EP_PCTRL_ARM 1) ∨ (c = .epCancel p n v ∧ w = setF v EP_PCTRL_CANCEL 1)
      ∨ (c = .epHarvestRelease p n v ∧ w = setF v EP_PCTRL_RELEASE 1) ∨ (c = .epHarvestAbort p n v ∧ w = setF v EP_PCTRL_ABORT 1) →
    let k := p.toNat
    let st := EP_PSTATUS k
    let on := fun (f : Fld) => getF w f = 1
    let ignored := on EP_PCTRL_ARM ∧ s.flag st EP_PSTATUS_ARMED = true
    let bad := s.ptActive k = true ∧ getF w EP_PCTRL_EN ≠ s.fld (EP_PCTRL k) EP_PCTRL_EN
    let en := if s.ptActive k then s.fld (EP_PCTRL k) EP_PCTRL_EN else getF w EP_PCTRL_EN
    let arms := on EP_PCTRL_ARM ∧ ¬on EP_PCTRL_CANCEL ∧ en ≠ 0
    let late := arms ∧ (s.reg (EP_PCLOSE k)).toNat < s.count.toNat + 1
    let due := en ≠ 0 ∧ (s.reg (EP_PCLOSE k)).toNat ≤ (s.countAt s.slotFc).toNat
    let released := on EP_PCTRL_RELEASE ∧ s.flag st EP_PSTATUS_HARVEST = true ∧ s.flag st EP_PSTATUS_LEDGER_DONE = true ∧ s.fld st EP_PSTATUS_PHASE = 2
    let aborted := on EP_PCTRL_ABORT ∧ s.flag st EP_PSTATUS_HARVEST = true ∧ (s.harvest k).aborted = false
    ∃ t, exec c ⟨s, q⟩ = .next ⟨t, q⟩
      ∧ (k = 0 → s.noted.regsBut t [] ∧ s.noted.wroteOnly t)
      ∧ (k ≠ 0 → ignored → (¬bad → s.noted.regsBut t []) ∧ s.noted.regsBut t logRegs
          ∧ t = { s.noted with regs := t.regs, pins := t.pins, now := t.now, errLog := t.errLog, ahead := [] })
      ∧ (k ≠ 0 → ¬ignored → s.calm → Tbl.wf Frame.zero s.frames = true →
          (∀ f ∈ [EP_PCTRL_LEDGER_IRQ_EN, EP_PCTRL_FAULT_IRQ_EN, EP_PCTRL_DONE_IRQ_EN], t.fld (EP_PCTRL k) f = getF w f)
          ∧ t.fld (EP_PCTRL k) EP_PCTRL_EN = en
          ∧ (t.flag st EP_PSTATUS_ARMED = true ↔ arms ∨ (s.flag st EP_PSTATUS_ARMED = true ∧ (on EP_PCTRL_CANCEL → due)))
          ∧ (t.flag st EP_PSTATUS_LATE = true ↔ late ∨ s.flag st EP_PSTATUS_LATE = true)
          ∧ (aborted → t.fld st EP_PSTATUS_PHASE = 4) ∧ (¬aborted → released → t.fld st EP_PSTATUS_PHASE = 3)
          ∧ (¬aborted → ¬released → t.fld st EP_PSTATUS_PHASE = s.fld st EP_PSTATUS_PHASE)
          ∧ ((t.harvest k).aborted = true ↔ aborted ∨ (s.harvest k).aborted = true) ∧ ((t.harvest k).final = true ↔ released ∨ (s.harvest k).final = true)
          ∧ (t.harvest k).armLate = (if arms then decide late else (s.harvest k).armLate) ∧ (aborted → (t.harvest k).summary = false)
          ∧ t.harvest k = { s.harvest k with aborted := (t.harvest k).aborted, final := (t.harvest k).final, armLate := (t.harvest k).armLate,
                                             summary := if (t.harvest k).aborted ≠ (s.harvest k).aborted then false else (s.harvest k).summary } ∧ (∀ j, j ≠ k → t.harvest j = s.harvest j)
          ∧ (¬aborted → t.frames = s.frames ∧ t.walks = s.walks)
          ∧ (aborted → t.walks = s.walks.filter (fun x => x.kind ≠ .close p)
              ∧ ∀ key, t.frame key = (if s.shelfWays.getLsbD (keyWay key) && (s.frame key).w0.getLsbD 0 && getF (s.frame key).w0 ⟨1, 4⟩ = k then Frame.zero
                  else s.frame key))
          ∧ (late → s.detActive = true → t.flag DG_TEVT DG_TEVT_LATE = true)
          ∧ (¬late → t.reg DG_TEVT = s.noted.reg DG_TEVT ∧ t.reg DG_TEVT_CNT = s.noted.reg DG_TEVT_CNT)
          ∧ (¬bad → t.errLog = s.errLog ∧ ∀ a ∈ logRegs, t.reg a = s.reg a)
          ∧ s.noted.regsBut t ([EP_PCTRL k, st, DG_TEVT, DG_TEVT_CNT] ++ logRegs)
          ∧ t = { s.noted with regs := t.regs, pins := t.pins, now := t.now, wroteRegs := t.wroteRegs, errLog := t.errLog, harvests := t.harvests, frames := t.frames, walks := t.walks, ahead := [] })

/-- R254, R255, R256: at its count an armed close is skipped for the first cause that applies, or else flips PAR and the open bank, counts the epoch,
records the count, and recalls every line of the partition in X; the drain follows the recall. R265, R266, R250: when the summary is written and
acknowledged the frames and victim entries of the partition are normalised, its bits of the closed bank clear (an abort moves them to the open bank),
and the harvest is DONE. -/
def Obligations.EpochCloses : Prop :=
  ∀ (s : Slice) (q : List Instr) (p : Pid),
    let k := p.toNat
    let st := EP_PSTATUS k
    let h := s.harvest k
    let nothing := fun (c : Instr) => ∃ t, exec c ⟨s, q⟩ = .next ⟨t, q⟩ ∧ s.regsOnly t ∧ s.regsBut t []
    (let due := s.flag st EP_PSTATUS_ARMED = true ∧ s.flag (EP_PCTRL k) EP_PCTRL_EN = true ∧ (s.reg (EP_PCLOSE k)).toNat ≤ (s.countAt s.slotFc).toNat
     let c0 := s.flag st EP_PSTATUS_HARVEST = true ∨ s.fld st EP_PSTATUS_PHASE ≠ 0
     let c1 := s.fld (EP_PDRAIN k) EP_PDRAIN_SIZE = 0 ∨ ∃ j, j < s.fld ID_SLICE ID_SLICE_GROUP_SIZE * s.fld (EP_PDRAIN k) EP_PDRAIN_SIZE ∧
       (s.owner ((s.fld (EP_PDRAIN k) EP_PDRAIN_BASE + j) * 2 ^ 21) ≠ k ∨ s.rdonly ((s.fld (EP_PDRAIN k) EP_PDRAIN_BASE + j) * 2 ^ 21) = true)
     let c2 := s.ptState k ≠ 2
     let skip := fun (x : Nat) => ∃ t, exec (.epochClose p) ⟨s, q⟩ = .next ⟨t, q⟩ ∧ t.flag st EP_PSTATUS_ARMED = false ∧ t.flag st EP_PSTATUS_SKIP = true
       ∧ t.fld st EP_PSTATUS_SKIP_CAUSE = x ∧ (s.flag (EP_PCTRL k) EP_PCTRL_FAULT_IRQ_EN = true → t.pins.mgmtMore = true) ∧ s.regsBut t [st] ∧ s.regsOnly t
     (¬due → nothing (.epochClose p)) ∧ (due → c0 → skip 0) ∧ (due → ¬c0 → c1 → skip 1) ∧ (due → ¬c0 → ¬c1 → c2 → skip 2)
     ∧ (due → ¬c0 → ¬c1 → ¬c2 → ∃ t, exec (.epochClose p) ⟨s, q⟩ = .next ⟨t, q⟩ ∧ t.flag st EP_PSTATUS_ARMED = false
         ∧ t.fld st EP_PSTATUS_PAR = 1 - s.fld st EP_PSTATUS_PAR ∧ t.fld st EP_PSTATUS_OPEN_BANK = 1 - s.fld st EP_PSTATUS_OPEN_BANK
         ∧ t.flag st EP_PSTATUS_HARVEST = true ∧ t.fld st EP_PSTATUS_PHASE = 1 ∧ t.flag st EP_PSTATUS_LEDGER_DONE = false
         ∧ t.flag st EP_PSTATUS_FROZEN_DONE = false ∧ t.flag st EP_PSTATUS_QUIET = s.quiet k
         ∧ t.fld (EP_PREC1 k) EP_PREC1_EPOCH = (s.fld (EP_PREC1 k) EP_PREC1_EPOCH + 1) % 2 ^ EP_PREC1_EPOCH.len ∧ t.fld (EP_PREC1 k) EP_PREC1_RECORDS = 0
         ∧ t.reg (EP_PREC0 k) = s.reg (EP_PCLOSE k) ∧ t.harvest k = { Harvest.idle with valid := true, late := h.armLate }
         ∧ (∀ j, j ≠ k → t.harvest j = s.harvest j)
         ∧ t.walks = s.walks ++ [⟨s.fresh, .close p, [], 0⟩]
         ∧ s.regsBut t [st, EP_PREC0 k, EP_PREC1 k]
         ∧ t = { s with regs := t.regs, pins := t.pins, now := t.now, harvests := t.harvests, walks := t.walks, fresh := s.fresh + 1, ahead := [] }))
    ∧ (let ended := fun (w : Walk) => s.walkOf (fun x => x = .close p) = some w ∧ s.walkOver w = true
       (∀ w, ended w → ∃ t, exec (.closeRecallDone p) ⟨s, q⟩ = .next ⟨t, q⟩ ∧ t.fld st EP_PSTATUS_PHASE = 2
          ∧ t.walks = s.walks.filter (fun x => x.id ≠ w.id) ∧ s.regsBut t [st] ∧ t = { s with regs := t.regs, pins := t.pins, now := t.now, walks := t.walks, ahead := [] })
       ∧ ((∀ w, ¬ended w) → nothing (.closeRecallDone p)))
    ∧ (let ended := s.fld st EP_PSTATUS_PHASE = 4 ∧ (h.summary = true ∨ h.valid = false)
       let par := s.fld st EP_PSTATUS_PAR
       let cb := 1 - s.openBank k
       let new := fun (w : Word) => let e := getF w T1_EPST
         setF w T1_EPST (if e = par then 1 - par else if h.aborted ∧ e = 3 - par then 2 + par else e)
       (¬ended → nothing (.harvestDone p))
       ∧ (ended → s.calm → s.epochs k = true → Tbl.wf Frame.zero s.frames = true → Tbl.wf Victim.none s.victims = true → Tbl.wf 0 s.ledger = true →
          ∃ t, exec (.harvestDone p) ⟨s, q⟩ = .next ⟨t, q⟩ ∧ t.flag st EP_PSTATUS_HARVEST = false ∧ t.fld st EP_PSTATUS_PHASE = 0
            ∧ t.flag st EP_PSTATUS_DONE = true ∧ (s.flag (EP_PCTRL k) EP_PCTRL_DONE_IRQ_EN = true → t.pins.mgmtMore = true)
            ∧ t.harvest k = { Harvest.idle with armLate := h.armLate } ∧ (∀ j, j ≠ k → t.harvest j = s.harvest j)
            ∧ (∀ key, key ∈ s.pinKeys k ∨ (s.outsideCache (keyWay key) = false ∧ getF (s.frame key).w0 T0_VALID = 1 ∧ getF (s.frame key).w0 T0_PID = k) →
                t.frame key = { s.frame key with w1 := new (s.frame key).w1 })
            ∧ (∀ key, key ∉ s.pinKeys k → (s.outsideCache (keyWay key) = true ∨ getF (s.frame key).w0 T0_VALID ≠ 1 ∨ getF (s.frame key).w0 T0_PID ≠ k) →
                t.frame key = s.frame key)
            ∧ (∀ e, getF (s.vict e).frame.w0 T0_PID = k → t.vict e = { s.vict e with frame := { (s.vict e).frame with w1 := new (s.vict e).frame.w1 } })
            ∧ (∀ e, getF (s.vict e).frame.w0 T0_PID ≠ k → t.vict e = s.vict e)
            ∧ (∀ i, i < 2 ^ 18 → t.ledgerBit cb i = (s.ledgerBit cb i && !(s.maskBit k i))
                ∧ t.ledgerBit (1 - cb) i = (s.ledgerBit (1 - cb) i || (h.aborted && s.ledgerBit cb i && s.maskBit k i)))
            ∧ s.regsBut t [st]
            ∧ t = { s with regs := t.regs, pins := t.pins, now := t.now, frames := t.frames, victims := t.victims, ledger := t.ledger, harvests := t.harvests, ahead := [] }))

/-- R261, R262, R263, R264: the drain engine holds at 16 unacknowledged lines; for a partition in harvest it writes the index line of a full block,
else the oldest shelf frame as a record, which frees it (a frame is read at the grant of its bank's slot), else the next ledger line under the partition's mask, else a FROZEN frame as a record, which
becomes CAPTURED, and after RELEASE or ABORT the summary; a record that would pass the end of the area stops it. R258, R260: SHELF_WAYS is locked
while a partition is active, and refused for a value that meets the pinned ways of PID 0 or leaves PID 0 too few ways; else ways that leave are zeroed
and added ways are passed over, with BUSY until the pass ends. R257, R95: a pinned write over a FROZEN frame while its harvest captures first copies
the frame to a free shelf frame of its set, and is answered 2 fc later. -/
def Obligations.DrainsAndCapture : Prop :=
  (∀ (s : Slice) (q : List Instr) (p : Pid) (txn : Nat),
     let k := p.toNat
     let st := EP_PSTATUS k
     let h := s.harvest k
     let ph := s.fld st EP_PSTATUS_PHASE
     let cb := 1 - s.openBank k
     (16 ≤ s.drainOut (fun _ => true) ∨ (∀ j, j < 16 → s.flag (EP_PSTATUS j) EP_PSTATUS_HARVEST = false) →
       ∃ t, exec .drainWrite ⟨s, q⟩ = .next ⟨t, q⟩ ∧ s.regsOnly t ∧ s.regsBut t [])
     ∧ (s.calm → s.txnWait = [] → s.freeTxn = some txn → s.drainOut (fun _ => true) < 16 → k ≠ 0 → s.flag st EP_PSTATUS_HARVEST = true →
         (∀ j, j < 16 → j ≠ 0 → j ≠ k → s.flag (EP_PSTATUS j) EP_PSTATUS_HARVEST = false) →
       let does := fun (regs : List Nat) (h' : Harvest) (effect : Slice → Prop) => ∃ t, exec .drainWrite ⟨s, q⟩ = .next ⟨t, q⟩ ∧ effect t ∧ t.harvest k = h'
         ∧ (∀ j, j ≠ k → t.harvest j = s.harvest j) ∧ t.drainPtr = (k + 1) % 16 ∧ s.sameHome t
         ∧ (t.flag st EP_PSTATUS_FROZEN_DONE = true ↔ s.flag st EP_PSTATUS_FROZEN_DONE = true
             ∨ (2 ≤ t.fld st EP_PSTATUS_PHASE ∧ h'.ledger = 256 ∧ t.nextFrozen k = none))
         ∧ s.regsBut t ([st] ++ regs)
         ∧ t = { s with regs := t.regs, pins := t.pins, now := t.now, frames := t.frames, banks := t.banks, txns := t.txns, egress := t.egress, fresh := t.fresh,
                        harvests := t.harvests, drainPtr := t.drainPtr, gov := { s.gov with activity := t.gov.activity }, grantsTotal := t.grantsTotal, ahead := [] }
       let wrote := fun (t : Slice) (half off : Nat) (d : Line) => t.egress = s.egress ++ [s.outWr half 30 k txn (s.areaBase k + off) 15 d]
         ∧ Tbl.at TxnUse.none t.txns txn = .drain k (s.areaBase k + off) ∧ ∀ x, x ≠ txn → Tbl.at TxnUse.none t.txns x = Tbl.at TxnUse.none s.txns x
       let still := fun (t : Slice) => t.frames = s.frames ∧ t.banks = s.banks
       let block := 0x8800 + h.block * 0x800
       let room := h.index ≠ [] ∨ s.blockFits k h.block = true
       let counted := fun (t : Slice) => t.fld (EP_PREC1 k) EP_PREC1_RECORDS = min (2 ^ EP_PREC1_RECORDS.len - 1) (s.fld (EP_PREC1 k) EP_PREC1_RECORDS + 1)
       let noted := [EP_PREC1 k, DG_TEVT, DG_TEVT_CNT]
       let runs := h.aborted = false ∧ h.index.length < 15 ∧ h.stop = false ∧ ph < 4
       (h.aborted = false → h.index.length = 15 → does [] { h with block := h.block + 1, index := [] }
         (fun t => wrote t 0 block (indexLine h.index h.block (s.fld (EP_PREC1 k) EP_PREC1_EPOCH)) ∧ still t))
       ∧ (∀ key x, runs → s.oldestShelf k = some key → s.keySet key = some x → s.awake (keyHalf key) = true →
           let may := (s.coming q).drainMay key = true
           let f := s.frame key
           let pin := f.w0.getLsbD 5
           let line := if pin then s.pinLine k x (getF f.w0 ⟨9, 4⟩) else blockFrom x (getF f.w0 ⟨17, 27⟩) * 4 + getF f.w0 ⟨7, 2⟩
           (room → may → does noted { h with index := h.index ++ [indexEntry line pin (f.w0.getLsbD 6) true] }
             (fun t => wrote t (keyHalf key) (block + 0x80 * (h.index.length + 1)) f.data ∧ t.frame key = Frame.zero ∧ s.framesBut t key ∧ counted t))
           ∧ (¬room → does [] { h with stop := true } (fun t => t.flag st EP_PSTATUS_AREA_FULL = true ∧ t.egress = s.egress ∧ t.txns = s.txns ∧ still t)))
       ∧ (runs → s.oldestShelf k = none → 2 ≤ ph → h.ledger < 256 → does [] { h with ledger := h.ledger + 1 }
           (fun t => (∃ d, (∀ j, j < 16 → d.extractLsb' (64 * j) 64 = Tbl.at 0 s.ledger (cb * 4096 + h.ledger * 16 + j) &&& s.maskWord k (h.ledger * 16 + j))
               ∧ wrote t 0 (128 * h.ledger) d)
             ∧ (t.flag st EP_PSTATUS_LEDGER_DONE = true ↔ s.flag st EP_PSTATUS_LEDGER_DONE = true ∨ h.ledger = 255)
             ∧ (h.ledger = 255 → s.flag (EP_PCTRL k) EP_PCTRL_LEDGER_IRQ_EN = true → t.pins.mgmtMore = true) ∧ still t))
       ∧ (∀ key x, runs → s.oldestShelf k = none → 2 ≤ ph → h.ledger = 256 → s.nextFrozen k = some (.frame key) → s.keySet key = some x →
           s.awake (keyHalf key) = true → room → (s.coming q).drainMay key = true →
           let f := s.frame key
           let pin := (s.pinMask k).getLsbD (keyWay key)
           let dead := pin && f.w0.getLsbD 0
           let line := if pin then s.pinLine k x (keyWay key) else (s.frameLines key).headD 0
           does noted { h with index := h.index ++ [indexEntry line pin dead false] }
             (fun t => wrote t (keyHalf key) (block + 0x80 * (h.index.length + 1)) (if dead then 0 else f.data)
               ∧ t.frame key = { f with w1 := setF f.w1 T1_EPST (s.epstCaptured k) } ∧ s.framesBut t key ∧ counted t))
       ∧ ((h.aborted = true ∧ h.summary = false ∧ h.valid = true)
             ∨ (runs ∧ s.oldestShelf k = none ∧ 2 ≤ ph ∧ h.ledger = 256 ∧ s.nextFrozen k = none ∧ h.final = true ∧ h.index = []) →
           does [] { h with summary := true } (fun t => wrote t 0 0x8000 (s.summaryLine k) ∧ t.fld st EP_PSTATUS_PHASE = 4 ∧ still t))))
  ∧ (∀ (s : Slice) (q : List Instr),
       (∀ (n : Node) (v : Word), s.ready = true → s.calm → Tbl.wf Frame.zero s.frames = true →
         let m := getF v EP_CTRL_SHELF_WAYS
         let new := shelfWaysOf m
         let gone := s.shelfWays &&& ~~~new
         let added := new &&& ~~~s.shelfWays
         let moved := s.anyActive = true ∧ m ≠ s.fld EP_CTRL EP_CTRL_SHELF_WAYS
         let refused := m = 3 ∨ new &&& s.pinMask 0 ≠ 0 ∨ 14 < popcount (new ||| s.pinnedWays ||| s.pinMask 0)
         ∃ t, exec (.shelfWaysWrite n v) ⟨s, q⟩ = .next ⟨t, q⟩
           ∧ (moved → s.noted.regsBut t logRegs ∧ t = { s.noted with regs := t.regs, pins := t.pins, now := t.now, wroteRegs := t.wroteRegs, errLog := t.errLog, ahead := [] })
           ∧ (¬moved → refused → t.flag EP_SHELF EP_SHELF_REFUSED = true ∧ s.noted.regsBut t [EP_SHELF] ∧ s.noted.wroteOnly t)
           ∧ (¬moved → ¬refused → s.anyActive = true → s.noted.regsBut t [] ∧ s.noted.wroteOnly t)
           ∧ (s.anyActive = false → ¬refused → t.fld EP_CTRL EP_CTRL_SHELF_WAYS = m
             ∧ (∀ key, t.frame key = if gone.getLsbD (keyWay key) && (s.keySet key).isSome then Frame.zero else s.frame key)
             ∧ (added = 0 → t.walks = s.walks ∧ s.noted.regsBut t [EP_CTRL])
             ∧ (added ≠ 0 → t.flag EP_SHELF EP_SHELF_BUSY = true ∧ s.noted.regsBut t [EP_CTRL, EP_SHELF] ∧ t.walks = s.walks ++ [⟨s.fresh, .shelf added, [], 0⟩])
             ∧ t = { s.noted with regs := t.regs, pins := t.pins, now := t.now, wroteRegs := t.wroteRegs, frames := t.frames, walks := t.walks, fresh := t.fresh, ahead := [] }))
       ∧ (let shelf := fun (x : WalkKind) => match x with
            | .shelf _ => true
            | _ => false
          let ended := fun (w : Walk) => s.walkOf shelf = some w ∧ s.walkOver w = true
          (∀ w, ended w → ∃ t, exec .shelfPassDone ⟨s, q⟩ = .next ⟨t, q⟩ ∧ t.walks = s.walks.filter (fun x => x.id ≠ w.id)
             ∧ ((∀ x ∈ t.walks, shelf x.kind = false) → t.flag EP_SHELF EP_SHELF_BUSY = false) ∧ s.regsBut t [EP_SHELF]
             ∧ t = { s with regs := t.regs, pins := t.pins, now := t.now, walks := t.walks, ahead := [] })
          ∧ ((∀ w, ¬ended w) → ∃ t, exec .shelfPassDone ⟨s, q⟩ = .next ⟨t, q⟩ ∧ s.regsOnly t ∧ s.regsBut t []))
       ∧ (∀ (a : Arr) (lp way : Nat) (fo : Bool), s.opens q OP_PIN_WR a lp fo → a.smask ≠ 0 → s.capturing lp = true →
           let key := s.bufKey lp a.addr.toNat
           let x := bufSet a.addr.toNat
           let f := s.frame key
           let dead := f.w0.getLsbD 0
           getF f.w1 T1_EPST = s.epstFrozen lp → s.freeShelf x = some way → key ≠ s.fkey x way →
           ∃ t, exec (.pinWr a) ⟨s, q⟩ = .next ⟨t, q⟩
             ∧ t.egress = s.egress ++ [s.outRsp (ansPort OP_PIN_WR a) (s.slotFc + 15) a RS_COMP 0]
             ∧ t.frame (s.fkey x way) = ⟨shelfW0 lp true dead 0 (keyWay key) s.shelfSeq, 0, if dead then 0 else f.data⟩
             ∧ t.frame key = ⟨0, setF (0 : Word) T1_EPST (s.epstWritten lp), mergeLine (byteMask (bytesOfSectors a.smask)) a.line f.data⟩
             ∧ (∀ j, j ≠ key → j ≠ s.fkey x way → t.frame j = s.frame j) ∧ t.shelfSeq = (s.shelfSeq + 1) % 65536
             ∧ t.fld (EP_PCNT lp) EP_PCNT_CAPTURES = min (2 ^ EP_PCNT_CAPTURES.len - 1) (s.fld (EP_PCNT lp) EP_PCNT_CAPTURES + 1)
             ∧ (t.bank (firstBank OP_PIN_WR a)).free = s.slotFc + 3 ∧ s.sameCredits t ∧ s.sameHome t
             ∧ s.regsBut t ([EP_PCNT lp, DG_TEVT, DG_TEVT_CNT] ++ if a.sched then [CZ_CONFLICT_CNT, CZ_CONFLICT] ++ logRegs else [])))

/-! ### Bandwidth -/

/-- R278: a write of minimum shares is locked while a partition is active, and refused where the minima would exceed 224. R275, R276, R279, R280: 256 fc
after the last one began a window starts, and not before: each port loads the minima as egress guarantees, and each half its fill allowances: in full, or scaled to the fills sunk where the window
was short, which is counted. R294: a damper period that has come starts with no grants counted but that of
this fc's slot. R403, R400: an egress credit comes back, unless outputs are clamped. -/
def Obligations.Bandwidth : Prop :=
  ∀ (s : Slice) (q : List Instr),
    (∀ (k : Fin 4) (n : Node) (v : Word), s.ready = true →
      let moved := s.anyActive = true ∧ v ≠ s.reg (BW_MIN k.val)
      let sum := ((List.range 32).map (fun c => if c / 8 = k.val then getF v ⟨8 * (c % 8), 8⟩ else s.bwMin c)).sum
      ∃ t, exec (.bwMinWrite k n v) ⟨s, q⟩ = .next ⟨t, q⟩
        ∧ (moved → s.noted.regsBut t logRegs ∧ t = { s.noted with regs := t.regs, pins := t.pins, now := t.now, wroteRegs := t.wroteRegs, errLog := t.errLog, ahead := [] })
        ∧ (¬moved → 224 < sum → t.flag BW_STATUS BW_STATUS_REFUSED = true ∧ s.noted.regsBut t ([BW_STATUS] ++ logRegs)
            ∧ t = { s.noted with regs := t.regs, pins := t.pins, now := t.now, wroteRegs := t.wroteRegs, errLog := t.errLog, fresh := s.fresh + 1, ahead := [] })
        ∧ (¬moved → sum ≤ 224 → t.reg (BW_MIN k.val) = v ∧ s.noted.regsBut t [BW_MIN k.val] ∧ s.noted.wroteOnly t))
    ∧ (let g := s.fillSum
       let sunk := fun (h : Nat) => (s.fillReg h).sunk
       let short := fun (h : Nat) => s.fillLimited && decide (sunk h < g) && (s.fillReg h).starved
       let lack := fun (h : Nat) => if short h then g - sunk h else 0
       let full := fun (h : Nat) => s.fillFull h && (List.range 8).any (fun b => (s.bank (h * 8 + b)).holdq.any (fun e => e.wait = .fill)
         || (s.bank (h * 8 + b)).conts.any (fun c => c.wait = some .fill))
       (s.winFc ≠ 256 → ∃ t, exec .regWindowStart ⟨s, q⟩ = .next ⟨t, q⟩ ∧ s.regsOnly t ∧ s.regsBut t [])
       ∧ (s.winFc = 256 → ∃ t, exec .regWindowStart ⟨s, q⟩ = .next ⟨t, q⟩ ∧ t.winFc = 0
         ∧ (∀ h, h < 2 → t.fillReg h =
             if !(s.fillLimited) then ⟨perClass (fun _ => 0), 0, 0, full h⟩
             else if short h then
               let f := perClass (fun c => s.fillBase c * sunk h / g)
               ⟨f, sunk h - f.sum, 0, full h⟩
             else ⟨perClass s.fillBase, s.bwLines - g, 0, full h⟩)
         ∧ (∀ p, p < 4 → Tbl.at Egress.init t.eports p =
             { Tbl.at Egress.init s.eports p with g := perClass (fun c => if s.flag BW_CTRL BW_CTRL_REG_EN then s.bwMin c else 0) })
         ∧ t.fld BW_SHORT BW_SHORT_SHORTFALL = min (2 ^ BW_SHORT_SHORTFALL.len - 1) (s.fld BW_SHORT BW_SHORT_SHORTFALL + lack 0 + lack 1)
         ∧ t.fld BW_SHORT BW_SHORT_WINDOWS = min (2 ^ BW_SHORT_WINDOWS.len - 1) (s.fld BW_SHORT BW_SHORT_WINDOWS + b2n (short 0) + b2n (short 1))
         ∧ (∀ h, h < 2 → short h = true → t.flag BW_STATUS (oversub h) = true ∧ t.fld BW_SCALE (scaleG h) = g % 2 ^ (scaleG h).len
             ∧ t.fld BW_SCALE (scaleD h) = sunk h % 2 ^ (scaleD h).len ∧ (s.flag BW_CTRL BW_CTRL_OVERSUB_IRQ_EN = true → t.pins.mgmtMore = true))
         ∧ (short 0 = false → short 1 = false → s.regsBut t []) ∧ s.regsBut t [BW_STATUS, BW_SHORT, BW_SCALE]
         ∧ t = { s with regs := t.regs, pins := t.pins, now := t.now, fillRegs := t.fillRegs, eports := t.eports, winFc := 0, ahead := [] }))
    ∧ (∃ t, exec .damperPeriodStart ⟨s, q⟩ = .next ⟨t, q⟩
        ∧ (∀ bk, t.bank bk = if s.damperDue && decide (bk < 18) && !((s.bank bk).taken.contains (s.slotFc, 1)) then { s.bank bk with grants := [], grantsAll := 0 } else s.bank bk)
        ∧ s.regsBut t [] ∧ t = { s with regs := t.regs, pins := t.pins, now := t.now, banks := t.banks, damperDue := false, ahead := [] })
    ∧ (∀ (p : Port) (c : Cls), ∃ t, exec (.meshEgressCredit p c) ⟨s, q⟩ = .next ⟨t, q⟩ ∧ t.txHeld p c = s.txHeld p c + (if s.clamped then 0 else 1)
        ∧ (∀ p' c', (p', c') ≠ (p, c) → t.txHeld p' c' = s.txHeld p' c') ∧ s.regsBut t []
        ∧ t = { s with regs := t.regs, pins := t.pins, now := t.now, txCred := t.txCred, ahead := [] })

/-! ### Rail governor and dampers -/

/-- R285, R287 to R291, R297, R298: an accepted frame is kept in PG_RAIL_MEAS, moves the feedback and thermal levels, sets the feedforward level, and
the effective levels are broadcast for their apply count; a rejected one does nothing. R287: a missed window counts, and at the limit of misses feedback takes the failsafe
level. R291, R292: LEVELS queues a damper write for each core of a changed partition, and waits for its count; writes leave one by one. R295: a droop
clamps. R296, R304: hints and reports. R300, R231: a change of frequency. -/
def Obligations.RailGovernor : Prop :=
  ∀ (s : Slice) (q : List Instr),
    let nothing := fun (c : Instr) => ∃ t, exec c ⟨s, q⟩ = .next ⟨t, q⟩ ∧ s.regsOnly t ∧ s.regsBut t []
    let timing := [DG_TEVT, DG_TEVT_CNT]
    (∀ bytes : List Byte,
      let good := s.govRuns = true ∧ s.gov.done = false ∧ s.count.toNat % 100 < 80 ∧ s.frameGood bytes = true
      let m := s.keepMeas bytes
      let temp := getF (frameWord bytes 0) TF_TEMP
      let lim := s.fld PG_CTRL PG_CTRL_T_LIMIT
      let hold := atLeast1 (s.fld PG_CTRL PG_CTRL_REL_HOLD)
      let low := m.belowPct (s.fld PG_CTRL PG_CTRL_REL_PCT) = true
      (¬good → nothing (.telemetryFrame bytes))
      ∧ (good → ∃ t, exec (.telemetryFrame bytes) ⟨s, q⟩ = .next ⟨t, q⟩
        ∧ (∀ w ∈ frameRecords bytes, let r := getF w TF_RAIL
            t.railCurrent r = getF w TF_CURRENT ∧ t.railVolt r = getF w TF_VOLT ∧ t.railIpeak r = getF w TF_IPEAK)
        ∧ t.fld PG_STATUS PG_STATUS_TEMP = temp ∧ t.gov.done = true ∧ t.gov.missRun = 0
        ∧ t.fld PG_TEL_CNT PG_TEL_CNT_GOOD = min (2 ^ PG_TEL_CNT_GOOD.len - 1) (s.fld PG_TEL_CNT PG_TEL_CNT_GOOD + 1)
        ∧ (s.lFb < m.maxCand → t.lFb = m.maxCand ∧ t.gov.fbRun = 0)
        ∧ (m.maxCand ≤ s.lFb → low → hold ≤ s.gov.fbRun + 1 → t.lFb = s.lFb - 1 ∧ t.gov.fbRun = 0)
        ∧ (m.maxCand ≤ s.lFb → low → s.gov.fbRun + 1 < hold → t.lFb = s.lFb ∧ t.gov.fbRun = s.gov.fbRun + 1)
        ∧ (m.maxCand ≤ s.lFb → ¬low → t.lFb = s.lFb ∧ t.gov.fbRun = 0)
        ∧ (lim = 0 → t.lTh = s.lTh) ∧ (lim ≠ 0 → lim ≤ temp → t.lTh = min 15 (s.lTh + 1))
        ∧ (temp < lim → s.cool temp = true → t.lTh = if hold ≤ s.gov.thRun + 1 then s.lTh - 1 else s.lTh) ∧ (temp < lim → s.cool temp = false → t.lTh = s.lTh)
        ∧ t.lFf = (if t.running = [] then 0 else (firstBelow 16 t.ffMeets).getD 15) ∧ (s.count.toNat < s.applyCount → t.planAt s.applyCount = t.effectives s.applyCount)
        ∧ t.ownAt s.applyCount = ⟨s.applyCount, max t.lFb t.lTh, t.lFf, if t.lFb < t.lTh then R_THERMAL else t.gov.fbReason⟩ ∧ t.gov.hints = []
        ∧ s.regsBut t ([PG_STATUS, PG_TEL_CNT, PG_LOG_STATUS] ++ (List.range 8).map (fun r => PG_RAIL_MEAS r))
        ∧ t = { s with regs := t.regs, pins := t.pins, now := t.now, gov := t.gov, ring := t.ring, fresh := t.fresh, ahead := [] }))
    ∧ (let skips := s.govRuns = false ∨ s.gov.done = true
       let fails := atLeast1 (s.fld PG_CTRL PG_CTRL_TEL_MISS_MAX) ≤ s.gov.missRun + 1
       (skips → nothing .missedWindow)
       ∧ (¬skips → ∃ t, exec .missedWindow ⟨s, q⟩ = .next ⟨t, q⟩ ∧ t.gov.done = true ∧ t.gov.missRun = s.gov.missRun + 1 ∧ t.gov.boostReq = false
          ∧ t.gov.fbRun = 0 ∧ t.gov.thRun = 0 ∧ t.fld PG_TEL_CNT PG_TEL_CNT_BAD = min (2 ^ PG_TEL_CNT_BAD.len - 1) (s.fld PG_TEL_CNT PG_TEL_CNT_BAD + 1)
          ∧ (¬fails → t.reg PG_STATUS = s.reg PG_STATUS ∧ t.ring = s.ring ∧ t.gov.plan = s.gov.plan ∧ t.gov.own = s.gov.own)
          ∧ (fails → t.lFb = max s.lFb (s.fld PG_CTRL PG_CTRL_FAILSAFE_LEVEL) ∧ t.flag PG_STATUS PG_STATUS_TEL_FAIL = true
              ∧ (s.flag PG_STATUS PG_STATUS_TEL_FAIL = false → t.pins.mgmtMore = true) ∧ (s.count.toNat < s.applyCount → t.planAt s.applyCount = t.effectives s.applyCount))
          ∧ s.regsBut t [PG_TEL_CNT, PG_STATUS, PG_LOG_STATUS] ∧ t = { s with regs := t.regs, pins := t.pins, now := t.now, gov := t.gov, ring := t.ring, ahead := [] }))
    ∧ (∀ l c : Word,
        (s.ringUp = false → nothing (.levels l c))
        ∧ (s.ringUp = true → ∃ t, exec (.levels l c) ⟨s, q⟩ = .next ⟨t, q⟩
          ∧ (t.ring.out ++ t.ring.queue).Perm (s.ring.out ++ s.ring.queue ++ if s.lead then [] else [⟨RG_LEVELS, RG_ALL, 0, flits2 l ++ flits2 c⟩])
          ∧ (s.isOpen = true → t.gov = { s.gov with heard := l, damperQ := s.gov.damperQ ++
                ((List.range 16).filter (fun p => levelIn l p ≠ levelIn s.gov.heard p)).flatMap (fun p =>
                  s.dampCores.map (fun x => (x, damperWord (levelIn l p) p false (c.toNat % 2 ^ 48)))) }
              ∧ t.ring.timed = s.ring.timed ++ [.levels l c] ∧ (c.toNat ≤ s.count.toNat → t.flag RG_STATUS RG_STATUS_LATE = true)
              ∧ (s.count.toNat < c.toNat → s.regsBut t []))
          ∧ (s.isOpen = false → t.gov = s.gov ∧ t.ring.timed = s.ring.timed ∧ s.regsBut t [])
          ∧ s.regsBut t ([RG_STATUS] ++ timing) ∧ t = { s with regs := t.regs, pins := t.pins, now := t.now, gov := t.gov, ring := t.ring, ahead := [] }))
    ∧ ((s.gov.damperQ = [] → nothing .damperWriteSend)
       ∧ (∀ c w rest txn, s.gov.damperQ = (c, w) :: rest → s.txnWait = [] → s.freeTxn = some txn →
          ∃ t, exec .damperWriteSend ⟨s, q⟩ = .next ⟨t, q⟩ ∧ t.gov = { s.gov with damperQ := rest } ∧ s.regsBut t []
            ∧ (∀ n, s.nodeOf c = some n → Tbl.at TxnUse.none t.txns txn = .damper ∧ t.egress = s.egress ++ [⟨0, s.fc, s.fresh, 31, true,
                ⟨.req, OP_CFG_WR, s.node 0, BitVec.ofNat 11 n, 0, BitVec.ofNat 10 txn, false, 0, 0,
                  BitVec.ofNat 48 (s.fld PG_CORE_REG PG_CORE_REG_ADDR * 8), 0, w.setWidth 1152⟩, none⟩])
            ∧ (s.nodeOf c = none → t.egress = s.egress ∧ t.txns = s.txns)
            ∧ (∀ x, x ≠ txn → Tbl.at TxnUse.none t.txns x = Tbl.at TxnUse.none s.txns x)
            ∧ t = { s with regs := t.regs, pins := t.pins, now := t.now, gov := t.gov, txns := t.txns, egress := t.egress, fresh := t.fresh, ahead := [] }))
    ∧ (let level := s.fld PG_DROOP PG_DROOP_LEVEL
       let skips := s.fld PG_DROOP PG_DROOP_THRESH = 0 ∨ s.gov.clamp = true
       let writes := fun (l : Nat) => s.gov.damperQ ++ s.dampCores.map (fun x => (x, damperWord l 0 true 0))
       let rest := fun (t : Slice) => t.gov.levels = s.gov.levels ∧ t.gov.heard = s.gov.heard
         ∧ t = { s with regs := t.regs, pins := t.pins, now := t.now, gov := t.gov, ahead := [] }
       (skips → nothing .droopTrip)
       ∧ (¬skips → ∃ t, exec .droopTrip ⟨s, q⟩ = .next ⟨t, q⟩ ∧ t.gov.clamp = true ∧ t.gov.droopLevel = level ∧ t.gov.damperQ = writes level
          ∧ t.fld PG_DROOP PG_DROOP_COUNT = min (2 ^ PG_DROOP_COUNT.len - 1) (s.fld PG_DROOP PG_DROOP_COUNT + 1)
          ∧ (s.detActive = true → t.flag DG_TEVT DG_TEVT_DROOP = true) ∧ s.regsBut t ([PG_DROOP, PG_LOG_STATUS] ++ timing) ∧ rest t)
       ∧ (s.gov.clamp = false → nothing .droopClampEnd)
       ∧ (s.gov.clamp = true → ∃ t, exec .droopClampEnd ⟨s, q⟩ = .next ⟨t, q⟩ ∧ t.gov.clamp = false ∧ t.gov.damperQ = writes 0
          ∧ s.regsBut t [PG_LOG_STATUS] ∧ rest t))
    ∧ (∀ (n : Node) (v : Word), s.ready = true →
        (∃ t, exec (.pgPhaseHintWrite n v) ⟨s, q⟩ = .next ⟨t, q⟩ ∧ t.fld PG_PHASE_HINT PG_PHASE_HINT_PID = getF v PG_PHASE_HINT_PID
          ∧ t.fld PG_PHASE_HINT PG_PHASE_HINT_PHASE = getF v PG_PHASE_HINT_PHASE
          ∧ t.gov = { s.gov with hints := s.gov.hints ++ if s.lead then [(getF v PG_PHASE_HINT_PID, getF v PG_PHASE_HINT_PHASE)] else [] }
          ∧ s.noted.regsBut t [PG_PHASE_HINT] ∧ t = { s.noted with regs := t.regs, pins := t.pins, now := t.now, wroteRegs := t.wroteRegs, gov := t.gov, ahead := [] })
        ∧ (let key := 16 * K_LOGIC + getF v PG_ACT_REPORT_PID
           ∃ t, exec (.pgActReportWrite n v) ⟨s, q⟩ = .next ⟨t, q⟩
             ∧ Tbl.at 0 t.gov.activity key = Tbl.at 0 s.gov.activity key + s.fld PG_ACT_WT PG_ACT_WT_W_MACT * getF v PG_ACT_REPORT_MACT
             ∧ (∀ k, k ≠ key → Tbl.at 0 t.gov.activity k = Tbl.at 0 s.gov.activity k) ∧ s.noted.regsBut t []
             ∧ t = { s.noted with regs := t.regs, pins := t.pins, now := t.now, wroteRegs := t.wroteRegs, gov := { s.gov with activity := t.gov.activity }, ahead := [] }))
    ∧ (∀ hi : Bool, (s.freqHi = hi → nothing (.freqChange hi))
        ∧ (s.freqHi ≠ hi → ∃ t, exec (.freqChange hi) ⟨s, q⟩ = .next ⟨t, q⟩ ∧ t.freqHi = hi ∧ t.flag PG_STATUS PG_STATUS_BOOST = hi
            ∧ (s.detActive = true → t.flag DG_TEVT DG_TEVT_FREQ = true) ∧ s.regsBut t ([PG_STATUS] ++ timing)
            ∧ t = { s with regs := t.regs, pins := t.pins, now := t.now, freqHi := hi, ahead := [] }))
    ∧ (∃ t, exec .telSync ⟨s, q⟩ = .next ⟨t, q⟩ ∧ s.regsBut t [] ∧ s.regsOnly t
        ∧ t.pins.telSync = (if s.lead && !s.start.aonReset && s.count.toNat % 100 = 0 then 1 else s.pins.telSync))

/-- R301, R302, R303: at a boundary the governor proposes its level on the board ring and counts its clamp ticks; the group level is the largest
proposal, decided when the last one is in or at the deadline, where missing hosts are counted and a host missed twice is LOST, and it applies at its
count. R305: the activity and energy tokens gain this slice's totals and go on; at the lead the first sends KAPPA and the second books the rest as
unattributed; KAPPA books each partition's energy. -/
def Obligations.RopeGroupsAndEnergy : Prop :=
  ∀ (s : Slice) (q : List Instr),
    let nothing := fun (c : Instr) => ∃ t, exec c ⟨s, q⟩ = .next ⟨t, q⟩ ∧ s.regsOnly t ∧ s.regsBut t []
    (∀ g : Fin 4,
      let v := s.group g.val
      let period := s.fld (PG_GROUP g.val) PG_GROUP_GPERIOD
      let pid := s.fld (PG_GROUP g.val) PG_GROUP_PID
      let level := max (max s.lFb s.lTh) s.lFf
      let b := s.count.toNat
      let me := s.hostId
      let props := Tbl.put (0, 0) v.props me (level + 1, b % 2 ^ 56)
      let allIn := ∀ h ∈ s.members g.val, (Tbl.at (0, 0) props h).1 ≠ 0 ∧ (Tbl.at (0, 0) props h).2 = b % 2 ^ 56
      let at' := v.boundary + s.glead g.val
      let rest := fun (t : Slice) => (∀ j, j ≠ g.val → t.group j = s.group j) ∧ s.regsBut t [PG_GSTAT g.val, PG_LOG_STATUS]
        ∧ t = { s with regs := t.regs, pins := t.pins, now := t.now, gov := t.gov, board := t.board, ring := t.ring, ahead := [] }
      (s.govRuns = false ∨ s.flag (PG_GROUP g.val) PG_GROUP_VALID = false ∨ period = 0 ∨ b % period ≠ 0 → nothing (.groupBoundary g))
      ∧ (s.govRuns = true → s.flag (PG_GROUP g.val) PG_GROUP_VALID = true → period ≠ 0 → b % period = 0 → s.groupOf pid = some g.val → me ∈ s.members g.val →
          ∃ t, exec (.groupBoundary g) ⟨s, q⟩ = .next ⟨t, q⟩
            ∧ (let pl := propPayload pid level (v.clampTicks % 2 ^ 32) (b % 2 ^ 56)
               (s.boardOn = false → t.board = s.board)
               ∧ (s.boardOn = true → s.boardFree = false → t.board = { s.board with own := s.board.own ++ [⟨s.refs, BF_PROP, me, pl⟩] })
               ∧ (s.boardOn = true → s.boardFree = true → s.board.own = [] → s.board.down = false →
                    t.board.out = s.board.out ++ [⟨BF_PROP, s.board.seq, me, pl, s.refs⟩] ∧ t.board.own = []))
            ∧ t.fld (PG_GSTAT g.val) PG_GSTAT_CLAMP = min (2 ^ PG_GSTAT_CLAMP.len - 1) (s.fld (PG_GSTAT g.val) PG_GSTAT_CLAMP + v.clampTicks)
            ∧ (¬allIn → t.group g.val = { v with boundary := b, clampTicks := 0, waiting := true, props := props })
            ∧ (allIn → t.group g.val =
                { v with boundary := b, clampTicks := 0, waiting := false, props := props, missed := [],
                         next := (s.members g.val).foldl (fun m h => max m ((Tbl.at (0, 0) props h).1 - 1)) 0 + 1 })
            ∧ rest t)
      ∧ (s.govRuns = false ∨ v.waiting = false ∨ b + 2 < at' → nothing (.proposalDeadline g))
      ∧ (s.govRuns = true → v.waiting = true → at' ≤ b + 2 →
          ∃ t, exec (.proposalDeadline g) ⟨s, q⟩ = .next ⟨t, q⟩
            ∧ t.group g.val = { v with missed := s.missing g.val, waiting := false, next := s.groupMax g.val + 1 }
            ∧ t.fld (PG_GSTAT g.val) PG_GSTAT_MISS =
                min (2 ^ PG_GSTAT_MISS.len - 1) (s.fld (PG_GSTAT g.val) PG_GSTAT_MISS + (s.missing g.val).length)
            ∧ ((∃ h ∈ s.missing g.val, h ∈ v.missed) → t.flag (PG_GSTAT g.val) PG_GSTAT_LOST = true ∧ t.pins.mgmtMore = true)
            ∧ (¬(∃ h ∈ s.missing g.val, h ∈ v.missed) → t.flag (PG_GSTAT g.val) PG_GSTAT_LOST = s.flag (PG_GSTAT g.val) PG_GSTAT_LOST)
            ∧ t.board = s.board ∧ rest t)
      ∧ (s.govRuns = false ∨ v.next = 0 ∨ b < at' → nothing (.groupApply g))
      ∧ (s.govRuns = true → v.next ≠ 0 → at' ≤ b →
          ∃ t, exec (.groupApply g) ⟨s, q⟩ = .next ⟨t, q⟩ ∧ t.fld (PG_GSTAT g.val) PG_GSTAT_L_GRP = (v.next - 1) % 2 ^ PG_GSTAT_L_GRP.len
            ∧ t.group g.val = { v with next := 0 } ∧ t.board = s.board ∧ rest t))
    ∧ (let gone := fun (t : Slice) (l : List RingPkt) => (t.ring.out ++ t.ring.queue).Perm (s.ring.out ++ s.ring.queue ++ l)
       let mine := fun (win : BitVec 15) => decide (s.gov.energyWin % 2 ^ 15 = win.toNat) && s.gov.energy != []
       let rest := fun (t : Slice) (regs : List Nat) => t.ring.failures = 0 ∧ s.regsBut t regs
         ∧ t = { s with regs := t.regs, pins := t.pins, now := t.now, gov := t.gov, ring := t.ring, fresh := t.fresh, ahead := [] }
       (∀ (win : BitVec 15) (l m h : Word) (clamped : Bool), (s.ringUp = false → nothing (.actSum ⟨win, clamped⟩ l m h))
          ∧ (s.ringUp = true → let joins := s.isOpen && s.sameWindow win.toNat
              let add := fun (k : Nat) (w : Word) => if joins then w + BitVec.ofNat 64 (s.actTotal k) else w
              let tk := fun (k : Nat) => if k = 0 then (add 0 l).toNat else if k = 1 then (add 1 m).toNat else (add 2 h).toNat
              ∃ t, exec (.actSum ⟨win, clamped⟩ l m h) ⟨s, q⟩ = .next ⟨t, q⟩ ∧ rest t []
                ∧ (s.lead = false → t.gov = s.gov ∧ gone t [⟨RG_ACT_SUM, RG_ALL, win.toNat, flits2 (add 0 l) ++ flits2 (add 1 m) ++ flits2 (add 2 h)⟩])
                ∧ (s.lead = true → mine win = false → t.gov = s.gov ∧ gone t [])
                ∧ (s.lead = true → mine win = true → gone t [⟨RG_KAPPA, RG_ALL, win.toNat, s.kappas tk⟩] ∧ t.gov = { s.gov with phases := t.gov.phases }
                    ∧ (s.gov.windowClamp = true ∨ clamped = true → t.gov = s.gov))))
       ∧ (∀ (win : BitVec 15) (ks : BitVec 256), (s.ringUp = false → nothing (.kappa win ks))
          ∧ (s.ringUp = true → let books := s.isOpen && s.sameWindow win.toNat
              ∃ t, exec (.kappa win ks) ⟨s, q⟩ = .next ⟨t, q⟩ ∧ rest t (if books then (List.range 16).map (fun p => PG_ENERGY p) else [])
                ∧ (∀ p, p < 16 → books = true → let r := Tbl.at 0 s.gov.residue p + s.energySum ks p
                    Tbl.at 0 t.gov.residue p = r % 10000
                    ∧ t.fld (PG_ENERGY p) PG_ENERGY_UJ = min (2 ^ 48 - 1) (s.fld (PG_ENERGY p) PG_ENERGY_UJ + r / 10000))
                ∧ (s.isOpen = true → t.gov.attributed = if books then ((List.range 16).map (s.energySum ks)).sum else 0)
                ∧ t.gov = { s.gov with residue := t.gov.residue, attributed := t.gov.attributed } ∧ (s.isOpen = false → t.gov = s.gov)
                ∧ gone t (if s.lead then (if mine win then [⟨RG_ATTR_SUM, RG_ALL, win.toNat, flits2 0⟩] else []) else
                    [⟨RG_KAPPA, RG_ALL, win.toNat, flits8 ks⟩])))
       ∧ (∀ (win : BitVec 15) (e : Word), (s.ringUp = false → nothing (.attrSum win e))
          ∧ (s.ringUp = true → let e2 := if s.isOpen then e + BitVec.ofNat 64 s.gov.attributed else e
              let total := (s.gov.energy.map (fun x => x.2.1 * x.2.2)).sum
              let r := Tbl.at 0 s.gov.residue 16 + (total - e2.toNat)
              ∃ t, exec (.attrSum win e) ⟨s, q⟩ = .next ⟨t, q⟩
                ∧ (s.lead = false → t.gov = s.gov ∧ gone t [⟨RG_ATTR_SUM, RG_ALL, win.toNat, flits2 e2⟩] ∧ rest t [])
                ∧ (s.lead = true → mine win = false → t.gov = s.gov ∧ gone t [] ∧ rest t [])
                ∧ (s.lead = true → mine win = true → t.gov = { s.gov with energy := [], residue := t.gov.residue } ∧ Tbl.at 0 t.gov.residue 16 = r % 10000
                    ∧ t.fld PG_ENERGY_UNATTR PG_ENERGY_UJ = min (2 ^ 48 - 1) (s.fld PG_ENERGY_UNATTR PG_ENERGY_UJ + r / 10000) ∧ gone t []
                    ∧ rest t [PG_ENERGY_UNATTR]))))

/-! ### Sleep states and ageing -/

/-- R312 to R315: an idle awake half commits to RETENTION while gating is enabled and no deterministic partition counts as active; the state is
reached later, what an OFF half held is lost, and a trigger that came meanwhile wakes it at once. A half in RETENTION moves towards OFF by a wake and
a flush walk; when that has ended the half goes OFF, or is held by a lost line or an active partition. A wake restores the arbiter pointers of a half that was OFF, applies
the planned assist level and is counted. -/
def Obligations.SleepStates : Prop :=
  ∀ (s : Slice) (q : List Instr) (half : Bool),
    let h := b2n half
    let v := s.half h
    let nothing := fun (c : Instr) => ∃ t, exec c ⟨s, q⟩ = .next ⟨t, q⟩ ∧ s.regsOnly t ∧ s.regsBut t []
    let rest := fun (t : Slice) => t.half (1 - h) = s.half (1 - h)
      ∧ t = { s with regs := t.regs, pins := t.pins, now := t.now, half0 := t.half0, half1 := t.half1, ahead := [] }
    (let idle := s.awake h = true ∧ s.flag AG_CTRL AG_CTRL_GATE_EN = true ∧ s.detHeld = false ∧ s.halfIdle h = true
     (¬idle → nothing (.halfRetentionCommit half))
     ∧ (idle → ∃ t, exec (.halfRetentionCommit half) ⟨s, q⟩ = .next ⟨t, q⟩ ∧ t.half h = { v with goal := some .retention } ∧ rest t ∧ s.regsBut t []))
    ∧ ((v.goal = none → nothing (.halfStateReached half))
       ∧ (∀ g, v.goal = some g → ∃ t, exec (.halfStateReached half) ⟨s, q⟩ = .next ⟨t, q⟩
          ∧ (v.wakePending = false → t.half h = { v with power := g, goal := none, wakePending := false })
          ∧ (v.wakePending = true → g = .retention ∨ g = .off → t.half h = ⟨.waking, none, false, decide (g = .off)⟩)
          ∧ t.half (1 - h) = s.half (1 - h)
          ∧ (∀ key, Tbl.at Frame.zero t.frames key = if g = .off ∧ keyHalf key = h then Frame.zero else Tbl.at Frame.zero s.frames key)
          ∧ (∀ r, Tbl.at 0 t.repl r = if g = .off ∧ r / 2304 = h then 0 else Tbl.at 0 s.repl r)
          ∧ (∀ k, Tbl.at 0 t.flips k = if g = .off ∧ flipInHalf k h = true then 0 else Tbl.at 0 s.flips k)
          ∧ (g ≠ .off → t.frames = s.frames ∧ t.repl = s.repl ∧ t.flips = s.flips ∧ t.patrols = s.patrols ∧ t.injAt = s.injAt)
          ∧ (g = .off → ∀ e, e ∈ t.patrols ↔ e ∈ s.patrols ∧ halfOfBank e.1 ≠ h) ∧ s.regsBut t []
          ∧ t = { s with regs := t.regs, pins := t.pins, now := t.now, half0 := t.half0, half1 := t.half1, frames := t.frames, repl := t.repl, flips := t.flips,
                         injAt := t.injAt, patrols := t.patrols, age := { s.age with broken := s.age.broken || s.age.measuring }, ahead := [] }))
    ∧ (let off := v.power = .retention ∧ v.goal = none ∧ s.flag AG_CTRL AG_CTRL_OFF_EN = true ∧ s.anyActive = false ∧ s.pinMask 0 = 0 ∧ s.halfLost h = false
       (¬off → nothing (.halfOffStart half))
       ∧ (off → ∃ t, exec (.halfOffStart half) ⟨s, q⟩ = .next ⟨t, q⟩ ∧ t.half h = ⟨.waking, none, false, false⟩ ∧ t.flag AG_PSTATE (flushField h) = true
          ∧ t.flag AG_PSTATE (flushField (1 - h)) = s.flag AG_PSTATE (flushField (1 - h)) ∧ rest t ∧ s.regsBut t [AG_PSTATE]))
    ∧ (∀ w, s.walkOf (fun k => k = .flush half) = some w → s.flag AG_PSTATE (flushField h) = true → s.walkOver w = true →
        let u := s.endWalk w
        (s.halfLost h = true → ∃ t, exec (.halfFlushDone half) ⟨s, q⟩ = .next ⟨t, q⟩ ∧ t.flag AG_PSTATE (heldField h) = true
          ∧ t.flag AG_PSTATE (flushField h) = false ∧ s.regsBut t [AG_PSTATE] ∧ t = { u with regs := t.regs, pins := t.pins, now := t.now, ahead := [] })
        ∧ (s.halfLost h = false → s.anyActive = true ∨ s.detHeld = true → ∃ t, exec (.halfFlushDone half) ⟨s, q⟩ = .next ⟨t, q⟩
          ∧ t.flag AG_PSTATE (flushField h) = false ∧ s.regsBut t [AG_PSTATE] ∧ t = { u with regs := t.regs, pins := t.pins, now := t.now, ahead := [] })
        ∧ (s.halfLost h = false → s.anyActive = false → s.detHeld = false → u.halfIdle h = true → s.awake h = true → ∃ t, exec (.halfFlushDone half) ⟨s, q⟩ = .next ⟨t, q⟩
          ∧ t.half h = { v with goal := some .off } ∧ t.half (1 - h) = s.half (1 - h) ∧ t.flag AG_PSTATE (flushField h) = false ∧ s.regsBut t [AG_PSTATE]
          ∧ t = { u with regs := t.regs, pins := t.pins, now := t.now, half0 := t.half0, half1 := t.half1, ahead := [] })
        ∧ (s.halfLost h = false → s.anyActive = false → s.detHeld = false → ¬(u.halfIdle h = true ∧ s.awake h = true) → nothing (.halfFlushDone half)))
    ∧ (s.walkOf (fun k => k = .flush half) = none → nothing (.halfFlushDone half))
    ∧ (∀ w, s.walkOf (fun k => k = .flush half) = some w → s.flag AG_PSTATE (flushField h) = false ∨ s.walkOver w = false → nothing (.halfFlushDone half))
    ∧ (∃ t, exec (.halfWake half) ⟨s, q⟩ = .next ⟨t, q⟩ ∧ rest t ∧ s.regsBut t []
        ∧ t.half h = (match v.power with
          | .awake => if v.goal = none then v else { v with wakePending := true }
          | .waking => v
          | .retention => { v with power := .waking, wakePending := false, fromOff := false }
          | .off => { v with power := .waking, wakePending := false, fromOff := true }))
    ∧ ((v.power ≠ .waking → nothing (.halfWakeDone half))
       ∧ (v.power = .waking → ∃ t, exec (.halfWakeDone half) ⟨s, q⟩ = .next ⟨t, q⟩ ∧ t.half h = ⟨.awake, none, false, false⟩ ∧ t.half (1 - h) = s.half (1 - h)
          ∧ t.fld AG_WAKE_CNT (wakeField h) = min (2 ^ (wakeField h).len - 1) (s.fld AG_WAKE_CNT (wakeField h) + 1)
          ∧ t.fld AG_PLAN (appliedField h) = s.fld AG_PLAN AG_PLAN_ASSIST ∧ (s.detActive = true → t.flag DG_TEVT DG_TEVT_WAKE = true)
          ∧ (∀ bk, t.bank bk = if v.fromOff = true ∧ bk / 8 = h then { s.bank bk with ptr := 0 } else s.bank bk)
          ∧ (s.flag AG_PSTATE (flushField h) = false → t.walks = s.walks ∧ t.fresh = s.fresh)
          ∧ (s.flag AG_PSTATE (flushField h) = true → t.walks = s.walks ++ [⟨s.fresh, .flush half, [], 0⟩] ∧ t.fresh = s.fresh + 1)
          ∧ s.regsBut t [AG_WAKE_CNT, AG_PLAN, DG_TEVT, DG_TEVT_CNT]
          ∧ t = { s with regs := t.regs, pins := t.pins, now := t.now, half0 := t.half0, half1 := t.half1, banks := t.banks, walks := t.walks, fresh := t.fresh, ahead := [] }))

/-- R317 to R320, R323: a set starts while both halves are awake, or is counted as skipped; it ends with ratios, slowdowns, its class and activity,
and the planner runs, whose base values only rise; a broken set is skipped. An awake half takes a new assist level in a pause. The lead collects the
largest VOFF. The lead counts seconds, compares the entries a day after the last write, forms the record and programs it where one differs or a WRITE
asks for it, or refuses a WRITE as TOO_SOON; and a write that ends
sets its result and on success selects the written bank. -/
def Obligations.Ageing : Prop :=
  ∀ (s : Slice) (q : List Instr),
    let nothing := fun (c : Instr) => ∃ t, exec c ⟨s, q⟩ = .next ⟨t, q⟩ ∧ s.regsOnly t ∧ s.regsBut t []
    let g := s.age
    let ms := AG_MEAS_STATUS
    let skipped := fun (t : Slice) => t.fld ms AG_MEAS_STATUS_SKIPPED = min (2 ^ 16 - 1) (s.fld ms AG_MEAS_STATUS_SKIPPED + 1) ∧ s.regsBut t [ms]
    (let off := s.flag AG_CTRL AG_CTRL_MEAS_EN = false ∨ s.flag NV_STEWARD NV_STEWARD_HALT = true ∨ s.ready = false ∨ g.measuring = true
     let up := (s.half 0).power = .awake ∧ (s.half 1).power = .awake
     (off → nothing .measSetStart)
     ∧ (¬off → ∃ t, exec .measSetStart ⟨s, q⟩ = .next ⟨t, q⟩ ∧ (¬up → skipped t ∧ s.regsOnly t)
        ∧ (up → s.regsBut t [] ∧ t.age = { g with measuring := true, broken := false, startFc := s.fc, startGrants := s.grantsTotal, startCount := s.count }
            ∧ t = { s with regs := t.regs, pins := t.pins, now := t.now, age := t.age, ahead := [] })))
    ∧ (∀ counts : BitVec 192,
        let cnt := fun (i : Nat) => (counts.extractLsb' (24 * i) 24).toNat
        let quot := fun (i : Nat) => cnt i * 2 ^ 15 / cnt 7
        let n := s.fc - g.startFc
        let grants := s.grantsTotal - g.startGrants
        let full := decide (3 * 16 * n ≤ 5 * grants)
        let states := fun (i : Nat) => i < 7 ∧ cnt 7 ≠ 0
        (g.measuring = false → nothing (.measSetEnd counts))
        ∧ (g.measuring = true → ∃ t, exec (.measSetEnd counts) ⟨s, q⟩ = .next ⟨t, q⟩
          ∧ (g.broken = true → skipped t ∧ t = { s with regs := t.regs, pins := t.pins, now := t.now, age := { g with measuring := false }, ahead := [] })
          ∧ (g.broken = false →
              (∀ i, i < 8 → Tbl.at 0 t.age.counts i = cnt i) ∧ (∀ i, states i → Tbl.at 0 t.age.ratios i = quot i)
              ∧ (g.present = true → t.age.base = g.base ∧ ∀ i, states i → Tbl.at 0 t.age.slows i = min 255 ((Tbl.at 0 g.base i - quot i) / 8))
              ∧ (g.present = false → t.age.slows = [] ∧ (full → ∀ i, states i → quot i < 2 ^ 16 → Tbl.at 0 t.age.base i = quot i) ∧ (¬full → t.age.base = g.base))
              ∧ t.flag ms AG_MEAS_STATUS_VALID = true ∧ t.flag ms AG_MEAS_STATUS_PROV = !full
              ∧ t.fld ms AG_MEAS_STATUS_SETS = min (2 ^ 16 - 1) (s.fld ms AG_MEAS_STATUS_SETS + 1) ∧ t.reg AG_MEAS_TICK = g.startCount
              ∧ (n ≠ 0 → grants < 16 * n → t.fld ms AG_MEAS_STATUS_ACT = 256 * grants / (16 * n))
              ∧ t.flag ms AG_MEAS_STATUS_FULL_EXISTS = t.age.fullExists
              ∧ t.age = { g with
                  measuring := false, counts := t.age.counts, ratios := t.age.ratios, slows := t.age.slows, base := t.age.base, present := g.present || full,
                  fullExists := g.fullExists || full, fullSlows := if full then t.age.slows else g.fullSlows,
                  assistBase := if g.fullExists ∨ full then max g.assistBase t.planA else g.assistBase,
                  voffBase := if g.fullExists ∨ full then max g.voffBase t.planV else g.voffBase,
                  assistProv := if g.fullExists ∨ full then g.assistProv else max g.assistProv t.planA,
                  voffProv := if g.fullExists ∨ full then g.voffProv else max g.voffProv t.planV }
              ∧ t.fld AG_PLAN AG_PLAN_ASSIST_BASE = t.age.assistBase % 8 ∧ t.fld AG_PLAN AG_PLAN_VOFF_BASE = t.age.voffBase % 16
              ∧ (t.age.fullExists = true → t.fld AG_PLAN AG_PLAN_ASSIST = t.age.assistBase % 8 ∧ t.fld AG_PLAN AG_PLAN_VOFF = (if s.vmax = 0 then 0 else t.age.voffBase % 16)
                  ∧ t.flag AG_PLAN AG_PLAN_GUARD = false)
              ∧ (t.age.fullExists = false → t.fld AG_PLAN AG_PLAN_ASSIST = min 7 (max t.age.assistBase t.age.assistProv + 2)
                  ∧ t.fld AG_PLAN AG_PLAN_VOFF = min s.vmax (max t.age.voffBase t.age.voffProv + 2) ∧ t.flag AG_PLAN AG_PLAN_GUARD = true)
              ∧ (t.ring.out ++ t.ring.queue).Perm (s.ring.out ++ s.ring.queue ++ if s.lead then [⟨RG_VOFF_MAX, RG_ALL, 0, [0]⟩] else [])
              ∧ (∀ f ∈ [AG_PLAN_GROUP_VOFF, AG_PLAN_APPLIED_H0, AG_PLAN_APPLIED_H1], t.fld AG_PLAN f = s.fld AG_PLAN f)
              ∧ s.regsBut t [ms, AG_MEAS_TICK, AG_PLAN]
              ∧ t = { s with regs := t.regs, pins := t.pins, now := t.now, age := t.age, ring := t.ring, fresh := s.fresh + 1, ahead := [] })))
    ∧ (∀ half : Bool,
        let h := b2n half
        let pause := s.awake h = true ∧ s.detHeld = false ∧ s.fld AG_PLAN (appliedField h) ≠ s.fld AG_PLAN AG_PLAN_ASSIST
          ∧ s.flag NV_STEWARD NV_STEWARD_HALT = false
        (¬pause → nothing (.assistPause half))
        ∧ (pause → ∃ t, exec (.assistPause half) ⟨s, q⟩ = .next ⟨t, q⟩ ∧ t.fld AG_PLAN (appliedField h) = s.fld AG_PLAN AG_PLAN_ASSIST
          ∧ (∀ bk, t.bank bk = if bk / 8 = h then { s.bank bk with free := max (s.bank bk).free (s.slotFc + 4), taken := (t.bank bk).taken } else s.bank bk)
          ∧ (∀ bk g, bk / 8 = h → (t.bank bk).slotFree g = ((s.bank bk).slotFree g && (decide (g < s.slotFc) || decide (s.slotFc + 4 ≤ g))))
          ∧ s.regsBut t [AG_PLAN, DG_TEVT, DG_TEVT_CNT] ∧ t = { s with regs := t.regs, pins := t.pins, now := t.now, banks := t.banks, ahead := [] }))
    ∧ (∀ x : BitVec 4,
        let y := if s.isOpen then max x.toNat (s.fld AG_PLAN AG_PLAN_VOFF) else x.toNat
        let m := max y (s.fld AG_PLAN AG_PLAN_VOFF)
        (s.ringUp = false → nothing (.voffMax x))
        ∧ (s.ringUp = true → ∃ t, exec (.voffMax x) ⟨s, q⟩ = .next ⟨t, q⟩
          ∧ (s.lead = true → t.fld AG_PLAN AG_PLAN_GROUP_VOFF = m ∧ t.ring = { s.ring with failures := 0, cr := s.ring.cr + 2 } ∧ s.regsBut t [AG_PLAN]
              ∧ (s.fld AG_PLAN AG_PLAN_GROUP_VOFF < m → s.flag AG_CTRL AG_CTRL_PLAN_IRQ_EN = true → t.pins.mgmtMore = true))
          ∧ (s.lead = false → s.regsBut t []
              ∧ (t.ring.out ++ t.ring.queue).Perm (s.ring.out ++ s.ring.queue ++ [⟨RG_VOFF_MAX, RG_ALL, 0, [BitVec.ofNat 32 y]⟩]))
          ∧ t = { s with regs := t.regs, pins := t.pins, now := t.now, ring := t.ring, ahead := [] }))
    ∧ (let rc := AG_REC_CTRL
       let halted := s.flag NV_STEWARD NV_STEWARD_HALT = true
       let begun := fun (t : Slice) (forced : Bool) =>
         let c := Tbl.put 0 g.stored s.id s.ageNow
         let moved := forced || (s.id :: s.others).any (fun i => Tbl.at 0 c i != Tbl.at 0 g.stored i)
         let goes := decide (s.others = []) && moved && !(s.flag NV_CMD NV_CMD_BUSY)
         t.age = { g with forced := forced, waiting := s.others, collect := c, collecting := !(goes || (decide (s.others = []) && !moved)),
                          programming := g.programming || goes, written := if goes then t.record else g.written }
           ∧ t.flag rc AG_REC_CTRL_BUSY = (forced || goes)
           ∧ (t.ring.out ++ t.ring.queue).Perm (s.ring.out ++ s.ring.queue ++ s.others.map (fun i => ⟨RG_AGE_COLLECT, i, 0, List.replicate 8 0⟩))
       (s.lead = false ∨ s.ready = false → nothing .pohSecond)
       ∧ (s.lead = true → s.ready = true →
          let now := (s.fld AG_POH AG_POH_NOW + 1) % 2 ^ 32
          let starts := 86400 ≤ now - s.fld AG_POH AG_POH_LAST_WRITE ∧ s.flag rc AG_REC_CTRL_BUSY = false ∧ g.collecting = false ∧ ¬halted
          ∃ t, exec .pohSecond ⟨s, q⟩ = .next ⟨t, q⟩ ∧ t.fld AG_POH AG_POH_NOW = now ∧ t.fld AG_POH AG_POH_LAST_WRITE = s.fld AG_POH AG_POH_LAST_WRITE
            ∧ (starts → begun t false ∧ s.regsBut t [AG_POH, rc]) ∧ (¬starts → t.age = g ∧ t.ring = s.ring ∧ s.regsBut t [AG_POH])
            ∧ t = { s with regs := t.regs, pins := t.pins, now := t.now, age := t.age, ring := t.ring, ahead := [] })
       ∧ (∀ (n : Node) (v : Word), s.ready = true → ∃ t, exec (.agRecWrite n v) ⟨s, q⟩ = .next ⟨t, q⟩
          ∧ (s.lead = false → s.noted.regsBut t [])
          ∧ (s.lead = true → s.flag rc AG_REC_CTRL_BUSY = true ∨ halted → t.reg rc =
              (if getF v AG_REC_CTRL_DONE = 1 ∧ getF (s.nowIn rc) AG_REC_CTRL_DONE = 0 then setF (s.reg rc) AG_REC_CTRL_DONE 0 else s.reg rc))
          ∧ (s.lead = false ∨ s.flag rc AG_REC_CTRL_BUSY = true ∨ halted → t.age = g ∧ t.ring = s.ring)
          ∧ (s.lead = true → ¬halted → s.flag rc AG_REC_CTRL_BUSY = false → g.collecting = true →
              let goes := decide (g.waiting = []) && !(s.flag NV_CMD NV_CMD_BUSY)
              t.flag rc AG_REC_CTRL_BUSY = true ∧ t.ring = s.ring ∧ t.age = { g with forced := true, collecting := !goes, programming := g.programming || goes, written := if goes then t.record else g.written })
          ∧ (s.lead = true → ¬halted → s.flag rc AG_REC_CTRL_BUSY = false → g.collecting = false → s.recSpaced = true → begun t true)
          ∧ (s.lead = true → ¬halted → s.flag rc AG_REC_CTRL_BUSY = false → g.collecting = false → s.recSpaced = false → t.fld rc AG_REC_CTRL_RESULT = 1 ∧ t.flag rc AG_REC_CTRL_DONE = true
              ∧ t.age = g ∧ t.ring = s.ring)
          ∧ s.noted.regsBut t [rc] ∧ t = { s.noted with regs := t.regs, pins := t.pins, now := t.now, wroteRegs := t.wroteRegs, age := t.age, ring := t.ring, ahead := [] })
       ∧ (∀ r : RecordEnd, (g.programming = false → nothing (.ageingRecordDone r))
          ∧ (g.programming = true → ∃ t, exec (.ageingRecordDone r) ⟨s, q⟩ = .next ⟨t, q⟩ ∧ t.flag rc AG_REC_CTRL_BUSY = false
            ∧ t.flag rc AG_REC_CTRL_DONE = true ∧ t.fld rc AG_REC_CTRL_RESULT = (match r with
              | .ok => 0
              | .nvmErr => 2
              | .verify => 3)
            ∧ (r ≠ .ok → t.age = { g with programming := false } ∧ s.regsBut t [rc]
                ∧ ∀ f ∈ [AG_REC_CTRL_BANK, AG_REC_CTRL_SOURCE, AG_REC_CTRL_SEQ], t.fld rc f = s.fld rc f)
            ∧ (r = .ok → t.age = { g with programming := false, stored := g.collect } ∧ t.fld rc AG_REC_CTRL_BANK = s.recBank
                ∧ t.fld rc AG_REC_CTRL_SOURCE = s.recBank ∧ t.fld rc AG_REC_CTRL_SEQ = seqNext (s.fld rc AG_REC_CTRL_SEQ)
                ∧ t.fld AG_POH AG_POH_LAST_WRITE = s.fld AG_POH AG_POH_NOW ∧ t.fld AG_POH AG_POH_NOW = s.fld AG_POH AG_POH_NOW ∧ s.regsBut t [rc, AG_POH])
            ∧ t = { s with regs := t.regs, pins := t.pins, now := t.now, age := t.age, ahead := [] })))

/-! ### Error protection -/

/-- R331, R340, R341, R338: a queued repair wakes a sleeping half, or, once the arbiter of its bank grants it, writes back the corrected words of its frame,
entry or ledger word; a patrol step does the same in every bank of an awake half, the spare included, where it waits while the arbiter does not grant it, one
victim entry and one word of each ledger bank, and is deferred for a half that sleeps, which may wake it; the oldest deferred step is made good. Each corrected word is counted. The leaky bucket falls at its counts. -/
def Obligations.RepairAndPatrol : Prop :=
  ∀ (s : Slice) (q : List Instr),
    let nothing := fun (c : Instr) => ∃ t, exec c ⟨s, q⟩ = .next ⟨t, q⟩ ∧ s.regsOnly t ∧ s.regsBut t []
    let ps := EC_PATROL_STATUS
    let ecRegs := [EC_CNT, EC_BUCKET, EC_STATUS, EC_LOG_STATUS, DG_TEVT, DG_TEVT_CNT] ++ (List.range 18).map (fun i => EC_BANK_CNT i)
    let single := s.flag PC_CTRL PC_CTRL_EN = false ∧ s.flag EC_FLIP_CTRL EC_FLIP_CTRL_ARMED = false ∧ Tbl.wf Frame.zero s.frames = true ∧ Tbl.wf Victim.none s.victims = true ∧ Tbl.wf 0 s.ledger = true
      ∧ Tbl.wf 0 s.repl = true ∧ Tbl.wf 0 s.flips = true
      ∧ ∀ k m, (k, m) ∈ s.flips → (∃ b, b < 72 ∧ m = 1 <<< b) ∧ (k / 32 / 2 ^ 18 = 4 → k % 32 < 18)
    let corrected := fun (t : Slice) (visits : Nat → Bool) =>
      (∀ k, Tbl.at 0 t.flips k = if visits (k / 32) then 0 else Tbl.at 0 s.flips k)
        ∧ t.fld EC_CNT EC_CNT_CE = min (2 ^ EC_CNT_CE.len - 1) (s.fld EC_CNT EC_CNT_CE + (s.flips.filter (fun e => visits (e.1 / 32))).length)
    let rest := fun (t : Slice) => s.sameHome t ∧ (s.flips = [] → t.errLog = s.errLog ∧ ∀ a ∈ ecRegs.take 4, t.reg a = s.reg a)
      ∧ t = { s with regs := t.regs, pins := t.pins, now := t.now, half0 := t.half0, half1 := t.half1, flips := t.flips, injAt := t.injAt, errLog := t.errLog,
                     banks := t.banks, gov := { s.gov with activity := t.gov.activity }, grantsTotal := t.grantsTotal, repairs0 := t.repairs0,
                     repairs1 := t.repairs1, patrols := t.patrols, defers := t.defers, ahead := [] }
    let twoSlots := fun (t : Slice) (bk : Nat) => let g := (s.bank bk).firstRun s.slotFc 2
      (t.bank bk).free = g + 2 ∧ (t.bank bk).slotFree g = false ∧ (t.bank bk).slotFree (g + 1) = false
    let banksOf := fun (h : Nat) => (List.range 8).map (fun b => h * 8 + b) ++ [16 + h]
    let may := fun (bk : Nat) => (s.coming q).patrolMay bk
    let goes := fun (bk : Nat) => !(s.patrols.any (fun p => p.1 = bk)) && may bk
    let stepOf := fun (bk n : Nat) (target : Nat) =>
      let key := frameKeyOf (halfOfBank bk) (s.patrolPhys bk) (n / 16) (n % 16)
      [targetOf 0 key, targetOf 1 key, targetOf 2 key].contains target || (decide (n % 16 = 0) && decide (target = targetOf 3 (key / 16)))
    let noFlush := ∀ h, h < 2 → s.flag AG_PSTATE (flushField h) = false
    let steps := fun (t : Slice) (h : Nat) => (∀ bk ∈ banksOf h, (goes bk = true → twoSlots t bk) ∧ (goes bk = false → t.bank bk = s.bank bk))
    let waits := fun (h n : Nat) => ((banksOf h).filter (fun bk => !(goes bk))).map (fun bk => (bk, n))
    (∀ half : Bool,
      let h := b2n half
      let queue := if h = 0 then s.repairs0 else s.repairs1
      let held := s.flag EC_CTRL EC_CTRL_REPAIR_EN = false ∨ s.patrolHeld = true
      let bankOf := fun (target : Nat) => s.repairBank (target / 2 ^ 18) (target % 2 ^ 18)
      (queue = [] ∨ held → nothing (.repairGrant half))
      ∧ (∀ target tail, queue = target :: tail → ¬held → let x := halfOfBank (bankOf target)
          (s.awake x = false → ∃ t, exec (.repairGrant half) ⟨s, q⟩ = .next ⟨t, q⟩ ∧ t.half x = (s.wakeTrigger x).half x
            ∧ t.half (1 - x) = s.half (1 - x) ∧ s.regsBut t [] ∧ t = { s with regs := t.regs, pins := t.pins, now := t.now, half0 := t.half0, half1 := t.half1, ahead := [] })
          ∧ (s.awake x = true → may (bankOf target) = false → nothing (.repairGrant half)))
      ∧ (∀ target tail, queue = target :: tail → ¬held → s.awake (halfOfBank (bankOf target)) = true → may (bankOf target) = true → single → target / 2 ^ 18 ≤ 5 →
          (target / 2 ^ 18 ≤ 2 → target % 2 ^ 18 < 73728) → (target / 2 ^ 18 = 3 → target % 2 ^ 18 < 4608) →
          ∃ t, exec (.repairGrant half) ⟨s, q⟩ = .next ⟨t, q⟩ ∧ (if h = 0 then t.repairs0 = tail ∧ t.repairs1 = s.repairs1 else t.repairs1 = tail ∧ t.repairs0 = s.repairs0)
            ∧ corrected t (fun x => x = target || (decide (target / 2 ^ 18 = 0 ∧ x / 2 ^ 18 ≤ 2) && x % 2 ^ 18 = target))
            ∧ twoSlots t (bankOf target) ∧ (∀ bk, bk ≠ bankOf target → t.bank bk = s.bank bk) ∧ t.patrols = s.patrols ∧ t.defers = s.defers
            ∧ t.half0 = s.half0 ∧ t.half1 = s.half1 ∧ s.regsBut t ecRegs ∧ rest t))
    ∧ (let off := s.flag EC_PATROL EC_PATROL_EN = false ∨ s.patrolHeld = true ∨ s.flag NV_STEWARD NV_STEWARD_HALT = true ∨ s.ready = false
       let n := s.fld ps EC_PATROL_STATUS_STEP
       let sleeps := fun (h : Nat) => (s.half h).power ≠ .off ∧ s.awake h = false
       let d := fun (h : Nat) => min 4096 (s.fld ps (deferField h) + 1)
       let batch := min 4096 (s.fld EC_PATROL EC_PATROL_BATCH)
       (off → nothing .patrolStep)
       ∧ (¬off → single → noFlush → ∃ t, exec .patrolStep ⟨s, q⟩ = .next ⟨t, q⟩ ∧ t.fld ps EC_PATROL_STATUS_STEP = (n + 1) % 4096
          ∧ t.fld ps EC_PATROL_STATUS_PASSES = min (2 ^ 15 - 1) (s.fld ps EC_PATROL_STATUS_PASSES + b2n (n = 4095))
          ∧ (∀ h, h < 2 → (sleeps h → t.fld ps (deferField h) = d h
                ∧ (t.half h = if batch ≠ 0 ∧ batch ≤ d h then (s.wakeTrigger h).half h else s.half h)
                ∧ t.deferred h = if s.fld ps (deferField h) < 4096 then deferAdd n (s.deferred h) else s.deferred h)
              ∧ (¬sleeps h → t.fld ps (deferField h) = s.fld ps (deferField h) ∧ t.half h = s.half h ∧ t.deferred h = s.deferred h)
              ∧ (s.awake h = true → steps t h) ∧ (s.awake h = false → ∀ bk ∈ banksOf h, t.bank bk = s.bank bk))
          ∧ t.patrols = s.patrols ++ (List.range 2).flatMap (fun h => if s.awake h then waits h n else [])
          ∧ corrected t (fun x => (List.range 2).any (fun h => s.awake h && (banksOf h).any (fun bk => goes bk && stepOf bk n x)) || x = targetOf 4 (n % 32) || x = targetOf 5 n
              || x = targetOf 5 (4096 + n))
          ∧ t.repairs0 = s.repairs0 ∧ t.repairs1 = s.repairs1 ∧ s.regsBut t ([ps] ++ ecRegs) ∧ rest t))
    ∧ (∀ half : Bool,
        let h := b2n half
        let d := s.fld ps (deferField h)
        (s.deferred h = [] ∨ s.awake h = false ∨ s.patrolHeld = true → nothing (.patrolDeferredStep half))
        ∧ (∀ n len rest', s.deferred h = (n, len) :: rest' → s.awake h = true → s.patrolHeld = false → single → noFlush →
          ∃ t, exec (.patrolDeferredStep half) ⟨s, q⟩ = .next ⟨t, q⟩ ∧ t.fld ps (deferField h) = d - 1
            ∧ t.deferred h = (if len ≤ 1 then rest' else ((n + 1) % 4096, len - 1) :: rest') ∧ t.deferred (1 - h) = s.deferred (1 - h)
            ∧ (∀ f ∈ [EC_PATROL_STATUS_STEP, EC_PATROL_STATUS_PASSES, deferField (1 - h)], t.fld ps f = s.fld ps f)
            ∧ corrected t (fun x => (banksOf h).any (fun bk => goes bk && stepOf bk n x)) ∧ steps t h ∧ t.patrols = s.patrols ++ waits h n
            ∧ t.half0 = s.half0 ∧ t.half1 = s.half1 ∧ t.repairs0 = s.repairs0 ∧ t.repairs1 = s.repairs1 ∧ s.regsBut t ([ps] ++ ecRegs) ∧ rest t))
    ∧ (∃ t, exec .bucketLeak ⟨s, q⟩ = .next ⟨t, q⟩ ∧ t.fld EC_BUCKET EC_BUCKET_LEVEL = s.fld EC_BUCKET EC_BUCKET_LEVEL -
          (if s.count.toNat % 2 ^ (s.fld EC_BUCKET EC_BUCKET_LEAK_SHIFT) = 0 then 1 else 0)
        ∧ (∀ f ∈ [EC_BUCKET_CAP, EC_BUCKET_LEAK_SHIFT], t.fld EC_BUCKET f = s.fld EC_BUCKET f) ∧ s.regsBut t [EC_BUCKET] ∧ s.regsOnly t)

/-- R332, R125: the quarantine work takes the oldest waiting frame once the arbiter of its bank grants it: one no longer held is passed over, copies are recalled
under an HTE, a clean frame is invalidated, and a dirty one is written back first; what it cannot do yet waits in the hold queue. R339: ARM, but for the reserved arrays. R335: a write of the retire table names a frame of no
other entry and keeps a lost line, and evicts the line of the frame it enters. R342, R13: a mapping of the spare is refused as a locked write, or
unless the slice is quiesced, or where the half is mapped, or else starts a copy; at its end the spare serves the bank's sets with what they held. -/
def Obligations.RetireAndSpare : Prop :=
  ∀ (s : Slice) (q : List Instr),
    let nothing := fun (c : Instr) => ∃ t, exec c ⟨s, q⟩ = .next ⟨t, q⟩ ∧ s.regsOnly t ∧ s.regsBut t []
    ((s.quarantine = [] → nothing .quarantineWork)
     ∧ (∀ key tail, s.quarantine = key :: tail →
        let f := s.frame key
        let bk := s.frameBank key
        let line := (s.frameLines key).headD 0
        let gone := getF f.w0 T0_VALID ≠ 1 ∨ s.rtFind key = none
        let dirty := s.frameDirty key
        let may := (s.coming q).innerGranted bk 4 = true ∧ s.damped bk none = false ∧ s.room bk 1 = true
        let goes := s.awake (keyHalf key) = true ∧ may ∧ s.flag AG_PSTATE (flushField (keyHalf key)) = false ∧ s.calm
        let quiet := goes ∧ ¬gone ∧ (s.frameLines key).any s.transient = false ∧ s.frameLost key = false
        let rest := fun (t : Slice) => t = { s with regs := t.regs, pins := t.pins, now := t.now, quarantine := tail, frames := t.frames, banks := t.banks, txns := t.txns, egress := t.egress, fresh := t.fresh, gov := { s.gov with activity := t.gov.activity }, grantsTotal := s.grantsTotal + 1, ahead := [] }
        let still := fun (t : Slice) => t.frames = s.frames ∧ t.txns = s.txns ∧ t.egress = s.egress
        let held := fun (t : Slice) (n : Nat) (w : Wait) => still t ∧ rest t ∧ (∀ b, b ≠ bk → t.bank b = s.bank b)
          ∧ (t.bank bk).holdq = insHold ⟨s.frameReq OP_QUARANTINE 1023 key, n, w, s.fresh, s.slotFc + 5⟩ (s.bank bk).holdq ∧ s.regsBut t [CO_HQ_PEAK]
        (s.awake (keyHalf key) = false → ∃ t, exec .quarantineWork ⟨s, q⟩ = .next ⟨t, q⟩ ∧ t.half (keyHalf key) = (s.wakeTrigger (keyHalf key)).half (keyHalf key)
            ∧ s.regsBut t [] ∧ t = { s with regs := t.regs, pins := t.pins, now := t.now, half0 := t.half0, half1 := t.half1, ahead := [] })
        ∧ (s.awake (keyHalf key) = true → ¬may → nothing .quarantineWork)
        ∧ (goes → gone → ∃ t, exec .quarantineWork ⟨s, q⟩ = .next ⟨t, q⟩ ∧ still t ∧ s.bankFrame t bk none ∧ s.regsBut t [] ∧ rest t)
        ∧ (∀ n, goes → ¬gone → (s.frameLines key).find? s.transient = some n → ∃ t, exec .quarantineWork ⟨s, q⟩ = .next ⟨t, q⟩ ∧ held t n .line)
        ∧ (quiet → s.copies f.w1 = [] → dirty = 0 → ∃ t, exec .quarantineWork ⟨s, q⟩ = .next ⟨t, q⟩ ∧ t.frame key = Frame.zero ∧ s.framesBut t key
            ∧ t.txns = s.txns ∧ t.egress = s.egress ∧ s.bankFrame t bk none ∧ s.regsBut t [] ∧ rest t)
        ∧ (∀ i txn, quiet → s.copies f.w1 = [] → dirty ≠ 0 → s.freeHte bk = some i → s.txnWait = [] → s.freeTxn = some txn →
            ∃ t, exec .quarantineWork ⟨s, q⟩ = .next ⟨t, q⟩ ∧ t.frame key = Frame.zero ∧ s.framesBut t key
              ∧ t.egress = s.egress ++ [{ s.outWr (bk / 8) 31 (getF f.w0 T0_PID) txn (line * 128) dirty f.data with due := s.slotFc + 11 }]
              ∧ (t.hte bk i).st = .wMemAck ∧ (t.hte bk i).kind = .quarantine ∧ (t.hte bk i).frame = key ∧ s.bankFrame t bk (some i)
              ∧ Tbl.at TxnUse.none t.txns txn = .wbHte bk i ∧ s.regsBut t [] ∧ rest t)
        ∧ (∀ i, quiet → s.copies f.w1 ≠ [] → s.freeHte bk = some i → ∃ t, exec .quarantineWork ⟨s, q⟩ = .next ⟨t, q⟩
              ∧ (t.hte bk i).st = .wRecall ∧ (t.hte bk i).kind = .quarantine ∧ (t.hte bk i).frame = key ∧ s.bankFrame t bk (some i)
              ∧ (t.hte bk i).pend = (s.copies f.w1).length * (s.frameLines key).length
              ∧ (∃ l : List Out, t.egress = s.egress ++ l ∧ l.length = (t.hte bk i).pend ∧ ∀ o ∈ l, o.msg.op = FW_BINV ∧ o.msg.cls = .fwd ∧ o.port = evenPort (bk / 8))
              ∧ t.frames = s.frames ∧ t.txns = s.txns ∧ s.regsBut t [] ∧ rest t)
        ∧ (quiet → s.copies f.w1 ≠ [] ∨ dirty ≠ 0 → s.freeHte bk = none → s.frameLines key ≠ [] →
            ∃ t, exec .quarantineWork ⟨s, q⟩ = .next ⟨t, q⟩ ∧ held t line .hte)))
    ∧ (∀ (n : Node) (v : Word), s.ready = true →
        let c := EC_FLIP_CTRL
        ∃ t, exec (.ecFlipArm n v) ⟨s, q⟩ = .next ⟨t, q⟩
          ∧ (∀ f ∈ [EC_FLIP_CTRL_CHECK, EC_FLIP_CTRL_ARRAY, EC_FLIP_CTRL_HALF, EC_FLIP_CTRL_BANK, EC_FLIP_CTRL_WORD], t.fld c f = getF v f)
          ∧ t.flag c EC_FLIP_CTRL_HIT = (s.flag c EC_FLIP_CTRL_HIT && decide (getF v EC_FLIP_CTRL_HIT = 0 ∨ getF (s.nowIn c) EC_FLIP_CTRL_HIT = 1))
          ∧ t.flag c EC_FLIP_CTRL_ARMED = (s.flag c EC_FLIP_CTRL_ARMED || decide (getF v EC_FLIP_CTRL_ARRAY < 6))
          ∧ s.noted.regsBut t [c] ∧ s.noted.wroteOnly t)
    ∧ (∀ (i : Fin 64) (n : Node) (v : Word), s.ready = true →
        let r := EC_RT i.val
        let key := rtKey v
        let on := getF v EC_RT_VALID = 1
        let ignored := (on ∧ ∃ j, j < 64 ∧ j ≠ i.val ∧ s.flag (EC_RT j) EC_RT_VALID = true ∧ rtKey (s.reg (EC_RT j)) = key)
          ∨ (¬on ∧ s.flag r EC_RT_LOST = true)
        let evicts := on ∧ s.rtFind key = none ∧ getF (s.frame key).w0 T0_VALID = 1 ∧ s.outsideCache (keyWay key) = false ∧ (s.keySet key).isSome = true
        ∃ t, exec (.ecRtWrite i n v) ⟨s, q⟩ = .next ⟨t, q⟩ ∧ (ignored → s.noted.regsBut t [] ∧ s.noted.wroteOnly t)
          ∧ (¬ignored → (∀ f ∈ [EC_RT_VALID, EC_RT_STATE, EC_RT_HALF, EC_RT_BANK, EC_RT_ROW, EC_RT_WAY], t.fld r f = getF v f)
              ∧ t.fld r EC_RT_LOST = s.fld r EC_RT_LOST ∧ s.noted.regsBut t [r]
              ∧ (¬evicts → t.fld r EC_RT_BUSY = s.fld r EC_RT_BUSY ∧ s.noted.wroteOnly t)
              ∧ (evicts → t.flag r EC_RT_BUSY = true ∧ t.walks = s.walks ++ [⟨s.fresh, .retire key, [], 0⟩]
                  ∧ t = { s.noted with regs := t.regs, pins := t.pins, now := t.now, wroteRegs := t.wroteRegs, walks := t.walks, fresh := s.fresh + 1, ahead := [] })))
    ∧ (∀ (n : Node) (v : Word), s.ready = true →
        let r := EC_SPARE
        let moved := s.anyActive = true ∧ ∃ f ∈ [EC_SPARE_H0_VALID, EC_SPARE_H0_BANK, EC_SPARE_H1_VALID, EC_SPARE_H1_BANK], getF v f ≠ s.fld r f
        let wants := fun (h : Nat) => getF v (spareValid h) = 1
        let asks := wants 0 ∨ wants 1
        let refused := asks ∧ (s.quiesced = false ∨ s.flag r EC_SPARE_BUSY = true ∨ ∃ h, h < 2 ∧ wants h ∧ s.flag r (spareValid h) = true)
        let kept := fun (t : Slice) => ∀ f ∈ [EC_SPARE_H0_VALID, EC_SPARE_H0_BANK, EC_SPARE_H1_VALID, EC_SPARE_H1_BANK, EC_SPARE_BUSY], t.fld r f = s.fld r f
        ∃ t, exec (.ecSpareWrite n v) ⟨s, q⟩ = .next ⟨t, q⟩
          ∧ (moved → kept t ∧ t.sparing = s.sparing ∧ s.noted.regsBut t ([r] ++ logRegs)
              ∧ t = { s.noted with regs := t.regs, pins := t.pins, now := t.now, wroteRegs := t.wroteRegs, errLog := t.errLog, ahead := [] })
          ∧ (¬moved → refused → t.flag r EC_SPARE_REFUSED = true ∧ kept t ∧ s.noted.regsBut t [r] ∧ s.noted.wroteOnly t)
          ∧ (¬moved → ¬refused → s.anyActive = true → kept t ∧ s.noted.regsBut t [r] ∧ s.noted.wroteOnly t)
          ∧ (¬moved → ¬refused → s.anyActive = false →
              (∀ h, h < 2 → s.flag r (spareValid h) = false → t.fld r (spareBank h) = getF v (spareBank h) ∧ (t.flag r (spareValid h) = true ↔ wants h))
              ∧ (∀ h, h < 2 → s.flag r (spareValid h) = true → t.fld r (spareBank h) = s.fld r (spareBank h) ∧ t.flag r (spareValid h) = true)
              ∧ t.sparing = s.sparing ++ ([0, 1].filter (fun h => decide (wants h))).map (fun h => (decide (h = 1), getF v (spareBank h)))
              ∧ t.flag r EC_SPARE_BUSY = (s.flag r EC_SPARE_BUSY || decide asks) ∧ s.noted.regsBut t [r]
              ∧ t = { s.noted with regs := t.regs, pins := t.pins, now := t.now, wroteRegs := t.wroteRegs, sparing := t.sparing, ahead := [] }))
    ∧ ((s.sparing = [] → nothing .spareCopyDone)
       ∧ (∀ (half : Bool) (b : Nat), s.sparing = [(half, b)] → b < 8 → s.flag EC_SPARE (spareValid (b2n half)) = true → s.fld EC_SPARE (spareBank (b2n half)) = b →
            s.sound = true →
          ∃ t, exec .spareCopyDone ⟨s, q⟩ = .next ⟨t, q⟩ ∧ t.physBank (b2n half) b = 8 ∧ t.flag EC_SPARE EC_SPARE_BUSY = false
            ∧ t.flag EC_SPARE EC_SPARE_DONE = true
            ∧ (∀ x w, x < 4096 → w < 16 → t.frame (t.fkey x w) = s.frame (s.fkey x w)
                ∧ Tbl.at 0 t.repl (t.fkey x 0 / 16) = Tbl.at 0 s.repl (s.fkey x 0 / 16)
                ∧ (s.frame (s.fkey x w) ≠ Frame.zero → s.frameLost (s.fkey x w) = true → t.frameLost (t.fkey x w) = true))
            ∧ (∀ i, i < 64 → s.fld (EC_RT i) EC_RT_HALF = b2n half → s.fld (EC_RT i) EC_RT_BANK = b → t.flag (EC_RT i) EC_RT_LOST = false)
            ∧ (∀ f ∈ [EC_SPARE_H0_VALID, EC_SPARE_H0_BANK, EC_SPARE_H1_VALID, EC_SPARE_H1_BANK, EC_SPARE_REFUSED], t.fld EC_SPARE f = s.fld EC_SPARE f)
            ∧ s.regsBut t ([EC_SPARE] ++ (List.range 64).map (fun i => EC_RT i))
            ∧ t = { s with regs := t.regs, pins := t.pins, now := t.now, frames := t.frames, repl := t.repl, lostKeys := t.lostKeys, injAt := t.injAt, sparing := [], ahead := [] }))

/-! ### The control ring -/

/-- R346, R351, R353: a packet that has arrived ends the run of failures, and any position but the lead passes it on. BCAST_WR is applied at an OPEN,
READY position as host software's write would be, and back at the lead its writer is answered 16 fc later. R355: COUNT_SET waits for its count. R354:
ROSTER gains this position's bit; the lead answers with ROSTER_SET, which is stored, checks the home map, and makes a position in step 7 READY. R350:
MODE. R349: a parity error. R348: a credit. -/
def Obligations.ControlRing : Prop :=
  ∀ (s : Slice) (q : List Instr),
    let nothing := fun (c : Instr) => ∃ t, exec c ⟨s, q⟩ = .next ⟨t, q⟩ ∧ s.regsOnly t ∧ s.regsBut t []
    let down := s.ringUp = false
    let sound := { s with ring := { s.ring with failures := 0, cr := s.ring.cr + (if s.lead then 4 else 0) } }
    let on := fun (p : RingPkt) => if s.lead then [] else [p]
    let timing := [DG_TEVT, DG_TEVT_CNT]
    (∀ (off : BitVec 16) (v : Word),
      let sent := (s.ring.bcasts.find? (fun a => bcastOff a = off.toNat && a.pl.extractLsb' 0 64 = v))
      let passed := fun (u t : Slice) =>
        (s.lead = false → u.ringSends t [⟨RG_BCAST_WR, RG_ALL, 0, BitVec.ofNat 32 off.toNat :: flits2 v⟩] ∧ t = { u with ring := t.ring, ahead := [] })
          ∧ (s.lead = true → sent = none → t = { u with ahead := [] })
          ∧ (∀ a, s.lead = true → sent = some a → t.ring = { u.ring with bcasts := u.ring.bcasts.erase a }
              ∧ t.egress = u.egress ++ [u.outRsp (outPort 0 a.port) (s.fc + 16) a RS_COMP 0] ∧ t = { u with ring := t.ring, egress := t.egress, fresh := t.fresh, ahead := [] })
      (down → nothing (.bcastWr off v))
      ∧ (¬down → ¬(s.isOpen = true ∧ s.ready = true) → ∃ t, exec (.bcastWr off v) ⟨s, q⟩ = .next ⟨t, q⟩ ∧ s.regsBut t []
          ∧ passed { sound with regs := t.regs, pins := t.pins } t)
      ∧ (¬down → s.isOpen = true → s.ready = true → ∃ t1 t, exec (.registerWrite 0 off v) ⟨sound, q⟩ = .next ⟨t1, q⟩
          ∧ exec (.bcastWr off v) ⟨s, q⟩ = .next ⟨t, q⟩ ∧ passed { t1 with regPtr := nextPtr 3 } t))
    ∧ (∀ a v : Word, (down → nothing (.countSet a v))
        ∧ (¬down → ∃ t, exec (.countSet a v) ⟨s, q⟩ = .next ⟨t, q⟩ ∧ s.ringSends t (on ⟨RG_COUNT_SET, RG_ALL, 0, flits2 a ++ flits2 v⟩) ∧ t.ring.failures = 0
          ∧ t.ring.timed = s.ring.timed ++ (if s.listens then [.countSet a v] else [])
          ∧ (s.listens = true → a.toNat ≤ s.count.toNat → t.flag RG_STATUS RG_STATUS_LATE = true ∧ (s.detActive = true → t.flag DG_TEVT DG_TEVT_LATE = true))
          ∧ (s.listens = false ∨ s.count.toNat < a.toNat → s.regsBut t []) ∧ s.regsBut t ([RG_STATUS] ++ timing)
          ∧ t = { s with regs := t.regs, pins := t.pins, now := t.now, ring := t.ring, ahead := [] }))
    ∧ (∀ mask : Word,
        let m := if s.isOpen then setF mask ⟨s.id, 1⟩ 1 else mask
        let pkts := if s.lead then [⟨RG_ROSTER_SET, RG_ALL, 0, flits2 m⟩] else [⟨RG_ROSTER_PKT, RG_ALL, 0, flits2 m⟩]
        (down → nothing (.roster mask))
        ∧ (¬down → ∃ t, exec (.roster mask) ⟨s, q⟩ = .next ⟨t, q⟩ ∧ s.ringSends t pkts ∧ t.ring.failures = 0 ∧ s.regsBut t []
          ∧ t = { s with regs := t.regs, pins := t.pins, now := t.now, ring := t.ring, ahead := [] }))
    ∧ (∀ mask : Word,
        let ready := s.fld NV_STATUS NV_STATUS_STEP = 7
        let bad := ∃ i, i < 1024 ∧ mask.getLsbD (Tbl.at 0 s.homeMap i).toNat = false
        let regs := [RG_ROSTER, RG_STATUS, ID_STATUS]
        (down → nothing (.rosterSet mask))
        ∧ (¬down → ∃ t, exec (.rosterSet mask) ⟨s, q⟩ = .next ⟨t, q⟩ ∧ t.ring.failures = 0
          ∧ (s.listens = false → s.ringSends t (on ⟨RG_ROSTER_SET, RG_ALL, 0, flits2 mask⟩) ∧ s.regsBut t []
              ∧ t = { s with regs := t.regs, pins := t.pins, now := t.now, ring := t.ring, ahead := [] })
          ∧ (s.listens = true → s.ringSends t (on ⟨RG_ROSTER_SET, RG_ALL, 0, flits2 mask⟩) ∧ t.reg RG_ROSTER = mask
              ∧ t.fld RG_STATUS RG_STATUS_PRESENT = ((List.range 64).filter (fun i => mask.getLsbD i)).length ∧ (t.flag ID_STATUS ID_STATUS_MAP_BAD = true ↔ bad)
              ∧ (bad → s.flag ID_STATUS ID_STATUS_MAP_BAD = false → t.pins.mgmtMore = true) ∧ t.start.rosterSeen = true
              ∧ (¬ready → s.regsBut t regs ∧ t.start = { s.start with rosterSeen := true }
                  ∧ t = { s with regs := t.regs, pins := t.pins, now := t.now, ring := t.ring, start := t.start, ahead := [] })
              ∧ (ready → s.readied t ∧ s.regsBut t (regs ++ readyRegs) ∧ t.start = { s.start with rosterSeen := true, reentry := false }
                  ∧ t = { s with regs := t.regs, pins := t.pins, now := t.now, ring := t.ring, start := t.start, board := t.board, rxCred := t.rxCred, egress := t.egress,
                                 txns := t.txns, txnWait := t.txnWait, fresh := t.fresh, ahead := [] }))))
    ∧ (∀ awake : Bool, (down → nothing (.mode awake))
        ∧ (¬down → ∃ t, exec (.mode awake) ⟨s, q⟩ = .next ⟨t, q⟩ ∧ t.flag RG_STATUS RG_STATUS_MODE = awake
          ∧ s.ringSends t (on ⟨RG_MODE, RG_ALL, 0, [BitVec.ofNat 32 (b2n awake)]⟩) ∧ t.ring.failures = 0
          ∧ (s.lead = true → s.ring.queue = [] → t.ring.modeWait = false) ∧ (s.lead = false → t.ring.modeWait = s.ring.modeWait) ∧ s.regsBut t [RG_STATUS]
          ∧ t = { s with regs := t.regs, pins := t.pins, now := t.now, ring := t.ring, ahead := [] }))
    ∧ ((down → nothing .ping)
       ∧ (¬down → ∃ t, exec .ping ⟨s, q⟩ = .next ⟨t, q⟩ ∧ s.ringSends t (on ⟨RG_PING, RG_ALL, 0, []⟩) ∧ t.ring.failures = 0
          ∧ (s.lead = false → s.regsBut t []) ∧ (s.lead = true → s.regsBut t [RG_RING_LAT]) ∧ t.fresh = s.fresh + b2n s.lead
          ∧ t = { s with regs := t.regs, pins := t.pins, now := t.now, ring := t.ring, fresh := t.fresh, ahead := [] }))
    ∧ (let fails := s.ring.failures + 1 = 8
       (down → nothing .ringParityError)
       ∧ (¬down → ∃ t, exec .ringParityError ⟨s, q⟩ = .next ⟨t, q⟩ ∧ t.ring = { s.ring with failures := s.ring.failures + 1, cr := s.ring.cr + 1, nak := s.ring.nak + 1 }
          ∧ t.fld RG_RETRY RG_RETRY_RING = min (2 ^ RG_RETRY_RING.len - 1) (s.fld RG_RETRY RG_RETRY_RING + 1)
          ∧ (s.detActive = true → t.flag DG_TEVT DG_TEVT_RING = true)
          ∧ (fails → t.flag RG_STATUS RG_STATUS_RING_DOWN = true ∧ t.pins.mgmtMore = true) ∧ (¬fails → t.reg RG_STATUS = s.reg RG_STATUS)
          ∧ s.regsBut t ([RG_RETRY, RG_STATUS] ++ timing) ∧ t = { s with regs := t.regs, pins := t.pins, now := t.now, ring := t.ring, ahead := [] }))
    ∧ (let r := if 0 < s.ring.owed then { s.ring with owed := s.ring.owed - 1, cr := s.ring.cr + b2n (!s.lead) } else { s.ring with credits := min 8 (s.ring.credits + 1) }
       ∃ t, exec .ringCredit ⟨s, q⟩ = .next ⟨t, q⟩ ∧ s.ringSends t [] ∧ s.regsBut t [] ∧ t = { s with regs := t.regs, pins := t.pins, now := t.now, ring := t.ring, ahead := [] }
        ∧ (s.ring.queue = [] → t.ring = r)
        ∧ (∀ p, s.ring.queue = [p] → s.ringAllows p = true → r.owed = 0 → s.ringNeed p ≤ r.credits → s.ringUp = true →
            t.ring.out = s.ring.out ++ [p] ∧ t.ring.queue = [] ∧ t.ring.credits = r.credits - min (p.flits.length + 1) r.credits
              ∧ t.ring.owed = p.flits.length + 1 - min (p.flits.length + 1) r.credits
              ∧ t.ring.cr = r.cr + (if s.lead then 0 else min (p.flits.length + 1) r.credits))
        ∧ (∀ p, s.ring.queue = [p] → ¬(s.ringAllows p = true ∧ r.owed = 0 ∧ s.ringNeed p ≤ r.credits ∧ s.ringUp = true) → t.ring = r))

/-- R374, R371, R372: image data are gathered in order; a packet out of order halts the position in step 15; a whole stream with a matching CRC is
staged, its records those addressed to this slice, with GROUP_SIZE, SEQ and LENGTH of its header (R370, R385), and one without is bad. R374: AGE_ENTRY
is kept by its position and ends step 1. R323: AGE_COLLECT takes its position's entry, and back at the lead the entry is collected; when all are, the record is written, or the command ends if nothing asks for
it. R363: in the lead, RG_CTRL sends MODE, ROSTER, and starts training; elsewhere it ignores writes. -/
def Obligations.ImageDataAndAges : Prop :=
  ∀ (s : Slice) (q : List Instr),
    let nothing := fun (c : Instr) => ∃ t, exec c ⟨s, q⟩ = .next ⟨t, q⟩ ∧ s.regsOnly t ∧ s.regsBut t []
    let down := s.ringUp = false
    let on := fun (p : RingPkt) => if s.lead then [] else [p]
    let step1 := s.lead = false ∧ s.fld NV_STATUS NV_STATUS_STEP = 1
    let halts := fun (t : Slice) => t.flag NV_STATUS NV_STATUS_STAGE_ERR = true ∧ t.fld NV_STATUS NV_STATUS_STEP = 15 ∧ s.regsBut t [NV_STATUS]
    let rest := fun (t : Slice) => t.ring.failures = 0 ∧ t = { s with regs := t.regs, pins := t.pins, now := t.now, ring := t.ring, start := t.start, ahead := [] }
    (∀ (arg : BitVec 15) (bytes : List Byte),
      let k := arg.toNat
      let inOrder := k = 0 ∨ (s.start.packets ≠ 0 ∧ k = imgArg s.start.packets)
      let image := (if k = 0 then [] else s.start.image) ++ bytes
      let packets := (if k = 0 then 0 else s.start.packets) + 1
      let n := numAt image 12 4
      let whole := 16 ≤ image.length ∧ n + 4 ≤ image.length ∧ (k = 0 ∨ (s.start.staged = false ∧ s.start.stageBad = false))
      let recs := parseRecs n ((image.take n).drop 32)
      let kept := (recs.1.filter (fun r => decide (1 ≤ r.typ ∧ r.typ ≤ 7) && (r.slice = 0xFF || r.slice = s.id)
        && !(r.typ = RT_AGE_BASE || r.typ = RT_PHASE || r.typ = RT_PATCH))).map (fun r => (r.typ, r.body))
      (down → nothing (.imgData arg bytes))
      ∧ (¬down → ∃ t, exec (.imgData arg bytes) ⟨s, q⟩ = .next ⟨t, q⟩ ∧ s.ringSends t (on ⟨RG_IMG_DATA, RG_ALL, k, flitsOf bytes⟩) ∧ rest t
        ∧ (¬step1 → t.start = s.start ∧ s.regsBut t []) ∧ (step1 → ¬inOrder → t.start = s.start ∧ halts t)
        ∧ (step1 → inOrder → t.start.image = image ∧ t.start.packets = packets ∧ s.regsBut t [NV_STATUS, NV_STEWARD, NV_IMAGE, ID_SLICE]
            ∧ (¬whole → s.regsBut t [] ∧ (k ≠ 0 → t.start = { s.start with image := image, packets := packets })
                ∧ (k = 0 → t.start = { s.start with image := image, packets := packets, staged := false, stageBad := false, records := [], patch := [] }))
            ∧ (whole → crcHolds image n = false → t.start.stageBad = true ∧ t.start.staged = false ∧ s.regsBut t [])
            ∧ (whole → crcHolds image n = true → t.start.staged = true ∧ t.start.stageBad = false ∧ t.id = s.id
                ∧ t.fld ID_SLICE ID_SLICE_GROUP_SIZE = numAt image 16 1 % 128 ∧ t.fld NV_IMAGE NV_IMAGE_SEQ = numAt image 8 4
                ∧ t.fld NV_IMAGE NV_IMAGE_LENGTH = n % 2 ^ 21 ∧ (storeUsed kept ≤ 16384 → t.start.records = kept)
                ∧ (t.flag NV_STATUS NV_STATUS_REC_BAD = true ↔
                    s.flag NV_STATUS NV_STATUS_REC_BAD = true ∨ recs.2 = true ∨ ∃ r ∈ recs.1, r.typ = 0 ∨ 8 ≤ r.typ)))))
    ∧ (∀ (dst : BitVec 7) (e : BitVec 256),
        let mine := s.lead = false ∧ dst.toNat = s.id
        (down → nothing (.ageEntry dst e))
        ∧ (¬down → ∃ t, exec (.ageEntry dst e) ⟨s, q⟩ = .next ⟨t, q⟩ ∧ s.ringSends t (on ⟨RG_AGE_ENTRY, dst.toNat, 0, flits8 e⟩) ∧ rest t
          ∧ (¬mine → t.start = s.start ∧ s.regsBut t []) ∧ (mine → t.start = { s.start with ageEntry := e })
          ∧ (mine → step1 → s.start.staged = true → t.fld NV_STATUS NV_STATUS_STEP = 2 ∧ s.regsBut t [NV_STATUS])
          ∧ (mine → step1 → s.start.staged = false → s.start.stageBad = true → halts t)
          ∧ (mine → ¬(step1 ∧ (s.start.staged = true ∨ s.start.stageBad = true)) → s.regsBut t [])))
    ∧ (∀ (dst : BitVec 7) (e : BitVec 256),
        let e2 := if s.isOpen && decide (s.id = dst.toNat) then s.ageNow else e
        let g := s.age
        let taken := s.lead = true ∧ dst.toNat ∈ g.waiting
        let left := g.waiting.filter (fun i => i != dst.toNat)
        let c := Tbl.put 0 g.collect dst.toNat e
        let moved := g.forced || (s.id :: s.others).any (fun i => Tbl.at 0 c i != Tbl.at 0 g.stored i)
        let all := g.collecting && decide (left = [])
        let go := all && moved && !(s.flag NV_CMD NV_CMD_BUSY) && !(s.flag NV_STEWARD NV_STEWARD_HALT)
        (down → nothing (.ageCollect dst e))
        ∧ (¬down → ∃ t, exec (.ageCollect dst e) ⟨s, q⟩ = .next ⟨t, q⟩ ∧ s.ringSends t (on ⟨RG_AGE_COLLECT, dst.toNat, 0, flits8 e2⟩) ∧ t.ring.failures = 0
          ∧ (¬taken → t.age = g ∧ s.regsBut t [])
          ∧ (taken → t.age = { g with waiting := left, collect := c, collecting := g.collecting && !go && (moved || !all), programming := g.programming || go, written := if go then t.record else g.written }
              ∧ t.flag AG_REC_CTRL AG_REC_CTRL_BUSY = (s.flag AG_REC_CTRL AG_REC_CTRL_BUSY || go) ∧ s.regsBut t [AG_REC_CTRL])
          ∧ t = { s with regs := t.regs, pins := t.pins, now := t.now, ring := t.ring, age := t.age, ahead := [] }))
    ∧ (∀ (c : Instr) (n : Node) (v w : Word), s.ready = true →
        (c = .rgRosterCmd n v ∧ w = setF v RG_CTRL_ROSTER 1) ∨ (c = .rgEmber n v ∧ w = setF v RG_CTRL_EMBER 1) ∨ (c = .brTrain n v ∧ w = setF v RG_CTRL_BR_TRAIN 1) →
        let bit := fun (f : Fld) => getF w f = 1
        let trains := bit RG_CTRL_BR_TRAIN ∧ s.anyActive = false ∧ bit RG_CTRL_BR_EN ∧ s.start.aonReset = false
        let moved := s.anyActive = true ∧ getF w RG_CTRL_BR_EN ≠ s.fld RG_CTRL RG_CTRL_BR_EN
        ∃ t, exec c ⟨s, q⟩ = .next ⟨t, q⟩
          ∧ (s.lead = false → s.noted.regsBut t [] ∧ s.noted.wroteOnly t)
          ∧ (s.lead = true → t.fld RG_CTRL RG_CTRL_BR_IRQ_EN = getF w RG_CTRL_BR_IRQ_EN
              ∧ t.fld RG_CTRL RG_CTRL_BR_EN = (if s.anyActive then s.fld RG_CTRL RG_CTRL_BR_EN else getF w RG_CTRL_BR_EN)
              ∧ s.ringSends t ((if getF w RG_CTRL_EMBER = 1 then [⟨RG_MODE, RG_ALL, 0, [0]⟩] else [])
                  ++ if getF w RG_CTRL_ROSTER = 1 then [⟨RG_ROSTER_PKT, RG_ALL, 0, flits2 0⟩] else [])
              ∧ (¬trains → t.board = s.board) ∧ (trains → t.board.training = true ∧ t.board.down = false ∧ t.board.out = s.board.out
                  ∧ t.board.ctl = s.board.ctl ++ [⟨true, 3, 0, 0⟩])
              ∧ (¬moved → t.errLog = s.errLog ∧ s.noted.regsBut t [RG_CTRL]) ∧ s.noted.regsBut t ([RG_CTRL] ++ logRegs)
              ∧ t = { s.noted with regs := t.regs, pins := t.pins, now := t.now, wroteRegs := t.wroteRegs, ring := t.ring, board := t.board, errLog := t.errLog, ahead := [] }))

/-! ### The board ring -/

/-- R356 to R362, in a lead with BR_EN = 1: a sound frame is acknowledged, and frames are discarded while another SEQ is awaited. A COUNT frame aligns
the count of a host that is not the master and has only PID 0 active, or sets CSKIP, and goes on with ACC as recomputed; proposals and PING go on but
at their originator, where a PING that has visited every host brings the ring up. A frame that fails its CRC is answered by NAK; NAK sends again from
its SEQ; eight in a row bring the link down. A frame of another host leaves 10 ticks on, and the host's own only where none of those leaves within 7 ticks;
an adjustment that is applied is followed by COUNT in the next tick. ECHO and LAT measure the latency; a step out of time ends training. GO adjusts the count. -/
def Obligations.BoardRing : Prop :=
  ∀ (s : Slice) (q : List Instr),
    let nothing := fun (c : Instr) => ∃ t, exec c ⟨s, q⟩ = .next ⟨t, q⟩ ∧ s.regsOnly t ∧ s.regsBut t []
    let b := s.board
    let st := RG_STATUS
    let timing := [DG_TEVT, DG_TEVT_CNT]
    let up := s.boardOn = true ∧ b.down = false
    let takes := fun (seq : BitVec 4) => up ∧ (b.resync = false ∨ b.rxSeq = seq.toNat)
    let acked := fun (seq : BitVec 4) => { b with resync := false, rxNaks := 0, rxSeq := (seq.toNat + 1) % 16, ctl := b.ctl ++ [⟨false, 1, seq.toNat, 0⟩] }
    let passes := fun (x : Board) (typ origin : Nat) (pl : BitVec 96) => { x with fwd := x.fwd ++ [⟨s.refs + 10, typ, origin, pl⟩] }
    let sends := fun (x : Board) (now typ origin : Nat) (pl : BitVec 96) => let f : BoardFrame := ⟨typ, x.seq, origin, pl, now⟩
      { x with seq := (x.seq + 1) % 16, out := x.out ++ [f], kept := ((x.kept ++ [f]).reverse.take 8).reverse }
    let boardOnly := fun (t : Slice) (x : Board) (l : List Nat) => t.board = x ∧ s.regsBut t l
      ∧ t = { s with regs := t.regs, pins := t.pins, now := t.now, board := x, ahead := [] }
    let retried := fun (t : Slice) => t.fld RG_RETRY RG_RETRY_BOARD = min (2 ^ RG_RETRY_BOARD.len - 1) (s.fld RG_RETRY RG_RETRY_BOARD + 1)
    let fails := fun (t : Slice) => t.flag st RG_STATUS_BR_UP = false ∧ t.flag st RG_STATUS_BR_DOWN = true
      ∧ (s.flag st RG_STATUS_BR_UP = true → s.flag RG_CTRL RG_CTRL_BR_IRQ_EN = true → t.pins.mgmtMore = true)
    let mine := fun (origin : BitVec 4) => origin.toNat = s.hostId
    (∀ (c : Instr) (seq : BitVec 4), ¬takes seq →
        (∃ o v a p, c = .boardCount o seq v a p) ∨ (∃ o p l x y, c = .boardProp o seq p l x y) ∨ (∃ o v, c = .boardPing o seq v) → nothing c)
    ∧ (∀ (origin seq : BitVec 4) (value : Word) (acc : BitVec 32) (phi : BitVec 4), takes seq →
        let x : Int := (acc.toNat : Int) + (s.fld RG_BR_LAT RG_BR_LAT_LAT_IN : Int) - (phi.toNat : Int)
        let delta := value + BitVec.ofInt 64 ((2 * x + 12) / 25) - s.count
        let pl : BitVec 96 := (BitVec.ofInt 32 (x + 125) ++ value)
        let fwd := passes (acked seq) BF_COUNT origin.toNat pl
        ∃ t, exec (.boardCount origin seq value acc phi) ⟨s, q⟩ = .next ⟨t, q⟩
          ∧ (mine origin → boardOnly t (acked seq) []) ∧ (¬mine origin → s.hostId = 0 → boardOnly t fwd [])
          ∧ (¬mine origin → s.hostId ≠ 0 → s.anyActive = true → boardOnly t fwd [st] ∧ t.flag st RG_STATUS_CSKIP = true)
          ∧ (¬mine origin → s.hostId ≠ 0 → s.anyActive = false → t.reg RG_BR_OFFSET = delta ∧ t.board = { fwd with upWait := true }
              ∧ s.ringSends t [⟨RG_COUNT_SET, RG_ALL, 0, flits2 (s.count + 64) ++ flits2 (s.count + 64 + delta)⟩] ∧ s.regsBut t [RG_BR_OFFSET]
              ∧ t = { s with regs := t.regs, pins := t.pins, now := t.now, board := t.board, ring := t.ring, ahead := [] }))
    ∧ (∀ (origin seq pid level : BitVec 4) (clamp : BitVec 32) (bnd : BitVec 56), takes seq →
        let pl : BitVec 96 := bnd ++ clamp ++ level ++ pid
        let fwd := passes (acked seq) BF_PROP origin.toNat pl
        let kept := fun (g : Nat) => s.groupOf pid.toNat = some g ∧ origin.toNat ∈ s.members g
        let props := fun (g : Nat) => Tbl.put (0, 0) (s.group g).props origin.toNat (level.toNat + 1, bnd.toNat)
        let allIn := fun (g : Nat) => (s.group g).waiting = true
          ∧ ∀ h ∈ s.members g, (Tbl.at (0, 0) (props g) h).1 ≠ 0 ∧ (Tbl.at (0, 0) (props g) h).2 = (s.group g).boundary % 2 ^ 56
        ∃ t, exec (.boardProp origin seq pid level clamp bnd) ⟨s, q⟩ = .next ⟨t, q⟩
          ∧ (mine origin → boardOnly t (acked seq) []) ∧ (¬mine origin → (∀ g, ¬kept g) → boardOnly t fwd [])
          ∧ (∀ g, ¬mine origin → kept g → t.board = fwd ∧ (∀ j, j ≠ g → t.group j = s.group j)
              ∧ t.fld (PG_GSTAT g) PG_GSTAT_STRAGGLE = min (2 ^ PG_GSTAT_STRAGGLE.len - 1) (s.fld (PG_GSTAT g) PG_GSTAT_STRAGGLE + clamp.toNat)
              ∧ (¬allIn g → t.group g = { s.group g with props := props g } ∧ s.regsBut t [PG_GSTAT g])
              ∧ (allIn g → t.group g = { s.group g with props := props g, waiting := false, missed := [], next := (t.group g).next }
                  ∧ (t.group g).next = (s.members g).foldl (fun m h => max m ((Tbl.at (0, 0) (props g) h).1 - 1)) 0 + 1)
              ∧ s.regsBut t [PG_GSTAT g, PG_LOG_STATUS]
              ∧ t = { s with regs := t.regs, pins := t.pins, now := t.now, board := t.board, gov := t.gov, ring := t.ring, ahead := [] }))
    ∧ (∀ (origin seq : BitVec 4) (visited : BitVec 16), takes seq →
        let up' := b.training = true ∧ s.hostId = 0 ∧ ∀ h, h < s.nhosts → visited.getLsbD h = true
        ∃ t, exec (.boardPing origin seq visited) ⟨s, q⟩ = .next ⟨t, q⟩
          ∧ (¬mine origin → boardOnly t (passes (acked seq) BF_PING origin.toNat ((visited ||| 1 <<< s.hostId).setWidth 96)) [])
          ∧ (mine origin → ¬up' → boardOnly t (acked seq) [])
          ∧ (mine origin → up' → boardOnly t { acked seq with training := false, own := b.own ++ [⟨s.refs + 1, BF_COUNT, 0, 0⟩] } [st] ∧ t.flag st RG_STATUS_BR_UP = true
              ∧ (s.flag st RG_STATUS_BR_UP = false → s.flag RG_CTRL RG_CTRL_BR_IRQ_EN = true → t.pins.mgmtMore = true)))
    ∧ (∀ seq : BitVec 4,
        let here := b.kept.any (fun f => f.seq = seq.toNat) = true
        let later := b.kept.dropWhile (fun f => f.seq != seq.toNat)
        let again := later.map (fun f => f.again s.refs)
        (s.boardOn = false ∨ ¬here → nothing (.boardAck seq))
        ∧ (s.boardOn = true → here → ∃ t, exec (.boardAck seq) ⟨s, q⟩ = .next ⟨t, q⟩ ∧ boardOnly t { b with kept := later.drop 1, naks := 0 } [])
        ∧ (¬up ∨ ¬here → nothing (.boardNak seq))
        ∧ (up → here → let x := { b with out := b.out ++ again, kept := b.kept.takeWhile (fun f => f.seq != seq.toNat) ++ again, naks := b.naks + 1 }
            ∃ t, exec (.boardNak seq) ⟨s, q⟩ = .next ⟨t, q⟩ ∧ retried t ∧ (s.detActive = true → t.flag DG_TEVT DG_TEVT_RING = true)
              ∧ (∀ f ∈ later, (f.typ ≠ BF_COUNT → f.again s.refs = { f with tick := s.refs })
                  ∧ (f.typ = BF_COUNT → (s.refs - f.tick) % 2 = 0 → f.again s.refs = { f with
                      tick := s.refs, payload := (f.payload.extractLsb' 64 32 + BitVec.ofNat 32 (25 * (s.refs - f.tick) / 2)) ++ f.payload.extractLsb' 0 64 }))
              ∧ (b.naks + 1 < 8 → boardOnly t x ([RG_RETRY] ++ timing))
              ∧ (8 ≤ b.naks + 1 → boardOnly t { x with down := true } ([RG_RETRY, st] ++ timing) ∧ fails t)))
    ∧ (∀ (crcBad : Bool) (seq : BitVec 4),
        let x := { b with resync := true, rxSeq := seq.toNat, rxNaks := b.rxNaks + 1, ctl := b.ctl ++ [⟨false, 2, seq.toNat, 0⟩] }
        (¬takes seq → nothing (.boardFrameBad crcBad seq))
        ∧ (takes seq → ∃ t, exec (.boardFrameBad crcBad seq) ⟨s, q⟩ = .next ⟨t, q⟩ ∧ retried t
          ∧ (crcBad = false → boardOnly t (acked seq) [RG_RETRY])
          ∧ (crcBad = true → s.detActive = true → t.flag DG_TEVT DG_TEVT_RING = true)
          ∧ (crcBad = true → b.rxNaks + 1 < 8 → boardOnly t x ([RG_RETRY] ++ timing))
          ∧ (crcBad = true → 8 ≤ b.rxNaks + 1 → boardOnly t { x with down := true } ([RG_RETRY, st] ++ timing) ∧ fails t)))
    ∧ (up → s.edgeAt ≤ s.frac + 2 → s.ring.timed = [] →
        let now := s.refs + 1
        ∃ t, step ⟨s, []⟩ = .next ⟨t, []⟩
          ∧ (∀ f, b.fwd = [f] → b.own = [] →
              (f.tick ≤ now → t.board = sends { b with fwd := [], fwdAt := some now } now f.typ f.origin f.payload) ∧ (now < f.tick → t.board = b))
          ∧ (∀ f, b.fwd = [] → b.own = [f] →
              let free := f.tick ≤ now ∧ (∀ n, b.fwdAt = some n → n + 7 < now) ∧ (∀ n, b.ownAt = some n → n + 8 ≤ now)
              (free → t.board = sends { b with own := [], ownAt := some now } now f.typ f.origin (if f.typ = BF_COUNT then countPayload (s.count + 1) 0 else f.payload))
              ∧ (¬free → t.board = b)))
    ∧ (∀ a v, up → s.edgeAt ≤ s.frac + 2 → s.ring.timed = [.countSet a v] → a.toNat ≤ (s.count + 1).toNat → b.adjAt = some a.toNat → b.fwd = [] → b.own = [] →
        ∃ t, step ⟨s, []⟩ = .next ⟨t, []⟩ ∧ t.count = v ∧ t.board.adjAt = none ∧ t.flag RG_CNT_ADJ RG_CNT_ADJ_ARMED = false
          ∧ t.board.own = [⟨s.refs + 2, BF_COUNT, s.hostId, 0⟩] ∧ t.board.out = b.out)
    ∧ ((∀ r : BitVec 16, (s.boardOn = false → nothing (.echo false r))
          ∧ (s.boardOn = true → ∃ t, exec (.echo false r) ⟨s, q⟩ = .next ⟨t, q⟩ ∧ boardOnly t { b with ctl := b.ctl ++ [⟨false, 3, 0, 0⟩] } [])
          ∧ (s.boardOn = false ∨ b.training = false → nothing (.echo true r))
          ∧ (s.boardOn = true → b.training = true → 64 ≤ r.toNat →
              let l := (r.toNat - 64 + 1) / 2
              let x := { b with ctl := b.ctl ++ [⟨true, 4, 0, l⟩] }
              ∃ t, exec (.echo true r) ⟨s, q⟩ = .next ⟨t, q⟩ ∧ t.fld RG_BR_LAT RG_BR_LAT_LAT_OUT = l
                ∧ t.fld RG_BR_LAT RG_BR_LAT_LAT_IN = s.fld RG_BR_LAT RG_BR_LAT_LAT_IN
                ∧ (s.hostId ≠ 0 → boardOnly t x [RG_BR_LAT])
                ∧ (s.hostId = 0 → s.boardFree = false → boardOnly t { x with own := b.own ++ [⟨s.refs, BF_PING, 0, 1⟩] } [RG_BR_LAT])
                ∧ (s.hostId = 0 → s.boardFree = true → b.own = [] → b.down = false →
                    boardOnly t (sends { x with ownAt := some s.refs } s.refs BF_PING 0 1) [RG_BR_LAT]))
          ∧ (s.boardOn = false → nothing (.lat r))
          ∧ (s.boardOn = true → ∃ t, exec (.lat r) ⟨s, q⟩ = .next ⟨t, q⟩ ∧ t.fld RG_BR_LAT RG_BR_LAT_LAT_IN = r.toNat
                ∧ t.fld RG_BR_LAT RG_BR_LAT_LAT_OUT = s.fld RG_BR_LAT RG_BR_LAT_LAT_OUT ∧ boardOnly t b [RG_BR_LAT]))
       ∧ (s.boardOn = false ∨ b.training = false → nothing .trainingTimeout)
       ∧ (s.boardOn = true → b.training = true → ∃ t, exec .trainingTimeout ⟨s, q⟩ = .next ⟨t, q⟩ ∧ boardOnly t { b with training := false } [st]
          ∧ t.flag st RG_STATUS_BR_DOWN = true ∧ t.pins.mgmtMore = true))
    ∧ (∀ (n : Node) (v : Word), s.ready = true →
        let adj := RG_CNT_ADJ
        let moved := s.anyActive = true ∧ getF v RG_CNT_ADJ_DELTA ≠ s.fld adj RG_CNT_ADJ_DELTA
        let ok := s.anyActive = false ∧ (s.hostId = 0 ∨ s.flag RG_CTRL RG_CTRL_BR_EN = false) ∧ s.flag adj RG_CNT_ADJ_ARMED = false
        let near := (s.reg RG_CNT_ADJ_TICK).toNat < s.count.toNat + 64
        let a := if near then s.count + 64 else s.reg RG_CNT_ADJ_TICK
        let d : Word := ((v.extractLsb' 0 32).signExtend 64)
        ∃ t, exec (.rgCntAdjGo n v) ⟨s, q⟩ = .next ⟨t, q⟩
          ∧ (s.lead = false → s.noted.regsBut t [] ∧ s.noted.wroteOnly t)
          ∧ (s.lead = true → ¬ok → t.flag st RG_STATUS_ADJ_REFUSED = true ∧ t.board = b ∧ t.ring = s.ring ∧ (¬moved → s.noted.regsBut t [adj, st])
              ∧ t.flag adj RG_CNT_ADJ_ARMED = s.flag adj RG_CNT_ADJ_ARMED)
          ∧ (s.lead = true → ok → t.fld adj RG_CNT_ADJ_DELTA = getF v RG_CNT_ADJ_DELTA ∧ t.flag adj RG_CNT_ADJ_ARMED = true
              ∧ (near → t.flag st RG_STATUS_LATE = true) ∧ (¬near → t.reg st = s.reg st) ∧ t.board = { b with adjAt := some a.toNat }
              ∧ s.ringSends t [⟨RG_COUNT_SET, RG_ALL, 0, flits2 a ++ flits2 (a + d)⟩] ∧ s.noted.regsBut t [adj, st])
          ∧ s.noted.regsBut t ([adj, st] ++ logRegs)
          ∧ t = { s.noted with regs := t.regs, pins := t.pins, now := t.now, wroteRegs := t.wroteRegs, board := t.board, ring := t.ring, errLog := t.errLog, ahead := [] })

/-! ### Start-up -/

/-- R364, R355, R394, R409: ember reset leaves the state of reset, and its release starts the count at 0 with the strap's slice ID. R237, R377, R403:
at an alignment count each crossing takes its latency or stays asynchronous, and the credits of the answer classes begin; a marker gap makes a
crossing asynchronous. R378, R379: the lead loads the count; a position opens its flue, and one that comes late or re-enters is READY at once; the
lead takes the roster. R365, R380, R409: slice reset keeps the ember domain alone, an armed count adjustment with it, and returns to step 2 once
step 1 is over. R383, R384: the steward's heartbeat and halt. -/
def Obligations.StartUp : Prop :=
  ∀ (s : Slice) (q : List Instr),
    let nothing := fun (c : Instr) => ∃ t, exec c ⟨s, q⟩ = .next ⟨t, q⟩ ∧ s.regsOnly t ∧ s.regsBut t []
    let step := s.fld NV_STATUS NV_STATUS_STEP
    let asleep := s.start.aonReset = true
    let det := DG_DET_STATUS
    exec .aonResetAssert ⟨s, q⟩ = .next ⟨{ Slice.reset with fresh := s.fresh }, q⟩
    ∧ (∀ strap : BitVec 6,
        let off := s.start.aonReset = false ∨ s.start.fuseOff = true
        (off → nothing (.aonResetRelease strap))
        ∧ (¬off → ∃ t, exec (.aonResetRelease strap) ⟨s, q⟩ = .next ⟨t, q⟩ ∧ t.fld NV_STATUS NV_STATUS_STEP = 1 ∧ t.id = strap.toNat
          ∧ t.lead = decide (strap = 0) ∧ s.regsBut t [ID_SLICE, NV_STATUS]
          ∧ t = { s with regs := t.regs, pins := t.pins, now := t.now, start := { s.start with aonReset := false }, count := 0, refs := 0, frac := 0,
                         tap := ⟨IR_IDCODE, 0, 0, 0⟩, ahead := [] })
        ∧ (asleep ∨ s.start.sliceReset = false → nothing (.sliceResetRelease strap))
        ∧ (¬asleep → s.start.sliceReset = true → ∃ t, exec (.sliceResetRelease strap) ⟨s, q⟩ = .next ⟨t, q⟩ ∧ t.id = strap.toNat ∧ t.lead = decide (strap = 0)
          ∧ s.regsBut t [ID_SLICE]
          ∧ t = { s with regs := t.regs, pins := t.pins, now := t.now, start := { s.start with sliceReset := false, flueOpen := false }, ahead := [] }))
    ∧ (let off := asleep ∨ s.start.sliceReset = true
       let reset := fun (a : Nat) => if a ∈ emberRegs then s.reg a else Slice.reset.reg a
       (off → nothing .sliceResetAssert)
       ∧ (¬off → ∃ t, exec .sliceResetAssert ⟨s, q⟩ = .next ⟨t, q⟩ ∧ (∀ a ∉ [NV_STATUS, NV_STEWARD, RG_CNT_ADJ, PG_STATUS], t.reg a = reset a)
          ∧ t.reg NV_STATUS = setF (s.reg NV_STATUS) NV_STATUS_STEP (if step ≤ 1 ∨ step = 15 then step else 2)
          ∧ t.reg RG_CNT_ADJ = setF 0 RG_CNT_ADJ_ARMED (s.fld RG_CNT_ADJ RG_CNT_ADJ_ARMED)
          ∧ t.reg NV_STEWARD = setF (s.reg NV_STEWARD) NV_STEWARD_HALT 0
          ∧ t.reg PG_STATUS = setF (Slice.reset.reg PG_STATUS) PG_STATUS_BOOST (b2n s.freqHi)
          ∧ t.ring = { s.ring with timed := t.ring.timed } ∧ (∀ x, x ∈ t.ring.timed ↔ x ∈ s.ring.timed ∧ ∃ a v, x = .countSet a v)
          ∧ t.pins.mgmt = s.pins.mgmt ∧ t.pins.mgmtMore = s.pins.mgmtMore ∧ t.pins.cfgDone = s.pins.cfgDone ∧ t.pins.cfgErr = s.pins.cfgErr
          ∧ t.start = { s.start with sliceReset := true, powered := false, aligned := false, reentry := s.start.reentry || s.ready }
          ∧ t = { Slice.reset with fc := s.fc, refs := s.refs, frac := s.frac, count := s.count, freqHi := s.freqHi, fresh := s.fresh, regs := t.regs,
                                   ring := t.ring, sent := s.sent, board := s.board, start := t.start, tap := s.tap, pins := t.pins }))
    ∧ (∀ lat : BitVec 32,
        let due := s.alignTick ≤ s.count.toNat ∧ (s.count.toNat - s.alignTick) % s.alignPeriod = 0 ∧ s.start.step5At.toNat + 64 ≤ s.count.toNat ∧ step = 5
        let target := let x := s.fld DG_XING DG_XING_TARGET
                      if 2 ≤ x ∧ x ≤ 6 then x else 3
        let l := fun (p : Nat) => (lat.extractLsb' p 4).toNat
        let aligned := fun (p : Nat) => if target ≤ l p ∧ l p ≤ 6 then l p else 0
        (¬due → nothing (.crossingAlignment lat))
        ∧ (due → ∃ t, exec (.crossingAlignment lat) ⟨s, q⟩ = .next ⟨t, q⟩
          ∧ (∀ p, p < 4 → t.fld DG_XING (xingLat p) = aligned (4 * p) ∧ t.egressLat p = aligned (16 + 4 * p)
              ∧ (t.flag det (xingAligned p) = true ↔ aligned (4 * p) ≠ 0 ∧ aligned (16 + 4 * p) ≠ 0)
              ∧ (t.flag det (xingAsync p) = true ↔ aligned (4 * p) = 0 ∨ aligned (16 + 4 * p) = 0))
          ∧ t.flag det DG_DET_STATUS_ALIGN_DONE = true ∧ t.fld NV_STATUS NV_STATUS_STEP = 6
          ∧ (∀ p, t.rxHeld p .fwd = 2 ∧ t.rxHeld p .rsp = 16 ∧ t.rxHeld p .dat = 16 ∧ t.rxHeld p .req = s.rxHeld p .req)
          ∧ s.regsBut t [DG_XING, det, NV_STATUS]
          ∧ t = { s with regs := t.regs, pins := t.pins, now := t.now, rxCred := t.rxCred, outLat := t.outLat, start := { s.start with aligned := true, alignedCount := s.count }, ahead := [] }))
    ∧ (∀ (p : Port) (out : Bool), (s.xing p.val out = 0 → nothing (.xingMarkerGap ⟨p, out⟩))
        ∧ (s.xing p.val out ≠ 0 → ∃ t, exec (.xingMarkerGap ⟨p, out⟩) ⟨s, q⟩ = .next ⟨t, q⟩ ∧ t.flag det (xingAligned p.val) = false
          ∧ t.flag det (xingAsync p.val) = true ∧ t.xing p.val out = 0 ∧ t.xing p.val (!out) = s.xing p.val (!out)
          ∧ (s.detActive = true → t.flag DG_TEVT DG_TEVT_XING = true)
          ∧ (∀ j, j < 4 → j ≠ p.val → t.flag det (xingAligned j) = s.flag det (xingAligned j) ∧ t.flag det (xingAsync j) = s.flag det (xingAsync j)
              ∧ ∀ o, t.xing j o = s.xing j o)
          ∧ s.regsBut t [det, DG_XING, DG_TEVT, DG_TEVT_CNT] ∧ t = { s with regs := t.regs, pins := t.pins, now := t.now, outLat := t.outLat, ahead := [] }))
    ∧ (let due := s.lead = true ∧ step = 6 ∧ s.start.reentry = false ∧ s.countSent = false ∧ s.start.alignedCount.toNat + 8 ≤ s.count.toNat
       let a := if s.flag RG_STATUS RG_STATUS_MODE then s.count + 64 else s.count + BitVec.ofNat 64 (8 * s.fld ID_SLICE ID_SLICE_GROUP_SIZE + 32)
       (¬due → nothing .countLoad)
       ∧ (due → ∃ t, exec .countLoad ⟨s, q⟩ = .next ⟨t, q⟩ ∧ s.ringSends t [⟨RG_COUNT_SET, RG_ALL, 0, flits2 a ++ flits2 (BitVec.ofNat 64 s.countStart)⟩]
          ∧ s.regsBut t [] ∧ t = { s with regs := t.regs, pins := t.pins, now := t.now, ring := t.ring, ahead := [] }))
    ∧ (let due := step = 6 ∧ s.start.aligned = true ∧ (s.start.reentry = true ∨ (s.start.loaded = true ∧ s.countStart + 16 ≤ s.count.toNat))
       let again := s.start.reentry = true
       let late := s.start.reentry = false ∧ s.start.rosterSeen = true
       let opened := { s.start with flueOpen := true, reentry := false }
       (¬due → nothing .flueOpen)
       ∧ (due → ∃ t, exec .flueOpen ⟨s, q⟩ = .next ⟨t, q⟩ ∧ t.start = opened
          ∧ (¬again → ¬late → t.fld NV_STATUS NV_STATUS_STEP = 7 ∧ s.regsBut t [NV_STATUS]
              ∧ t = { s with regs := t.regs, pins := t.pins, now := t.now, start := opened, ahead := [] })
          ∧ (again ∨ late → s.readied t ∧ t.flag NV_STATUS NV_STATUS_LATE_OPEN = (s.flag NV_STATUS NV_STATUS_LATE_OPEN || decide late)
              ∧ (late → t.flag ID_STATUS ID_STATUS_MAP_BAD = s.flag ID_STATUS ID_STATUS_MAP_BAD) ∧ (again → t.flag ID_STATUS ID_STATUS_MAP_BAD = s.mapBad)
              ∧ s.regsBut t readyRegs
              ∧ t = { s with regs := t.regs, pins := t.pins, now := t.now, start := opened, board := t.board, rxCred := t.rxCred, egress := t.egress, txns := t.txns,
                             txnWait := t.txnWait, fresh := t.fresh, ahead := [] })))
    ∧ (let due := s.lead = true ∧ step = 7 ∧ s.countStart + 32 ≤ s.count.toNat
       (¬due → nothing .rosterTake)
       ∧ (due → ∃ t, exec .rosterTake ⟨s, q⟩ = .next ⟨t, q⟩ ∧ s.ringSends t [⟨RG_ROSTER_PKT, RG_ALL, 0, flits2 0⟩] ∧ s.regsBut t []
          ∧ t = { s with regs := t.regs, pins := t.pins, now := t.now, ring := t.ring, ahead := [] }))
    ∧ (let off := asleep ∨ s.flag NV_STEWARD NV_STEWARD_HALT = true
       (off → nothing .heartbeat ∧ nothing .stewardHalt)
       ∧ (¬off → (∃ t, exec .heartbeat ⟨s, q⟩ = .next ⟨t, q⟩ ∧ t.reg NV_STEWARD = setF (s.reg NV_STEWARD) NV_STEWARD_HEARTBEAT
              ((s.fld NV_STEWARD NV_STEWARD_HEARTBEAT + 1) % 2 ^ 32) ∧ s.regsBut t [NV_STEWARD] ∧ s.regsOnly t)
          ∧ ∃ t, exec .stewardHalt ⟨s, q⟩ = .next ⟨t, q⟩ ∧ t.reg NV_STEWARD = setF (s.reg NV_STEWARD) NV_STEWARD_HALT 1 ∧ t.pins.mgmtMore = true
              ∧ s.regsBut t [NV_STEWARD] ∧ s.regsOnly t))

/-- R368, R370, R373: when the NVM wait ends the lead chooses the banks with well-formed headers, the newer first, or halts with NO_IMAGE; a quad read
with a bad MAGIC in both is repeated. R374: a bank streamed whole leaves in packets of 28 bytes, and with a matching CRC gives SL_CFG_DONE and each
slice's ageing entry; else the next bank is tried. R364, R375, R376, R329: with power there the repair records fill the spare mapping and the retire
table; the fill leaves every array zero, defects are quarantined, and the register load follows. -/
def Obligations.ImageAndLoad : Prop :=
  ∀ (s : Slice) (q : List Instr),
    let nothing := fun (c : Instr) => ∃ t, exec c ⟨s, q⟩ = .next ⟨t, q⟩ ∧ s.regsOnly t ∧ s.regsBut t []
    let step := s.fld NV_STATUS NV_STATUS_STEP
    let noImage := fun (t : Slice) => t.flag NV_STATUS NV_STATUS_NO_IMAGE = true ∧ t.fld NV_STATUS NV_STATUS_STEP = 15 ∧ t.pins.cfgErr = true
      ∧ t.start.candidates = []
    let halts := fun (t : Slice) => t.flag NV_STATUS NV_STATUS_STAGE_ERR = true ∧ t.fld NV_STATUS NV_STATUS_STEP = 15
    let corrected := fun (t : Slice) (ce : BitVec 16) => t.fld NV_STEWARD NV_STEWARD_CE = min (2 ^ 16 - 1) (s.fld NV_STEWARD NV_STEWARD_CE + ce.toNat)
    (∀ (sfdp quad : Bool) (a b : BitVec 256),
      let ok := s.lead = true ∧ s.start.aonReset = false ∧ step = 1 ∧ s.start.candidates = []
      let fast := sfdp && quad && !s.start.single
      let again := fast = true ∧ magicOk a = false ∧ magicOk b = false
      let d := ((b.extractLsb' 64 32) - (a.extractLsb' 64 32)).toNat
      let good := fun (t : Slice) (l : List (Bool × BitVec 256)) => t.start = { s.start with candidates := l } ∧ s.regsBut t [NV_STATUS] ∧
        t = { s with regs := t.regs, pins := t.pins, now := t.now, start := t.start, ahead := [] }
      (¬ok → nothing (.nvmWaitExpiry sfdp quad a b))
      ∧ (ok → ∃ t, exec (.nvmWaitExpiry sfdp quad a b) ⟨s, q⟩ = .next ⟨t, q⟩ ∧ t.flag NV_STATUS NV_STATUS_READ_QUAD = fast
        ∧ (again → t.start = { s.start with single := true } ∧ s.regsBut t [NV_STATUS] ∧ t = { s with regs := t.regs, pins := t.pins, now := t.now, start := t.start, ahead := [] })
        ∧ (¬again → wellFormedHdr a = false → wellFormedHdr b = false → noImage t ∧ good t [])
        ∧ (¬again → wellFormedHdr a = true → wellFormedHdr b = false → good t [(false, a)])
        ∧ (¬again → wellFormedHdr a = false → wellFormedHdr b = true → good t [(true, b)])
        ∧ (¬again → wellFormedHdr a = true → wellFormedHdr b = true → 1 ≤ d ∧ d ≤ 2 ^ 31 - 1 → good t [(true, b), (false, a)])
        ∧ (¬again → wellFormedHdr a = true → wellFormedHdr b = true → ¬(1 ≤ d ∧ d ≤ 2 ^ 31 - 1) → good t [(false, a), (true, b)])))
    ∧ (∀ (bank a b : List Byte),
        let c := Instr.imageStreamDone bank a b
        (s.start.candidates = [] → nothing c)
        ∧ (∀ x more, s.start.candidates = x :: more →
            let n := getF x.2 IH_LENGTH
            let l := bank.take (n + 4)
            let off := s.lead = false ∨ step ≠ 1 ∨ bank.length < n + 4
            let stream := (List.range ((n + 4 + 27) / 28)).map (fun k => (⟨RG_IMG_DATA, RG_ALL, imgArg k, flitsOf ((l.drop (28 * k)).take 28)⟩ : RingPkt))
            let rest := fun (t : Slice) => t = { s with regs := t.regs, pins := t.pins, now := t.now, ring := t.ring, start := t.start, ahead := [] }
            (off → nothing c)
            ∧ (¬off → crcHolds l n = false → ∃ t, exec c ⟨s, q⟩ = .next ⟨t, q⟩ ∧ s.ringSends t stream ∧ s.regsBut t [NV_STATUS] ∧ rest t
                ∧ t.flag NV_STATUS (if x.1 then NV_STATUS_CRC_FAIL_B else NV_STATUS_CRC_FAIL_A) = true
                ∧ (more = [] → noImage t) ∧ (more ≠ [] → t.start.candidates = more ∧ t.fld NV_STATUS NV_STATUS_STEP = 1))
            ∧ (¬off → crcHolds l n = true → ∃ t, exec c ⟨s, q⟩ = .next ⟨t, q⟩ ∧ rest t ∧ t.pins.cfgDone = true ∧ t.start.candidates = []
                ∧ t.fld NV_STATUS NV_STATUS_STEP = 2 ∧ t.fld NV_STATUS NV_STATUS_BANK = b2n x.1 ∧ t.fld NV_IMAGE NV_IMAGE_SEQ = getF x.2 IH_SEQ
                ∧ t.fld NV_IMAGE NV_IMAGE_LENGTH = n % 2 ^ 21 ∧ t.fld ID_SLICE ID_SLICE_GROUP_SIZE = getF x.2 IH_GROUP ∧ t.start.staged = true
                ∧ s.ringSends t (stream ++ (List.range (getF x.2 IH_GROUP)).map (fun i => ⟨RG_AGE_ENTRY, i, 0, flits8 (Tbl.at 0 t.start.ageStored i)⟩))
                ∧ (∀ k i, ageSelect a b = some k → i < 64 →
                    Tbl.at 0 t.start.ageStored i = BitVec.ofNat 256 (numAt (if k = 0 then a else b) (16 + 32 * i) 32))
                ∧ s.regsBut t [NV_STATUS, NV_STEWARD, NV_IMAGE, ID_SLICE])))
    ∧ (∀ (ce : BitVec 16) (bad : Bool),
        let power := { s.start with rails := true, powered := true, sliceReset := false, flueOpen := false }
        let records := s.recsOf RT_REPAIR
        (step ≠ 2 → nothing (.powerPresent ce bad))
        ∧ (step = 2 → ∃ t, exec (.powerPresent ce bad) ⟨s, q⟩ = .next ⟨t, q⟩ ∧ corrected t ce
          ∧ s.ringSends t (if s.lead && !(s.flag RG_STATUS RG_STATUS_MODE) then [⟨RG_MODE, RG_ALL, 0, [1]⟩] else [])
          ∧ (bad = true → halts t) ∧ (bad = false → t.fld NV_STATUS NV_STATUS_STEP = 4)
          ∧ (bad = true ∨ records = [] → s.regsBut t [NV_STATUS, NV_STEWARD])
          ∧ (∀ l, bad = false → records = [l] →
              let w : Word := BitVec.ofNat 64 (numAt l 0 8)
              (∀ f ∈ [EC_SPARE_H0_VALID, EC_SPARE_H0_BANK, EC_SPARE_H1_VALID, EC_SPARE_H1_BANK], t.fld EC_SPARE f = getF w f)
              ∧ (∀ k, (∀ i, i < 64 → s.flag (EC_RT i) EC_RT_VALID = false) → k < 64 → 16 + 8 * k ≤ l.length →
                  let v : Word := BitVec.ofNat 64 (numAt l (8 + 8 * k) 8)
                  getF v EC_RT_VALID = 1 → getF v EC_RT_BANK ≤ 8 → ∃ i, i < 64 ∧ t.flag (EC_RT i) EC_RT_VALID = true ∧ t.fld (EC_RT i) EC_RT_STATE = 1 ∧ rtKey (t.reg (EC_RT i)) = rtKey v))
          ∧ s.regsBut t ([NV_STATUS, NV_STEWARD, EC_SPARE] ++ (List.range 64).map (fun i => EC_RT i))
          ∧ t = { s with regs := t.regs, pins := t.pins, now := t.now, ring := t.ring, start := power, ahead := [] }))
    ∧ (∀ (defects : List (BitVec 3 × BitVec 18 × BitVec 5 × BitVec 72)) (ce : BitVec 16) (bad : Bool),
        let c := Instr.kindlingFillDone defects ce bad
        (step ≠ 4 → nothing c)
        ∧ (step = 4 → ∃ t, exec c ⟨s, q⟩ = .next ⟨t, q⟩ ∧ corrected t ce ∧ t.frames = [] ∧ t.repl = [] ∧ t.victims = [] ∧ t.ledger = []
          ∧ (bad = true → halts t ∧ s.regsBut t [NV_STATUS, NV_STEWARD]
              ∧ t = { s with regs := t.regs, pins := t.pins, now := t.now, frames := [], repl := [], victims := [], ledger := [], flips := [], injAt := none, ahead := [] })
          ∧ (bad = false → t.fld NV_STATUS NV_STATUS_STEP = 5 ∧ t.start = { s.start with step5At := s.count }
              ∧ (∀ i, i < 7 → Tbl.at 0 t.age.base i = getF s.start.ageEntry ⟨16 * i, 16⟩) ∧ t.age.present = decide (getF s.start.ageEntry ⟨209, 1⟩ = 1)
              ∧ t.fld AG_PLAN AG_PLAN_APPLIED_H0 = t.fld AG_PLAN AG_PLAN_ASSIST ∧ t.fld AG_PLAN AG_PLAN_APPLIED_H1 = t.fld AG_PLAN AG_PLAN_ASSIST
              ∧ (defects = [] → t.flips = []) ∧ t.fld ID_HM_CRC ID_HM_CRC_CRC = t.crcOfMap.toNat
              ∧ (s.start.records = [] → s.regsBut t ([NV_STATUS, NV_STEWARD, AG_PLAN, AG_MEAS_STATUS, AG_REC_CTRL, AG_POH, ID_HM_CRC, BW_STATUS, EC_STATUS,
                    EC_LOG_STATUS, RG_CTRL, RG_BR_CFG] ++ (List.range 4).map (fun k => BW_MIN k) ++ (List.range 64).map (fun i => EC_RT i))
                  ∧ t = { s with regs := t.regs, pins := t.pins, now := t.now, frames := [], repl := [], victims := [], ledger := [], flips := t.flips, injAt := none,
                                 age := t.age, ring := t.ring, errLog := t.errLog, start := t.start, fresh := t.fresh, rtLate := t.rtLate, ahead := [] })
              ∧ (∀ d, defects = [d] → d.2.2.2 ≠ 0 → d.1.toNat < 6 → t.flip d.1.toNat d.2.1.toNat d.2.2.1.toNat = d.2.2.2
                  ∧ t.flag EC_STATUS EC_STATUS_KINDLE_ERR = true
                  ∧ (d.1.toNat ≤ 2 → d.2.1.toNat < 73728 → s.start.records = [] → (s.coming q).rtBusy = false → (∃ i, i < 64 ∧ s.flag (EC_RT i) EC_RT_VALID = false) → (t.rtFind d.2.1.toNat).isSome = true))
              ∧ (∀ l off r i, s.start.records = [(RT_REG, l)] → l.length = 16 → off = numAt l 0 2 → off < 0x6800 → regAt off = some (r, i) → plainBase r.base = true →
                  s.lead = true → defects = [] →
                  ∀ d ∈ r.flds, (d.acc = .rw ∨ d.acc = .rwl) → s.absent r.base i d.fld = false → t.fld off d.fld = getF (BitVec.ofNat 64 (numAt l 8 8)) d.fld)
              ∧ (∀ l, s.start.records = [(RT_HOME_MAP, l)] → ∀ i, i < 1024 → Tbl.at 0 t.homeMap i = BitVec.ofNat 6 (numAt l i 1)))))

/-! ### Flash commands, the test port and readback -/

/-- R381: a flash command in the lead is ignored while BUSY, ends at once as RANGE or, for the selected image bank and the record banks, as PROTECTED,
or sets BUSY; the flash ends it, with the bytes of a READ in NV_BUF, and the ageing record may be written next. Elsewhere the registers ignore writes. -/
def Obligations.FlashCommands : Prop :=
  ∀ (s : Slice) (q : List Instr),
    let nothing := fun (c : Instr) => ∃ t, exec c ⟨s, q⟩ = .next ⟨t, q⟩ ∧ s.regsOnly t ∧ s.regsBut t []
    let nc := NV_CMD
    let busy := s.flag nc NV_CMD_BUSY = true
    (∀ (c : Instr) (op : Nat) (n : Node) (v : Word), s.ready = true →
        (c = .nvRead n v ∧ op = 1) ∨ (c = .nvProgram n v ∧ op = 2) ∨ (c = .nvErase4k n v ∧ op = 3) →
        let len := getF v NV_CMD_LEN
        let addr := s.fld NV_ADDR NV_ADDR_ADDR
        let range := len = 0 ∨ 256 < len ∨ (op = 2 ∧ 256 < addr % 256 + len)
        let first := if op = 2 then addr else addr / 4096 * 4096
        let last := if op = 2 then addr + len - 1 else addr / 4096 * 4096 + 4095
        let hits := fun (lo hi : Nat) => first ≤ hi ∧ lo ≤ last
        let bank := s.fld NV_STATUS NV_STATUS_BANK * 2 ^ 20
        let guarded := op ≠ 1 ∧ ((s.flag NV_STATUS NV_STATUS_NO_IMAGE = false ∧ hits bank (bank + 2 ^ 20 - 1))
          ∨ ∃ x y, s.start.recBanks = some (x, y) ∧ (hits (x / 4096 * 4096) (x / 4096 * 4096 + 4095) ∨ hits (y / 4096 * 4096) (y / 4096 * 4096 + 4095)))
        let ended := fun (t : Slice) (r : Nat) => t.fld nc NV_CMD_RESULT = r ∧ t.flag nc NV_CMD_DONE = true ∧ t.flag nc NV_CMD_BUSY = false ∧ t.start = s.start
        ∃ t, exec c ⟨s, q⟩ = .next ⟨t, q⟩
          ∧ (s.lead = false → s.noted.regsBut t [] ∧ s.noted.wroteOnly t)
          ∧ (s.lead = true → t.fld nc NV_CMD_OP = op ∧ t.fld nc NV_CMD_LEN = len ∧ s.noted.regsBut t [nc]
              ∧ (busy → t.flag nc NV_CMD_BUSY = true ∧ t.fld nc NV_CMD_RESULT = s.fld nc NV_CMD_RESULT ∧ t.start = s.start)
              ∧ (¬busy → range → ended t 4) ∧ (¬busy → ¬range → guarded → ended t 1)
              ∧ (¬busy → ¬range → ¬guarded → t.flag nc NV_CMD_BUSY = true ∧ t.start = { s.start with nv := (op, len) })
              ∧ t = { s.noted with regs := t.regs, pins := t.pins, now := t.now, wroteRegs := t.wroteRegs, start := t.start, ahead := [] }))
    ∧ (∀ (r : FlashEnd) (data : List Byte),
        let op := s.start.nv.1
        let code := match r with
          | .ok => 0
          | .timeout => 2
          | .noSupport => 3
        let off := ¬busy ∨ s.age.programming = true ∨ (r = .timeout ∧ op = 1) ∨ (r = .noSupport ∧ op ≠ 3)
        let bytes := data.take (min s.start.nv.2 256)
        let rec' := s.age.collecting = true ∧ s.age.waiting = []
        let wanted := s.age.forced = true ∨ s.recDiffers = true
        (off → nothing (.nvCmdDone r data))
        ∧ (¬off → ∃ t, exec (.nvCmdDone r data) ⟨s, q⟩ = .next ⟨t, q⟩ ∧ t.fld nc NV_CMD_RESULT = code ∧ t.flag nc NV_CMD_DONE = true ∧ t.flag nc NV_CMD_BUSY = false
          ∧ (r = .ok → op = 1 → ∀ k, k < 256 → t.fld (NV_BUF (k / 8)) ⟨8 * (k % 8), 8⟩ =
              if h : k < bytes.length then (bytes[k]'h).toNat else s.fld (NV_BUF (k / 8)) ⟨8 * (k % 8), 8⟩)
          ∧ (¬(r = .ok ∧ op = 1) → s.regsBut t [nc, AG_REC_CTRL])
          ∧ (¬rec' → t.age = s.age ∧ t.reg AG_REC_CTRL = s.reg AG_REC_CTRL)
          ∧ (rec' → wanted → s.flag NV_STEWARD NV_STEWARD_HALT = true → t.age = s.age ∧ t.reg AG_REC_CTRL = s.reg AG_REC_CTRL)
          ∧ (rec' → wanted → s.flag NV_STEWARD NV_STEWARD_HALT = false → t.age = { s.age with collecting := false, programming := true, written := t.record }
              ∧ t.reg AG_REC_CTRL = setF (s.reg AG_REC_CTRL) AG_REC_CTRL_BUSY 1)
          ∧ (rec' → ¬wanted → t.age = { s.age with collecting := false } ∧ t.reg AG_REC_CTRL = s.reg AG_REC_CTRL)
          ∧ s.regsBut t ([nc, AG_REC_CTRL] ++ (List.range 32).map (fun i => NV_BUF i))
          ∧ t = { s with regs := t.regs, pins := t.pins, now := t.now, age := t.age, ahead := [] }))

/-- R397, R56: a readback ends at once as BAD_SEL, ASLEEP or SEALED, and else brings the stored bits, check byte and syndrome 12 fc after its grant: a word of a bank
waits for the arbiter behind every other candidate of the internal input, a victim or ledger word is read beside the banks; a codeword that has become a sealed
partition's by the grant is not shown (that clause is the model's, log 43).
R394, R395, R396, R412: IDCODE, STATUS and BYPASS hold what the table says; a register access of the test port is refused by TAP_LOCK, ends as not
reachable, or acts as host software's. R411: an interval of the SL_IRQ_MGMT pulse ends. -/
def Obligations.TestPortAndReadback : Prop :=
  ∀ (s : Slice) (q : List Instr),
    let nothing := fun (c : Instr) => ∃ t, exec c ⟨s, q⟩ = .next ⟨t, q⟩ ∧ s.regsOnly t ∧ s.regsBut t []
    let timing := [DG_TEVT, DG_TEVT_CNT]
    let read := fun (t : Slice) (r : TdReq) => t.reg TD_ARR_DATA = s.trueWord r.arr r.idx r.word ^^^ (s.flip r.arr r.idx r.word).extractLsb' 0 64
      ∧ t.fld TD_ARR_CHECK TD_ARR_CHECK_CHECK = (checkOf (s.trueWord r.arr r.idx r.word) ^^^ (s.flip r.arr r.idx r.word).extractLsb' 64 8).toNat
      ∧ (s.flip r.arr r.idx r.word = 0 → t.fld TD_ARR_CHECK TD_ARR_CHECK_SYNDROME = 0)
    (∀ (n : Node) (v : Word), s.ready = true → s.flag PC_CTRL PC_CTRL_EN = false →
        let cmd := TD_ARR_CMD
        let sel := fun (f : Fld) => s.fld TD_ARR_SEL f
        let arr := sel TD_ARR_SEL_ARRAY
        let half := sel TD_ARR_SEL_HALF
        let bank := sel TD_ARR_SEL_BANK
        let index := sel TD_ARR_SEL_INDEX
        let word := sel TD_ARR_SEL_WORD
        let beyond := 6 ≤ arr ∨ (arr ≤ 2 ∧ (9 ≤ bank ∨ 4096 ≤ index)) ∨ ((arr = 1 ∨ arr = 2) ∧ word ≠ 0) ∨ (arr = 3 ∧ (9 ≤ bank ∨ 256 ≤ index ∨ word ≠ 0))
          ∨ (arr = 4 ∧ 32 ≤ index) ∨ (arr = 5 ∧ (8192 ≤ index ∨ word ≠ 0))
        let idx := if arr ≤ 2 then (half * 9 + bank) * 4096 + index else if arr = 3 then (half * 9 + bank) * 256 + index else index
        let asleep := s.arraysUp = false ∨ (arr ≤ 3 ∧ (s.half half).power ≠ .awake)
        let hidden := ∃ p, s.tdOwner arr idx = some p ∧ s.sealed p = true
        let busy := s.flag cmd TD_ARR_CMD_BUSY = true
        let ended := fun (t : Slice) (r : Nat) => t.fld cmd TD_ARR_CMD_RESULT = r ∧ t.flag cmd TD_ARR_CMD_DONE = true ∧ t.flag cmd TD_ARR_CMD_BUSY = false
        ∃ t, exec (.tdArrStart n v) ⟨s, q⟩ = .next ⟨t, q⟩
          ∧ (busy → s.noted.regsBut t [cmd] ∧ s.noted.wroteOnly t ∧ t.flag cmd TD_ARR_CMD_BUSY = true ∧ t.fld cmd TD_ARR_CMD_RESULT = s.fld cmd TD_ARR_CMD_RESULT)
          ∧ (¬busy → beyond → ended t 3 ∧ s.noted.regsBut t [cmd] ∧ s.noted.wroteOnly t)
          ∧ (¬busy → ¬beyond → asleep → ended t 2 ∧ s.noted.regsBut t [cmd] ∧ s.noted.wroteOnly t)
          ∧ (¬busy → ¬beyond → ¬asleep → hidden → ended t 1 ∧ t.reg TD_ARR_DATA = 0 ∧ t.reg TD_ARR_CHECK = 0
              ∧ s.noted.regsBut t ([cmd, TD_ARR_DATA, TD_ARR_CHECK] ++ logRegs)
              ∧ t = { s.noted with regs := t.regs, pins := t.pins, now := t.now, wroteRegs := t.wroteRegs, errLog := t.errLog, ahead := [] })
          ∧ (¬busy → ¬beyond → ¬asleep → ¬hidden → t.flag cmd TD_ARR_CMD_BUSY = true ∧ t.fld cmd TD_ARR_CMD_RESULT = 0
              ∧ (arr ≤ 3 → t.tdReq = some ⟨arr, idx, word, n⟩ ∧ s.noted.regsBut t [cmd]
                  ∧ t = { s.noted with regs := t.regs, pins := t.pins, now := t.now, wroteRegs := t.wroteRegs, tdReq := t.tdReq, ahead := [] })
              ∧ (3 < arr → t.tdAt = some (s.fc + 12) ∧ read t ⟨arr, idx, word, n⟩ ∧ s.noted.regsBut t ([cmd, TD_ARR_DATA, TD_ARR_CHECK] ++ timing)
                  ∧ t = { s.noted with regs := t.regs, pins := t.pins, now := t.now, wroteRegs := t.wroteRegs, tdAt := t.tdAt, ahead := [] })))
    ∧ (∀ (bk : Nat) (q : TdReq), s.flag PC_CTRL PC_CTRL_EN = false → bk < 16 → s.headsIn s.inputs bk = [] → s.innerAt bk = some .readback →
        (s.bank bk).slotFree s.slotFc = true → s.tdReq = some q →
        let t := s.arbitrate bk
        let cmd := TD_ARR_CMD
        (s.tdHidden q = false → t.tdAt = some (s.slotFc + 12) ∧ t.tdReq = none ∧ read t q ∧ (t.bank bk).free = s.slotFc + 1 ∧ s.sameHome t
            ∧ s.regsBut t ([TD_ARR_DATA, TD_ARR_CHECK] ++ timing)
            ∧ t = { s with regs := t.regs, pins := t.pins, now := t.now, banks := t.banks, gov := { s.gov with activity := t.gov.activity },
                           grantsTotal := s.grantsTotal + 1, tdAt := t.tdAt, tdReq := none })
        ∧ (s.tdHidden q = true → t.fld cmd TD_ARR_CMD_RESULT = 1 ∧ t.flag cmd TD_ARR_CMD_DONE = true ∧ t.flag cmd TD_ARR_CMD_BUSY = false
            ∧ t.reg TD_ARR_DATA = 0 ∧ t.reg TD_ARR_CHECK = 0 ∧ s.regsBut t ([cmd, TD_ARR_DATA, TD_ARR_CHECK] ++ logRegs)
            ∧ t = { s with regs := t.regs, pins := t.pins, now := t.now, errLog := t.errLog, tdReq := none }))
    ∧ (∀ (write : Bool) (off : BitVec 13) (data : Word),
        let o := off.toNat * 8
        let c := Instr.regacc write off data
        let live := s.start.aonReset = false ∧ s.start.fuseOff = false
        let locked := s.flag TD_CTRL TD_CTRL_TAP_LOCK = true
        let reach := s.ready = true ∨ o = ID_REV ∨ o = ID_SLICE ∨ (0x6800 ≤ o ∧ o < 0x7800)
        let shown := fun (t : Slice) (res : Nat) => t.tap.ir = IR_REGACC ∧ t.tap.res = res ∧ getF t.tap.dr TR_RES = res % 4 ∧ getF t.tap.dr TR_WRITE = b2n write
          ∧ getF t.tap.dr TR_OFFSET = off.toNat ∧ t.tap.dr.extractLsb' 16 64 = t.tap.data
        let tapOnly := fun (t : Slice) => s.regsBut t [] ∧ t = { s with regs := t.regs, pins := t.pins, now := t.now, tap := t.tap, fresh := t.fresh, ahead := [] }
        (s.start.aonReset = true → nothing c)
        ∧ (s.start.aonReset = false → s.start.fuseOff = true → ∃ t, exec c ⟨s, q⟩ = .next ⟨t, q⟩ ∧ tapOnly t ∧ t.tap = { s.tap with ir := IR_REGACC, dr := 0 })
        ∧ (live → locked → ∃ t, exec c ⟨s, q⟩ = .next ⟨t, q⟩ ∧ tapOnly t ∧ shown t 2 ∧ (write = false → t.tap.data = 0) ∧ t.fresh = s.fresh)
        ∧ (live → ¬locked → ¬reach → ∃ t, exec c ⟨s, q⟩ = .next ⟨t, q⟩ ∧ tapOnly t ∧ shown t 3)
        ∧ (∀ t1, live → ¬locked → s.ready = true → write = true → exec (.registerWrite 0 (BitVec.ofNat 16 o) data) ⟨s, q⟩ = .next ⟨t1, q⟩ →
            ∃ t, exec c ⟨s, q⟩ = .next ⟨t, q⟩ ∧ shown t 0 ∧ t.tap.data = data
              ∧ t = { t1 with tap := t.tap, regPtr := nextPtr 4 })
        ∧ (∀ r i, live → ¬locked → reach → write = false → regAt o = some (r, i) → s.axSealed r.base i = false →
            ∃ t, exec c ⟨s, q⟩ = .next ⟨t, q⟩ ∧ shown t 0 ∧ t.tap.data = s.noted.peek o ∧ s.noted.regsBut t (if o = ID_HM_DATA then [ID_HM_INDEX] else [])
              ∧ t = { s.noted with regs := t.regs, pins := t.pins, now := t.now, wroteRegs := t.wroteRegs, tap := t.tap, regPtr := nextPtr 4, ahead := [] })
        ∧ (live → ¬locked → reach → write = false → regAt o = none → ∃ t, exec c ⟨s, q⟩ = .next ⟨t, q⟩ ∧ shown t 0 ∧ t.tap.data = 0 ∧ s.noted.regsBut t []))
    ∧ (∀ (c : Instr) (ir : BitVec 4) (dr : BitVec 80),
        let dr' := if s.start.fuseOff then 0 else dr
        let status : BitVec 32 := BitVec.ofNat 32 (s.fld NV_STATUS NV_STATUS_STEP + 16 * b2n s.ready + 32 * s.fld NV_STEWARD NV_STEWARD_HALT
          + 64 * s.fld TD_CTRL TD_CTRL_TAP_LOCK + 128 * s.fld NV_STATUS NV_STATUS_NO_IMAGE)
        (c = .idcode ∧ ir = 1 ∧ dr = 0x30D752BB) ∨ (c = .status ∧ ir = 9 ∧ dr = status.setWidth 80) ∨ (∃ b, c = .bypass b ∧ ir = 0xF ∧ dr = if b then 1 else 0) →
        (s.start.aonReset = true → nothing c)
        ∧ (s.start.aonReset = false → ∃ t, exec c ⟨s, q⟩ = .next ⟨t, q⟩ ∧ t.tap = { s.tap with ir := ir, dr := dr' } ∧ s.regsBut t []
          ∧ t = { s with regs := t.regs, pins := t.pins, now := t.now, tap := t.tap, ahead := [] }))
    ∧ ((s.start.aonReset = true → nothing .tapReset)
       ∧ (s.start.aonReset = false → ∃ t, exec .tapReset ⟨s, q⟩ = .next ⟨t, q⟩ ∧ t.tap = ⟨IR_IDCODE, 0, 0, 0x30D752BB⟩ ∧ s.regsBut t []
          ∧ t = { s with regs := t.regs, pins := t.pins, now := t.now, tap := t.tap, ahead := [] }))
    ∧ (let p := s.pins
       ∃ t, exec .slIrqMgmtPulse ⟨s, q⟩ = .next ⟨t, q⟩ ∧ s.regsBut t [] ∧ s.regsOnly t
         ∧ (p.mgmtCount ≠ 0 ∨ (p.mgmt = false ∧ p.mgmtGap = false) →
              t.pins.mgmt = p.mgmt ∧ t.pins.mgmtGap = p.mgmtGap ∧ t.pins.mgmtMore = p.mgmtMore ∧ t.pins.mgmtCount = p.mgmtCount)
         ∧ (p.mgmtCount = 0 → p.mgmt = true → t.pins.mgmt = false ∧ t.pins.mgmtGap = true ∧ t.pins.mgmtMore = p.mgmtMore ∧ t.pins.mgmtCount = 4)
         ∧ (p.mgmtCount = 0 → p.mgmt = false → p.mgmtGap = true → t.pins.mgmt = false ∧ t.pins.mgmtGap = false ∧ t.pins.mgmtMore = false
              ∧ t.pins.mgmtCount = b2n p.mgmtMore))

/-! ### Time -/

/-- R232, R233, R355, R414, R411: on an empty queue one fast-clock cycle passes. At a REFCLK edge out of ember reset the count advances, a COUNT_SET
whose count has come gives it its value, one that came too late does so in the next fc (R352), and each level line takes the level sampled at the edge before. A header-only message that is due leaves if
its channel has credit, and spends it; clamped outputs send nothing (R400). -/
def Obligations.ClockTick : Prop :=
  ∀ s : Slice, ∃ t, step ⟨s, []⟩ = .next ⟨t, []⟩ ∧ t.fc = s.fc + 1 ∧ t.freqHi = s.freqHi
    ∧ (let edge := s.edgeAt ≤ s.frac + 2
       let still := s.inputs = [] ∧ s.walks = [] ∧ s.capture = none ∧ s.save = none ∧ s.tdAt = none ∧ s.flag PC_CTRL PC_CTRL_EN = false
         ∧ s.regWait = [] ∧ s.patrols = [] ∧ s.tdReq = none
       let begun := if s.winFc = 256 then 0 else s.winFc
       let win := if s.start.sliceReset then begun else min 256 (begun + 1)
       let on := s.start.aonReset = false
       t.winFc = win ∧ t.damperDue = (!s.start.sliceReset && decide ((win + 3) % 16 = 0)) ∧ t.wroteRegs = [] ∧ t.anchors = []
       ∧ t.frac = (if edge then s.frac + 2 - s.edgeAt else s.frac + 2) ∧ t.refs = s.refs + b2n (decide edge)
       ∧ (¬edge ∨ ¬on → (on → ∀ x ∈ s.ring.timed, s.count.toNat < x.due.toNat) → t.count = s.count ∧ t.ring.timed = s.ring.timed)
       ∧ (∀ a v, ¬edge → on → s.ring.timed = [.countSet a v] → a.toNat ≤ s.count.toNat → t.count = v ∧ t.start.loaded = true ∧ t.ring.timed = [])
       ∧ (edge → on → s.ring.timed = [] → t.count = s.count + 1)
       ∧ (∀ a v, edge → on → s.ring.timed = [.countSet a v] → a.toNat ≤ (s.count + 1).toNat → t.count = v ∧ t.start.loaded = true ∧ t.ring.timed = [])
       ∧ (∀ a v, edge → on → s.ring.timed = [.countSet a v] → (s.count + 1).toNat < a.toNat → t.count = s.count + 1 ∧ t.ring.timed = s.ring.timed)
       ∧ (edge → on → s.clamped = false → t.clamped = false →
            t.pins.irqErr = s.pins.errSmp ∧ t.pins.irqSample = s.pins.sampleSmp ∧ t.pins.irqSync = s.pins.syncSmp)
       ∧ (¬edge → s.clamped = false → t.clamped = false → t.pins.irqErr = s.pins.irqErr ∧ t.pins.irqSample = s.pins.irqSample ∧ t.pins.irqSync = s.pins.irqSync)
       ∧ (still → s.clamped = true → t.sent = s.sent ∧ t.txCred = s.txCred)
       ∧ (∀ o, still → s.clamped = false → s.egress = [o] → o.payload = false → o.rel = none →
            (o.due ≤ s.fc → 0 < s.txHeld o.port o.msg.cls → t.egress = [] ∧ t.sent = s.sent ++ [⟨s.fc, o.port, o.msg⟩]
                ∧ t.txHeld o.port o.msg.cls = s.txHeld o.port o.msg.cls - 1)
            ∧ (s.fc < o.due ∨ s.txHeld o.port o.msg.cls = 0 → t.egress = [o] ∧ t.sent = s.sent ∧ t.txCred = s.txCred)))

/-! ### Codes -/

/-- R325, R326, R327: a codeword read as it was written is clean; one wrong bit of the 72 is corrected and named; two wrong bits are found to be
uncorrectable. R23, R66: a block's set and tag give the block back. -/
def Obligations.ErrorCodeAndTags : Prop :=
  (∀ d : Word, decodeM d 0 = .clean d)
  ∧ (∀ (d : Word) (b : Nat), b < 72 → decodeM d (1 <<< b) = .fixed d b)
  ∧ (∀ (d : Word) (b c : Nat), b < c → c < 72 → decodeM d (1 <<< b ||| 1 <<< c) = .bad)
  ∧ (∀ b : Nat, b < 2 ^ 39 → Sys2Proof.Machine.setOf b < 4096 ∧ blockFrom (Sys2Proof.Machine.setOf b) (b / 4096) = b)

/-- R87, R88, R89: every encoding that applies to a line is lossless, and as long as the rules say; the smallest is chosen. -/
def Obligations.CompressionIsLossless : Prop :=
  ∀ (en : EncEn) (l : Line),
    (∀ e, e ∈ encCandidates en l → decSlot e.enc e.slot = l ∧ e.size ≤ 64
      ∧ (e.enc = 0 → e.size = 0) ∧ (e.enc = 1 → e.size = 32) ∧ (e.enc = 3 → e.size = 25 ∨ e.size = 37 ∨ e.size = 41) ∧ e.enc < 4
      ∧ ∀ k, e.size ≤ k → k < 64 → e.slot.extractLsb' (8 * k) 8 = 0)
    ∧ (encCandidates en l = [] → chooseEnc en l = none)
    ∧ (∀ e, chooseEnc en l = some e → e ∈ encCandidates en l ∧ ∀ e', e' ∈ encCandidates en l → e.size ≤ e'.size)

/-! ### What every step keeps -/

/-- Every step keeps the registers, the home map, the arrays and the masks of their codewords in canonical form. -/
def Obligations.StepKeepsTables : Prop :=
  ∀ s t : State, s.slice.canonical → step s = .next t → t.slice.canonical
end

