-- ==== Sys2Proof/Laws/Fields.lean ====
section
/-! SUPPORT. Laws of bit fields (spec 00_scope.md R5): a field reads back what was written to it, and a write leaves every other field alone. -/

namespace Sys2Proof.Machine

theorem getLsbD_setF {n : Nat} (w : BitVec n) (f : Fld) (v i : Nat) :
    (setF w f v).getLsbD i = (decide (i < n) && if f.lo ≤ i ∧ i < f.lo + f.len then v.testBit (i - f.lo) else w.getLsbD i) := by
  unfold setF
  by_cases hi : i < n
  · by_cases h : f.lo ≤ i ∧ i < f.lo + f.len
    · have h1 : i - f.lo < f.len := by omega
      simp [hi, h.1, h.2, h1, not_lt.2 h.1]
      rw [← BitVec.getLsbD_eq_getElem, BitVec.getLsbD_ofNat]; simp [h1]
    · rcases not_and_or.1 h with h' | h'
      · have : i < f.lo := by omega
        simp [hi, h, this]
      · have h1 : ¬ i - f.lo < f.len := by omega
        rw [if_neg h]
        simp [hi, BitVec.getLsbD_of_ge _ _ (Nat.not_lt.1 h1)]
  · simp [hi]

theorem testBit_getF {n : Nat} (w : BitVec n) (f : Fld) (i : Nat) : (getF w f).testBit i = (decide (i < f.len) && w.getLsbD (f.lo + i)) := by
  unfold getF
  simp [BitVec.testBit_toNat]

theorem getF_lt {n : Nat} (w : BitVec n) (f : Fld) : getF w f < 2 ^ f.len := (w.extractLsb' f.lo f.len).isLt

@[simp] theorem getF_zero {n : Nat} (f : Fld) : getF (0 : BitVec n) f = 0 := by
  apply Nat.eq_of_testBit_eq; intro i; simp [testBit_getF]

/-- A field reads back what was written to it. -/
theorem getF_setF_self {n : Nat} (w : BitVec n) (f : Fld) (v : Nat) (h : f.lo + f.len ≤ n) : getF (setF w f v) f = v % 2 ^ f.len := by
  apply Nat.eq_of_testBit_eq; intro i
  rw [testBit_getF, getLsbD_setF, Nat.testBit_mod_two_pow]
  by_cases hi : i < f.len
  · have h1 : f.lo + i < n := by omega
    simp [hi, h1]
  · simp [hi]

theorem getF_setF_of_lt {n : Nat} (w : BitVec n) (f : Fld) (v : Nat) (h : f.lo + f.len ≤ n) (hv : v < 2 ^ f.len) : getF (setF w f v) f = v := by
  rw [getF_setF_self w f v h, Nat.mod_eq_of_lt hv]

/-- A write of a field leaves every field that does not meet it. -/
theorem getF_setF_of_disjoint {n : Nat} (w : BitVec n) (f g : Fld) (v : Nat) (h : f.lo + f.len ≤ g.lo ∨ g.lo + g.len ≤ f.lo) :
    getF (setF w f v) g = getF w g := by
  apply Nat.eq_of_testBit_eq; intro i
  rw [testBit_getF, testBit_getF, getLsbD_setF]
  by_cases hi : i < g.len
  · have h1 : ¬ (f.lo ≤ g.lo + i ∧ g.lo + i < f.lo + f.len) := by omega
    by_cases h2 : g.lo + i < n
    · simp [hi, h1, h2]
    · simp [h2, BitVec.getLsbD_of_ge w _ (Nat.not_lt.1 h2)]
  · simp [hi]

/-- Writing what a field holds changes nothing. -/
theorem setF_getF {n : Nat} (w : BitVec n) (f : Fld) : setF w f (getF w f) = w := by
  apply BitVec.eq_of_getLsbD_eq; intro i hi
  rw [getLsbD_setF, testBit_getF]
  by_cases h : f.lo ≤ i ∧ i < f.lo + f.len
  · have h1 : i - f.lo < f.len := by omega
    have h2 : f.lo + (i - f.lo) = i := by omega
    simp [hi, h, h1, h2]
  · simp [hi, h]

/-- The last write of a field stands. -/
theorem setF_setF {n : Nat} (w : BitVec n) (f : Fld) (u v : Nat) : setF (setF w f u) f v = setF w f v := by
  apply BitVec.eq_of_getLsbD_eq; intro i hi
  rw [getLsbD_setF, getLsbD_setF, getLsbD_setF]
  by_cases h : f.lo ≤ i ∧ i < f.lo + f.len
  · simp [hi, h]
  · simp [hi, h]

@[simp] theorem b2n_true : b2n true = 1 := rfl
@[simp] theorem b2n_false : b2n false = 0 := rfl
theorem b2n_le (b : Bool) : b2n b ≤ 1 := by cases b <;> decide
theorem b2n_lt_two (b : Bool) : b2n b < 2 := by cases b <;> decide

theorem satAdd_le (cap a b : Nat) : satAdd cap a b ≤ cap := Nat.min_le_left _ _

/-- The first number below a bound that meets a test meets it, and lies below the bound. -/
theorem firstBelow_some {n : Nat} {p : Nat → Bool} {i : Nat} (h : firstBelow n p = some i) : i < n ∧ p i = true := by
  unfold firstBelow at h
  exact ⟨List.mem_range.1 (List.mem_of_find?_eq_some h), List.find?_some h⟩

theorem firstBelow_none {n : Nat} {p : Nat → Bool} (h : firstBelow n p = none) (i : Nat) (hi : i < n) : p i = false := by
  unfold firstBelow at h
  have := List.find?_eq_none.1 h i (List.mem_range.2 hi)
  simpa using this

/-- No number below the first one meets the test. -/
theorem firstBelow_min {n : Nat} {p : Nat → Bool} {i : Nat} (h : firstBelow n p = some i) (j : Nat) (hj : j < i) : p j = false := by
  unfold firstBelow at h
  induction n with
  | zero => simp at h
  | succ n ih =>
    rw [List.range_succ, List.find?_append] at h
    cases hf : (List.range n).find? p with
    | some k =>
      rw [hf] at h
      exact ih (by simpa [hf] using h)
    | none =>
      rw [hf] at h
      simp only [Option.none_or] at h
      have hn : i = n := by
        have := List.mem_of_find?_eq_some h
        simpa using this
      have := List.find?_eq_none.1 hf j (List.mem_range.2 (by omega))
      simpa using this

end Sys2Proof.Machine
end

