-- ==== Sys2Proof/Laws/Tables.lean ====
section
/-! SUPPORT. Laws of the sparse tables (spec 00_scope.md R5): a read after a write, and the canonical form that every operation keeps. -/

namespace Sys2Proof.Machine

variable {α : Type}

/-! ### Reads -/

@[simp] theorem Tbl.at_nil (d : α) (k : Nat) : Tbl.at d [] k = d := rfl

theorem Tbl.at_cons (d : α) (j : Nat) (v : α) (t : Tbl α) (k : Nat) : Tbl.at d ((j, v) :: t) k = if j = k then v else Tbl.at d t k := rfl

/-- A key that no entry has reads as the default. -/
theorem Tbl.at_of_not_mem (d : α) (t : Tbl α) (k : Nat) (h : ∀ e ∈ t, e.1 ≠ k) : Tbl.at d t k = d := by
  induction t with
  | nil => rfl
  | cons e t ih =>
    obtain ⟨j, v⟩ := e
    have hj : j ≠ k := h (j, v) (by simp)
    simp only [Tbl.at_cons, if_neg hj]
    exact ih (fun e he => h e (by simp [he]))

@[simp] theorem Tbl.at_ins_self (d : α) (t : Tbl α) (k : Nat) (v : α) (h : ∀ e ∈ t, e.1 ≠ k) : Tbl.at d (Tbl.ins t k v) k = v := by
  induction t with
  | nil => simp [Tbl.ins, Tbl.at_cons]
  | cons e t ih =>
    obtain ⟨j, w⟩ := e
    have hj : j ≠ k := h (j, w) (by simp)
    simp only [Tbl.ins]
    split
    · simp [Tbl.at_cons]
    · simp only [Tbl.at_cons, if_neg hj]
      exact ih (fun e he => h e (by simp [he]))

theorem Tbl.at_ins_of_ne (d : α) (t : Tbl α) (k : Nat) (v : α) (i : Nat) (h : i ≠ k) : Tbl.at d (Tbl.ins t k v) i = Tbl.at d t i := by
  induction t with
  | nil => simp [Tbl.ins, Tbl.at_cons, Ne.symm h]
  | cons e t ih =>
    obtain ⟨j, w⟩ := e
    simp only [Tbl.ins]
    split
    · simp [Tbl.at_cons, Ne.symm h]
    · simp only [Tbl.at_cons, ih]

/-- A dropped key reads as the default, any other key as before. -/
theorem Tbl.at_drop (d : α) (t : Tbl α) (p : Nat → Bool) (k : Nat) : Tbl.at d (Tbl.drop t p) k = if p k then d else Tbl.at d t k := by
  induction t with
  | nil => simp [Tbl.drop]
  | cons e t ih =>
    obtain ⟨j, v⟩ := e
    simp only [Tbl.drop, List.filter_cons] at ih ⊢
    by_cases hp : p j = true
    · simp only [hp, Bool.not_true, Bool.false_eq_true, if_false, Tbl.at_cons]
      rw [ih]
      by_cases hjk : j = k
      · subst hjk; simp [hp]
      · simp [hjk]
    · have hp' : p j = false := by simpa using hp
      simp only [hp', Bool.not_false, if_true, Tbl.at_cons]
      rw [ih]
      by_cases hjk : j = k
      · subst hjk; simp [hp']
      · simp [hjk]

theorem Tbl.mem_drop (t : Tbl α) (p : Nat → Bool) (e : Nat × α) : e ∈ Tbl.drop t p ↔ e ∈ t ∧ p e.1 = false := by
  simp [Tbl.drop, List.mem_filter]

/-- A read after a write of the same key gives what was written. -/
@[simp] theorem Tbl.at_put_self [DecidableEq α] (d : α) (t : Tbl α) (k : Nat) (v : α) : Tbl.at d (Tbl.put d t k v) k = v := by
  have hne : ∀ e ∈ Tbl.drop t (fun j => decide (j = k)), e.1 ≠ k := by
    intro e he; simpa using (Tbl.mem_drop t _ e).1 he |>.2
  unfold Tbl.put
  split
  · next h => rw [Tbl.at_of_not_mem d _ k hne, h]
  · exact Tbl.at_ins_self d _ k v hne

/-- A read of any other key gives what it gave. -/
theorem Tbl.at_put_of_ne [DecidableEq α] (d : α) (t : Tbl α) (k : Nat) (v : α) (i : Nat) (h : i ≠ k) : Tbl.at d (Tbl.put d t k v) i = Tbl.at d t i := by
  unfold Tbl.put
  split
  · rw [Tbl.at_drop]; simp [h]
  · rw [Tbl.at_ins_of_ne d _ k v i h, Tbl.at_drop]; simp [h]

theorem Tbl.at_put [DecidableEq α] (d : α) (t : Tbl α) (k : Nat) (v : α) (i : Nat) :
    Tbl.at d (Tbl.put d t k v) i = if i = k then v else Tbl.at d t i := by
  split
  · next h => subst h; exact Tbl.at_put_self d t i v
  · next h => exact Tbl.at_put_of_ne d t k v i h

/-! ### The canonical form -/

/-- The canonical form in terms of lists: no value is the default, and keys rise. -/
theorem Tbl.wf_iff [DecidableEq α] (d : α) (t : Tbl α) : Tbl.wf d t = true ↔ (∀ e ∈ t, e.2 ≠ d) ∧ t.Pairwise (fun x y => x.1 < y.1) := by
  induction t with
  | nil => simp [Tbl.wf]
  | cons e t ih =>
    obtain ⟨j, v⟩ := e
    cases t with
    | nil => simp [Tbl.wf]
    | cons e' t =>
      obtain ⟨k, w⟩ := e'
      simp only [Tbl.wf, Bool.and_eq_true, decide_eq_true_eq, ih]
      constructor
      · rintro ⟨⟨hv, hjk⟩, hd, hp⟩
        refine ⟨?_, ?_⟩
        · intro e he
          rcases List.mem_cons.1 he with rfl | he
          · exact hv
          · exact hd e he
        · refine List.pairwise_cons.2 ⟨?_, hp⟩
          intro e he
          rcases List.mem_cons.1 he with rfl | he
          · exact hjk
          · exact lt_trans hjk ((List.pairwise_cons.1 hp).1 e he)
      · rintro ⟨hd, hp⟩
        have hp' := List.pairwise_cons.1 hp
        exact ⟨⟨hd (j, v) (by simp), hp'.1 (k, w) (by simp)⟩, fun e he => hd e (by simp [he]), hp'.2⟩

theorem Tbl.wf_nil [DecidableEq α] (d : α) : Tbl.wf d ([] : Tbl α) = true := rfl

/-- Any part of a canonical table that a filter leaves is canonical. -/
theorem Tbl.wf_filter [DecidableEq α] (d : α) (t : Tbl α) (p : Nat × α → Bool) (h : Tbl.wf d t = true) : Tbl.wf d (t.filter p) = true := by
  rw [Tbl.wf_iff] at h ⊢
  exact ⟨fun e he => h.1 e (List.mem_filter.1 he).1, h.2.sublist List.filter_sublist⟩

theorem Tbl.wf_drop [DecidableEq α] (d : α) (t : Tbl α) (p : Nat → Bool) (h : Tbl.wf d t = true) : Tbl.wf d (Tbl.drop t p) = true :=
  Tbl.wf_filter d t _ h

theorem Tbl.mem_ins (t : Tbl α) (k : Nat) (v : α) (e : Nat × α) : e ∈ Tbl.ins t k v ↔ e = (k, v) ∨ e ∈ t := by
  induction t with
  | nil => simp [Tbl.ins]
  | cons x t ih =>
    obtain ⟨j, w⟩ := x
    simp only [Tbl.ins]
    split
    · simp
    · simp only [List.mem_cons, ih]; tauto

theorem Tbl.wf_ins [DecidableEq α] (d : α) (t : Tbl α) (k : Nat) (v : α) (hv : v ≠ d) (hk : ∀ e ∈ t, e.1 ≠ k) (h : Tbl.wf d t = true) :
    Tbl.wf d (Tbl.ins t k v) = true := by
  rw [Tbl.wf_iff] at h ⊢
  obtain ⟨hd, hp⟩ := h
  refine ⟨?_, ?_⟩
  · intro e he
    rcases (Tbl.mem_ins t k v e).1 he with rfl | he
    · exact hv
    · exact hd e he
  · clear hd
    induction t with
    | nil => simp [Tbl.ins]
    | cons x t ih =>
      obtain ⟨j, w⟩ := x
      have hjk : j ≠ k := hk (j, w) (by simp)
      have hp' := List.pairwise_cons.1 hp
      simp only [Tbl.ins]
      split
      · next hlt =>
        refine List.pairwise_cons.2 ⟨?_, hp⟩
        intro e he
        rcases List.mem_cons.1 he with rfl | he
        · exact hlt
        · exact lt_trans hlt (hp'.1 e he)
      · next hlt =>
        refine List.pairwise_cons.2 ⟨?_, ih (fun e he => hk e (by simp [he])) hp'.2⟩
        intro e he
        rcases (Tbl.mem_ins t k v e).1 he with rfl | he
        · exact lt_of_le_of_ne (not_lt.1 hlt) hjk
        · exact hp'.1 e he

/-- A write keeps the canonical form. -/
theorem Tbl.wf_put [DecidableEq α] (d : α) (t : Tbl α) (k : Nat) (v : α) (h : Tbl.wf d t = true) : Tbl.wf d (Tbl.put d t k v) = true := by
  have hd := Tbl.wf_drop d t (fun j => decide (j = k)) h
  unfold Tbl.put
  split
  · exact hd
  · next hv =>
    refine Tbl.wf_ins d _ k v hv ?_ hd
    intro e he; simpa using ((Tbl.mem_drop t _ e).1 he).2

/-- A fold of writes keeps the canonical form. -/
theorem Tbl.wf_foldl {β : Type} [DecidableEq α] (d : α) (f : Tbl α → β → Tbl α) (hf : ∀ t b, Tbl.wf d t = true → Tbl.wf d (f t b) = true)
    (l : List β) (t : Tbl α) (h : Tbl.wf d t = true) : Tbl.wf d (l.foldl f t) = true := by
  induction l generalizing t with
  | nil => exact h
  | cons b l ih => exact ih (f t b) (hf t b h)

/-- Canonical tables that read alike are equal. -/
theorem Tbl.ext_of_wf [DecidableEq α] (d : α) (t u : Tbl α) (ht : Tbl.wf d t = true) (hu : Tbl.wf d u = true)
    (h : ∀ k, Tbl.at d t k = Tbl.at d u k) : t = u := by
  have mem : ∀ (x : Tbl α), Tbl.wf d x = true → ∀ k v, (k, v) ∈ x → Tbl.at d x k = v := by
    intro x hx k v hm
    induction x with
    | nil => simp at hm
    | cons e x ih =>
      obtain ⟨j, w⟩ := e
      obtain ⟨hd, hp⟩ := (Tbl.wf_iff d _).1 hx
      have hp' := List.pairwise_cons.1 hp
      rcases List.mem_cons.1 hm with he | hm
      · cases he; simp [Tbl.at_cons]
      · have hlt := hp'.1 (k, v) hm
        have hjk : j ≠ k := by simp only at hlt; omega
        rw [Tbl.at_cons, if_neg hjk]
        exact ih ((Tbl.wf_iff d _).2 ⟨fun e he => hd e (by simp [he]), hp'.2⟩) hm
  have sub : ∀ (x y : Tbl α), Tbl.wf d x = true → (∀ k, Tbl.at d x k = Tbl.at d y k) → ∀ e ∈ x, e ∈ y := by
    intro x y hx hxy e he
    obtain ⟨k, v⟩ := e
    have hv : v ≠ d := ((Tbl.wf_iff d x).1 hx).1 (k, v) he
    have hk := mem x hx k v he
    rw [hxy k] at hk
    by_contra hc
    have hno : ∃ e ∈ y, e.1 = k := by
      by_contra hn
      push Not at hn
      exact hv (by rw [← hk, Tbl.at_of_not_mem d y k hn])
    obtain ⟨⟨k', v'⟩, hy', rfl⟩ := hno
    have : ∀ (z : Tbl α), (∃ e ∈ z, e.1 = k') → (k', Tbl.at d z k') ∈ z := by
      intro z
      induction z with
      | nil => simp
      | cons f z ih =>
        obtain ⟨j, w⟩ := f
        rintro ⟨e, he, hek⟩
        by_cases hj : j = k'
        · subst hj; simp [Tbl.at_cons]
        · rcases List.mem_cons.1 he with rfl | he
          · exact absurd hek hj
          · rw [Tbl.at_cons, if_neg hj]
            exact List.mem_cons_of_mem _ (ih ⟨e, he, hek⟩)
    exact hc (by have := this y ⟨_, hy', rfl⟩; rwa [hk] at this)
  have pt := ((Tbl.wf_iff d t).1 ht).2
  have pu := ((Tbl.wf_iff d u).1 hu).2
  have hnd : ∀ (x : Tbl α), x.Pairwise (fun a b => a.1 < b.1) → x.Nodup := fun x hx => hx.imp (fun {a b} hab hc => by rw [hc] at hab; omega)
  have hperm : t.Perm u := (List.perm_ext_iff_of_nodup (hnd t pt) (hnd u pu)).2
    (fun e => ⟨sub t u ht h e, sub u t hu (fun k => (h k).symm) e⟩)
  exact hperm.eq_of_pairwise (fun a b _ _ hab hba => by omega) pt pu

end Sys2Proof.Machine
end

