-- ==== Sys2Proof/Laws/State.lean ====
section
/-! SUPPORT. What each update of the slice leaves alone: one lemma for each field, true by unfolding, so that no later proof unfolds a record
update; and what the update does to the field it writes. -/

namespace Sys2Proof.Machine

/-! ### setReg -/

@[simp] theorem Slice.setReg_fc (s : Slice) (a : Nat) (v : Word) : (s.setReg a v).fc = s.fc := rfl
@[simp] theorem Slice.setReg_ansPort (s : Slice) (a : Nat) (v : Word) : (s.setReg a v).ansPort = s.ansPort := rfl
@[simp] theorem Slice.setReg_refs (s : Slice) (a : Nat) (v : Word) : (s.setReg a v).refs = s.refs := rfl
@[simp] theorem Slice.setReg_frac (s : Slice) (a : Nat) (v : Word) : (s.setReg a v).frac = s.frac := rfl
@[simp] theorem Slice.setReg_count (s : Slice) (a : Nat) (v : Word) : (s.setReg a v).count = s.count := rfl
@[simp] theorem Slice.setReg_freqHi (s : Slice) (a : Nat) (v : Word) : (s.setReg a v).freqHi = s.freqHi := rfl
@[simp] theorem Slice.setReg_fresh (s : Slice) (a : Nat) (v : Word) : (s.setReg a v).fresh = s.fresh := rfl
@[simp] theorem Slice.setReg_now (s : Slice) (a : Nat) (v : Word) : (s.setReg a v).now = s.now := rfl
@[simp] theorem Slice.setReg_wroteRegs (s : Slice) (a : Nat) (v : Word) : (s.setReg a v).wroteRegs = s.wroteRegs := rfl
@[simp] theorem Slice.setReg_pcWas (s : Slice) (a : Nat) (v : Word) : (s.setReg a v).pcWas = s.pcWas := rfl
@[simp] theorem Slice.setReg_homeMap (s : Slice) (a : Nat) (v : Word) : (s.setReg a v).homeMap = s.homeMap := rfl
@[simp] theorem Slice.setReg_hmCrc (s : Slice) (a : Nat) (v : Word) : (s.setReg a v).hmCrc = s.hmCrc := rfl
@[simp] theorem Slice.setReg_frames (s : Slice) (a : Nat) (v : Word) : (s.setReg a v).frames = s.frames := rfl
@[simp] theorem Slice.setReg_repl (s : Slice) (a : Nat) (v : Word) : (s.setReg a v).repl = s.repl := rfl
@[simp] theorem Slice.setReg_victims (s : Slice) (a : Nat) (v : Word) : (s.setReg a v).victims = s.victims := rfl
@[simp] theorem Slice.setReg_ledger (s : Slice) (a : Nat) (v : Word) : (s.setReg a v).ledger = s.ledger := rfl
@[simp] theorem Slice.setReg_flips (s : Slice) (a : Nat) (v : Word) : (s.setReg a v).flips = s.flips := rfl
@[simp] theorem Slice.setReg_injAt (s : Slice) (a : Nat) (v : Word) : (s.setReg a v).injAt = s.injAt := rfl
@[simp] theorem Slice.setReg_banks (s : Slice) (a : Nat) (v : Word) : (s.setReg a v).banks = s.banks := rfl
@[simp] theorem Slice.setReg_regPtr (s : Slice) (a : Nat) (v : Word) : (s.setReg a v).regPtr = s.regPtr := rfl
@[simp] theorem Slice.setReg_regFree (s : Slice) (a : Nat) (v : Word) : (s.setReg a v).regFree = s.regFree := rfl
@[simp] theorem Slice.setReg_tdAt (s : Slice) (a : Nat) (v : Word) : (s.setReg a v).tdAt = s.tdAt := rfl
@[simp] theorem Slice.setReg_tdReq (s : Slice) (a : Nat) (v : Word) : (s.setReg a v).tdReq = s.tdReq := rfl
@[simp] theorem Slice.setReg_fills (s : Slice) (a : Nat) (v : Word) : (s.setReg a v).fills = s.fills := rfl
@[simp] theorem Slice.setReg_txns (s : Slice) (a : Nat) (v : Word) : (s.setReg a v).txns = s.txns := rfl
@[simp] theorem Slice.setReg_txnWait (s : Slice) (a : Nat) (v : Word) : (s.setReg a v).txnWait = s.txnWait := rfl
@[simp] theorem Slice.setReg_inputs (s : Slice) (a : Nat) (v : Word) : (s.setReg a v).inputs = s.inputs := rfl
@[simp] theorem Slice.setReg_ahead (s : Slice) (a : Nat) (v : Word) : (s.setReg a v).ahead = s.ahead := rfl
@[simp] theorem Slice.setReg_regWait (s : Slice) (a : Nat) (v : Word) : (s.setReg a v).regWait = s.regWait := rfl
@[simp] theorem Slice.setReg_rxCred (s : Slice) (a : Nat) (v : Word) : (s.setReg a v).rxCred = s.rxCred := rfl
@[simp] theorem Slice.setReg_txCred (s : Slice) (a : Nat) (v : Word) : (s.setReg a v).txCred = s.txCred := rfl
@[simp] theorem Slice.setReg_egress (s : Slice) (a : Nat) (v : Word) : (s.setReg a v).egress = s.egress := rfl
@[simp] theorem Slice.setReg_sent (s : Slice) (a : Nat) (v : Word) : (s.setReg a v).sent = s.sent := rfl
@[simp] theorem Slice.setReg_eports (s : Slice) (a : Nat) (v : Word) : (s.setReg a v).eports = s.eports := rfl
@[simp] theorem Slice.setReg_fillRegs (s : Slice) (a : Nat) (v : Word) : (s.setReg a v).fillRegs = s.fillRegs := rfl
@[simp] theorem Slice.setReg_winFc (s : Slice) (a : Nat) (v : Word) : (s.setReg a v).winFc = s.winFc := rfl
@[simp] theorem Slice.setReg_damperDue (s : Slice) (a : Nat) (v : Word) : (s.setReg a v).damperDue = s.damperDue := rfl
@[simp] theorem Slice.setReg_pinOps (s : Slice) (a : Nat) (v : Word) : (s.setReg a v).pinOps = s.pinOps := rfl
@[simp] theorem Slice.setReg_fan (s : Slice) (a : Nat) (v : Word) : (s.setReg a v).fan = s.fan := rfl
@[simp] theorem Slice.setReg_foCred (s : Slice) (a : Nat) (v : Word) : (s.setReg a v).foCred = s.foCred := rfl
@[simp] theorem Slice.setReg_foSoon (s : Slice) (a : Nat) (v : Word) : (s.setReg a v).foSoon = s.foSoon := rfl
@[simp] theorem Slice.setReg_foPort (s : Slice) (a : Nat) (v : Word) : (s.setReg a v).foPort = s.foPort := rfl
@[simp] theorem Slice.setReg_anchors (s : Slice) (a : Nat) (v : Word) : (s.setReg a v).anchors = s.anchors := rfl
@[simp] theorem Slice.setReg_waiters (s : Slice) (a : Nat) (v : Word) : (s.setReg a v).waiters = s.waiters := rfl
@[simp] theorem Slice.setReg_drains (s : Slice) (a : Nat) (v : Word) : (s.setReg a v).drains = s.drains := rfl
@[simp] theorem Slice.setReg_releases (s : Slice) (a : Nat) (v : Word) : (s.setReg a v).releases = s.releases := rfl
@[simp] theorem Slice.setReg_walks (s : Slice) (a : Nat) (v : Word) : (s.setReg a v).walks = s.walks := rfl
@[simp] theorem Slice.setReg_relFlush (s : Slice) (a : Nat) (v : Word) : (s.setReg a v).relFlush = s.relFlush := rfl
@[simp] theorem Slice.setReg_relWait (s : Slice) (a : Nat) (v : Word) : (s.setReg a v).relWait = s.relWait := rfl
@[simp] theorem Slice.setReg_capture (s : Slice) (a : Nat) (v : Word) : (s.setReg a v).capture = s.capture := rfl
@[simp] theorem Slice.setReg_timeBase (s : Slice) (a : Nat) (v : Word) : (s.setReg a v).timeBase = s.timeBase := rfl
@[simp] theorem Slice.setReg_outLat (s : Slice) (a : Nat) (v : Word) : (s.setReg a v).outLat = s.outLat := rfl
@[simp] theorem Slice.setReg_relLast (s : Slice) (a : Nat) (v : Word) : (s.setReg a v).relLast = s.relLast := rfl
@[simp] theorem Slice.setReg_hashFree (s : Slice) (a : Nat) (v : Word) : (s.setReg a v).hashFree = s.hashFree := rfl
@[simp] theorem Slice.setReg_harvests (s : Slice) (a : Nat) (v : Word) : (s.setReg a v).harvests = s.harvests := rfl
@[simp] theorem Slice.setReg_drainPtr (s : Slice) (a : Nat) (v : Word) : (s.setReg a v).drainPtr = s.drainPtr := rfl
@[simp] theorem Slice.setReg_shelfSeq (s : Slice) (a : Nat) (v : Word) : (s.setReg a v).shelfSeq = s.shelfSeq := rfl
@[simp] theorem Slice.setReg_grantsTotal (s : Slice) (a : Nat) (v : Word) : (s.setReg a v).grantsTotal = s.grantsTotal := rfl
@[simp] theorem Slice.setReg_errLog (s : Slice) (a : Nat) (v : Word) : (s.setReg a v).errLog = s.errLog := rfl
@[simp] theorem Slice.setReg_repairs0 (s : Slice) (a : Nat) (v : Word) : (s.setReg a v).repairs0 = s.repairs0 := rfl
@[simp] theorem Slice.setReg_repairs1 (s : Slice) (a : Nat) (v : Word) : (s.setReg a v).repairs1 = s.repairs1 := rfl
@[simp] theorem Slice.setReg_quarantine (s : Slice) (a : Nat) (v : Word) : (s.setReg a v).quarantine = s.quarantine := rfl
@[simp] theorem Slice.setReg_rtLate (s : Slice) (a : Nat) (v : Word) : (s.setReg a v).rtLate = s.rtLate := rfl
@[simp] theorem Slice.setReg_lostKeys (s : Slice) (a : Nat) (v : Word) : (s.setReg a v).lostKeys = s.lostKeys := rfl
@[simp] theorem Slice.setReg_patrols (s : Slice) (a : Nat) (v : Word) : (s.setReg a v).patrols = s.patrols := rfl
@[simp] theorem Slice.setReg_defers (s : Slice) (a : Nat) (v : Word) : (s.setReg a v).defers = s.defers := rfl
@[simp] theorem Slice.setReg_sparing (s : Slice) (a : Nat) (v : Word) : (s.setReg a v).sparing = s.sparing := rfl
@[simp] theorem Slice.setReg_save (s : Slice) (a : Nat) (v : Word) : (s.setReg a v).save = s.save := rfl
@[simp] theorem Slice.setReg_gov (s : Slice) (a : Nat) (v : Word) : (s.setReg a v).gov = s.gov := rfl
@[simp] theorem Slice.setReg_age (s : Slice) (a : Nat) (v : Word) : (s.setReg a v).age = s.age := rfl
@[simp] theorem Slice.setReg_half0 (s : Slice) (a : Nat) (v : Word) : (s.setReg a v).half0 = s.half0 := rfl
@[simp] theorem Slice.setReg_half1 (s : Slice) (a : Nat) (v : Word) : (s.setReg a v).half1 = s.half1 := rfl
@[simp] theorem Slice.setReg_ring (s : Slice) (a : Nat) (v : Word) : (s.setReg a v).ring = s.ring := rfl
@[simp] theorem Slice.setReg_board (s : Slice) (a : Nat) (v : Word) : (s.setReg a v).board = s.board := rfl
@[simp] theorem Slice.setReg_start (s : Slice) (a : Nat) (v : Word) : (s.setReg a v).start = s.start := rfl
@[simp] theorem Slice.setReg_tap (s : Slice) (a : Nat) (v : Word) : (s.setReg a v).tap = s.tap := rfl
@[simp] theorem Slice.setReg_pins (s : Slice) (a : Nat) (v : Word) : (s.setReg a v).pins = s.pins := rfl
@[simp] theorem Slice.setReg_at_bank (s : Slice) (a : Nat) (v : Word) (i : Nat) : (s.setReg a v).bank i = s.bank i := rfl
@[simp] theorem Slice.setReg_at_rxHeld (s : Slice) (a : Nat) (v : Word) (j : Port) (e : Cls) : (s.setReg a v).rxHeld j e = s.rxHeld j e := rfl
@[simp] theorem Slice.setReg_at_half (s : Slice) (a : Nat) (v : Word) (h : Nat) : (s.setReg a v).half h = s.half h := rfl

/-! ### setFld -/

@[simp] theorem Slice.setFld_fc (s : Slice) (a : Nat) (f : Fld) (v : Nat) : (s.setFld a f v).fc = s.fc := rfl
@[simp] theorem Slice.setFld_ansPort (s : Slice) (a : Nat) (f : Fld) (v : Nat) : (s.setFld a f v).ansPort = s.ansPort := rfl
@[simp] theorem Slice.setFld_refs (s : Slice) (a : Nat) (f : Fld) (v : Nat) : (s.setFld a f v).refs = s.refs := rfl
@[simp] theorem Slice.setFld_frac (s : Slice) (a : Nat) (f : Fld) (v : Nat) : (s.setFld a f v).frac = s.frac := rfl
@[simp] theorem Slice.setFld_count (s : Slice) (a : Nat) (f : Fld) (v : Nat) : (s.setFld a f v).count = s.count := rfl
@[simp] theorem Slice.setFld_freqHi (s : Slice) (a : Nat) (f : Fld) (v : Nat) : (s.setFld a f v).freqHi = s.freqHi := rfl
@[simp] theorem Slice.setFld_fresh (s : Slice) (a : Nat) (f : Fld) (v : Nat) : (s.setFld a f v).fresh = s.fresh := rfl
@[simp] theorem Slice.setFld_now (s : Slice) (a : Nat) (f : Fld) (v : Nat) : (s.setFld a f v).now = s.now := rfl
@[simp] theorem Slice.setFld_wroteRegs (s : Slice) (a : Nat) (f : Fld) (v : Nat) : (s.setFld a f v).wroteRegs = s.wroteRegs := rfl
@[simp] theorem Slice.setFld_pcWas (s : Slice) (a : Nat) (f : Fld) (v : Nat) : (s.setFld a f v).pcWas = s.pcWas := rfl
@[simp] theorem Slice.setFld_homeMap (s : Slice) (a : Nat) (f : Fld) (v : Nat) : (s.setFld a f v).homeMap = s.homeMap := rfl
@[simp] theorem Slice.setFld_hmCrc (s : Slice) (a : Nat) (f : Fld) (v : Nat) : (s.setFld a f v).hmCrc = s.hmCrc := rfl
@[simp] theorem Slice.setFld_frames (s : Slice) (a : Nat) (f : Fld) (v : Nat) : (s.setFld a f v).frames = s.frames := rfl
@[simp] theorem Slice.setFld_repl (s : Slice) (a : Nat) (f : Fld) (v : Nat) : (s.setFld a f v).repl = s.repl := rfl
@[simp] theorem Slice.setFld_victims (s : Slice) (a : Nat) (f : Fld) (v : Nat) : (s.setFld a f v).victims = s.victims := rfl
@[simp] theorem Slice.setFld_ledger (s : Slice) (a : Nat) (f : Fld) (v : Nat) : (s.setFld a f v).ledger = s.ledger := rfl
@[simp] theorem Slice.setFld_flips (s : Slice) (a : Nat) (f : Fld) (v : Nat) : (s.setFld a f v).flips = s.flips := rfl
@[simp] theorem Slice.setFld_injAt (s : Slice) (a : Nat) (f : Fld) (v : Nat) : (s.setFld a f v).injAt = s.injAt := rfl
@[simp] theorem Slice.setFld_banks (s : Slice) (a : Nat) (f : Fld) (v : Nat) : (s.setFld a f v).banks = s.banks := rfl
@[simp] theorem Slice.setFld_regPtr (s : Slice) (a : Nat) (f : Fld) (v : Nat) : (s.setFld a f v).regPtr = s.regPtr := rfl
@[simp] theorem Slice.setFld_regFree (s : Slice) (a : Nat) (f : Fld) (v : Nat) : (s.setFld a f v).regFree = s.regFree := rfl
@[simp] theorem Slice.setFld_tdAt (s : Slice) (a : Nat) (f : Fld) (v : Nat) : (s.setFld a f v).tdAt = s.tdAt := rfl
@[simp] theorem Slice.setFld_tdReq (s : Slice) (a : Nat) (f : Fld) (v : Nat) : (s.setFld a f v).tdReq = s.tdReq := rfl
@[simp] theorem Slice.setFld_fills (s : Slice) (a : Nat) (f : Fld) (v : Nat) : (s.setFld a f v).fills = s.fills := rfl
@[simp] theorem Slice.setFld_txns (s : Slice) (a : Nat) (f : Fld) (v : Nat) : (s.setFld a f v).txns = s.txns := rfl
@[simp] theorem Slice.setFld_txnWait (s : Slice) (a : Nat) (f : Fld) (v : Nat) : (s.setFld a f v).txnWait = s.txnWait := rfl
@[simp] theorem Slice.setFld_inputs (s : Slice) (a : Nat) (f : Fld) (v : Nat) : (s.setFld a f v).inputs = s.inputs := rfl
@[simp] theorem Slice.setFld_ahead (s : Slice) (a : Nat) (f : Fld) (v : Nat) : (s.setFld a f v).ahead = s.ahead := rfl
@[simp] theorem Slice.setFld_regWait (s : Slice) (a : Nat) (f : Fld) (v : Nat) : (s.setFld a f v).regWait = s.regWait := rfl
@[simp] theorem Slice.setFld_rxCred (s : Slice) (a : Nat) (f : Fld) (v : Nat) : (s.setFld a f v).rxCred = s.rxCred := rfl
@[simp] theorem Slice.setFld_txCred (s : Slice) (a : Nat) (f : Fld) (v : Nat) : (s.setFld a f v).txCred = s.txCred := rfl
@[simp] theorem Slice.setFld_egress (s : Slice) (a : Nat) (f : Fld) (v : Nat) : (s.setFld a f v).egress = s.egress := rfl
@[simp] theorem Slice.setFld_sent (s : Slice) (a : Nat) (f : Fld) (v : Nat) : (s.setFld a f v).sent = s.sent := rfl
@[simp] theorem Slice.setFld_eports (s : Slice) (a : Nat) (f : Fld) (v : Nat) : (s.setFld a f v).eports = s.eports := rfl
@[simp] theorem Slice.setFld_fillRegs (s : Slice) (a : Nat) (f : Fld) (v : Nat) : (s.setFld a f v).fillRegs = s.fillRegs := rfl
@[simp] theorem Slice.setFld_winFc (s : Slice) (a : Nat) (f : Fld) (v : Nat) : (s.setFld a f v).winFc = s.winFc := rfl
@[simp] theorem Slice.setFld_damperDue (s : Slice) (a : Nat) (f : Fld) (v : Nat) : (s.setFld a f v).damperDue = s.damperDue := rfl
@[simp] theorem Slice.setFld_pinOps (s : Slice) (a : Nat) (f : Fld) (v : Nat) : (s.setFld a f v).pinOps = s.pinOps := rfl
@[simp] theorem Slice.setFld_fan (s : Slice) (a : Nat) (f : Fld) (v : Nat) : (s.setFld a f v).fan = s.fan := rfl
@[simp] theorem Slice.setFld_foCred (s : Slice) (a : Nat) (f : Fld) (v : Nat) : (s.setFld a f v).foCred = s.foCred := rfl
@[simp] theorem Slice.setFld_foSoon (s : Slice) (a : Nat) (f : Fld) (v : Nat) : (s.setFld a f v).foSoon = s.foSoon := rfl
@[simp] theorem Slice.setFld_foPort (s : Slice) (a : Nat) (f : Fld) (v : Nat) : (s.setFld a f v).foPort = s.foPort := rfl
@[simp] theorem Slice.setFld_anchors (s : Slice) (a : Nat) (f : Fld) (v : Nat) : (s.setFld a f v).anchors = s.anchors := rfl
@[simp] theorem Slice.setFld_waiters (s : Slice) (a : Nat) (f : Fld) (v : Nat) : (s.setFld a f v).waiters = s.waiters := rfl
@[simp] theorem Slice.setFld_drains (s : Slice) (a : Nat) (f : Fld) (v : Nat) : (s.setFld a f v).drains = s.drains := rfl
@[simp] theorem Slice.setFld_releases (s : Slice) (a : Nat) (f : Fld) (v : Nat) : (s.setFld a f v).releases = s.releases := rfl
@[simp] theorem Slice.setFld_walks (s : Slice) (a : Nat) (f : Fld) (v : Nat) : (s.setFld a f v).walks = s.walks := rfl
@[simp] theorem Slice.setFld_relFlush (s : Slice) (a : Nat) (f : Fld) (v : Nat) : (s.setFld a f v).relFlush = s.relFlush := rfl
@[simp] theorem Slice.setFld_relWait (s : Slice) (a : Nat) (f : Fld) (v : Nat) : (s.setFld a f v).relWait = s.relWait := rfl
@[simp] theorem Slice.setFld_capture (s : Slice) (a : Nat) (f : Fld) (v : Nat) : (s.setFld a f v).capture = s.capture := rfl
@[simp] theorem Slice.setFld_timeBase (s : Slice) (a : Nat) (f : Fld) (v : Nat) : (s.setFld a f v).timeBase = s.timeBase := rfl
@[simp] theorem Slice.setFld_outLat (s : Slice) (a : Nat) (f : Fld) (v : Nat) : (s.setFld a f v).outLat = s.outLat := rfl
@[simp] theorem Slice.setFld_relLast (s : Slice) (a : Nat) (f : Fld) (v : Nat) : (s.setFld a f v).relLast = s.relLast := rfl
@[simp] theorem Slice.setFld_hashFree (s : Slice) (a : Nat) (f : Fld) (v : Nat) : (s.setFld a f v).hashFree = s.hashFree := rfl
@[simp] theorem Slice.setFld_harvests (s : Slice) (a : Nat) (f : Fld) (v : Nat) : (s.setFld a f v).harvests = s.harvests := rfl
@[simp] theorem Slice.setFld_drainPtr (s : Slice) (a : Nat) (f : Fld) (v : Nat) : (s.setFld a f v).drainPtr = s.drainPtr := rfl
@[simp] theorem Slice.setFld_shelfSeq (s : Slice) (a : Nat) (f : Fld) (v : Nat) : (s.setFld a f v).shelfSeq = s.shelfSeq := rfl
@[simp] theorem Slice.setFld_grantsTotal (s : Slice) (a : Nat) (f : Fld) (v : Nat) : (s.setFld a f v).grantsTotal = s.grantsTotal := rfl
@[simp] theorem Slice.setFld_errLog (s : Slice) (a : Nat) (f : Fld) (v : Nat) : (s.setFld a f v).errLog = s.errLog := rfl
@[simp] theorem Slice.setFld_repairs0 (s : Slice) (a : Nat) (f : Fld) (v : Nat) : (s.setFld a f v).repairs0 = s.repairs0 := rfl
@[simp] theorem Slice.setFld_repairs1 (s : Slice) (a : Nat) (f : Fld) (v : Nat) : (s.setFld a f v).repairs1 = s.repairs1 := rfl
@[simp] theorem Slice.setFld_quarantine (s : Slice) (a : Nat) (f : Fld) (v : Nat) : (s.setFld a f v).quarantine = s.quarantine := rfl
@[simp] theorem Slice.setFld_rtLate (s : Slice) (a : Nat) (f : Fld) (v : Nat) : (s.setFld a f v).rtLate = s.rtLate := rfl
@[simp] theorem Slice.setFld_lostKeys (s : Slice) (a : Nat) (f : Fld) (v : Nat) : (s.setFld a f v).lostKeys = s.lostKeys := rfl
@[simp] theorem Slice.setFld_patrols (s : Slice) (a : Nat) (f : Fld) (v : Nat) : (s.setFld a f v).patrols = s.patrols := rfl
@[simp] theorem Slice.setFld_defers (s : Slice) (a : Nat) (f : Fld) (v : Nat) : (s.setFld a f v).defers = s.defers := rfl
@[simp] theorem Slice.setFld_sparing (s : Slice) (a : Nat) (f : Fld) (v : Nat) : (s.setFld a f v).sparing = s.sparing := rfl
@[simp] theorem Slice.setFld_save (s : Slice) (a : Nat) (f : Fld) (v : Nat) : (s.setFld a f v).save = s.save := rfl
@[simp] theorem Slice.setFld_gov (s : Slice) (a : Nat) (f : Fld) (v : Nat) : (s.setFld a f v).gov = s.gov := rfl
@[simp] theorem Slice.setFld_age (s : Slice) (a : Nat) (f : Fld) (v : Nat) : (s.setFld a f v).age = s.age := rfl
@[simp] theorem Slice.setFld_half0 (s : Slice) (a : Nat) (f : Fld) (v : Nat) : (s.setFld a f v).half0 = s.half0 := rfl
@[simp] theorem Slice.setFld_half1 (s : Slice) (a : Nat) (f : Fld) (v : Nat) : (s.setFld a f v).half1 = s.half1 := rfl
@[simp] theorem Slice.setFld_ring (s : Slice) (a : Nat) (f : Fld) (v : Nat) : (s.setFld a f v).ring = s.ring := rfl
@[simp] theorem Slice.setFld_board (s : Slice) (a : Nat) (f : Fld) (v : Nat) : (s.setFld a f v).board = s.board := rfl
@[simp] theorem Slice.setFld_start (s : Slice) (a : Nat) (f : Fld) (v : Nat) : (s.setFld a f v).start = s.start := rfl
@[simp] theorem Slice.setFld_tap (s : Slice) (a : Nat) (f : Fld) (v : Nat) : (s.setFld a f v).tap = s.tap := rfl
@[simp] theorem Slice.setFld_pins (s : Slice) (a : Nat) (f : Fld) (v : Nat) : (s.setFld a f v).pins = s.pins := rfl
@[simp] theorem Slice.setFld_at_bank (s : Slice) (a : Nat) (f : Fld) (v : Nat) (i : Nat) : (s.setFld a f v).bank i = s.bank i := rfl
@[simp] theorem Slice.setFld_at_rxHeld (s : Slice) (a : Nat) (f : Fld) (v : Nat) (j : Port) (e : Cls) : (s.setFld a f v).rxHeld j e = s.rxHeld j e := rfl
@[simp] theorem Slice.setFld_at_half (s : Slice) (a : Nat) (f : Fld) (v : Nat) (h : Nat) : (s.setFld a f v).half h = s.half h := rfl

/-! ### noteNow -/

@[simp] theorem Slice.noteNow_fc (s : Slice) (a : Nat) (w : Word) : (s.noteNow a w).fc = s.fc := rfl
@[simp] theorem Slice.noteNow_ansPort (s : Slice) (a : Nat) (w : Word) : (s.noteNow a w).ansPort = s.ansPort := rfl
@[simp] theorem Slice.noteNow_refs (s : Slice) (a : Nat) (w : Word) : (s.noteNow a w).refs = s.refs := rfl
@[simp] theorem Slice.noteNow_frac (s : Slice) (a : Nat) (w : Word) : (s.noteNow a w).frac = s.frac := rfl
@[simp] theorem Slice.noteNow_count (s : Slice) (a : Nat) (w : Word) : (s.noteNow a w).count = s.count := rfl
@[simp] theorem Slice.noteNow_freqHi (s : Slice) (a : Nat) (w : Word) : (s.noteNow a w).freqHi = s.freqHi := rfl
@[simp] theorem Slice.noteNow_fresh (s : Slice) (a : Nat) (w : Word) : (s.noteNow a w).fresh = s.fresh := rfl
@[simp] theorem Slice.noteNow_regs (s : Slice) (a : Nat) (w : Word) : (s.noteNow a w).regs = s.regs := rfl
@[simp] theorem Slice.noteNow_wroteRegs (s : Slice) (a : Nat) (w : Word) : (s.noteNow a w).wroteRegs = s.wroteRegs := rfl
@[simp] theorem Slice.noteNow_pcWas (s : Slice) (a : Nat) (w : Word) : (s.noteNow a w).pcWas = s.pcWas := rfl
@[simp] theorem Slice.noteNow_homeMap (s : Slice) (a : Nat) (w : Word) : (s.noteNow a w).homeMap = s.homeMap := rfl
@[simp] theorem Slice.noteNow_hmCrc (s : Slice) (a : Nat) (w : Word) : (s.noteNow a w).hmCrc = s.hmCrc := rfl
@[simp] theorem Slice.noteNow_frames (s : Slice) (a : Nat) (w : Word) : (s.noteNow a w).frames = s.frames := rfl
@[simp] theorem Slice.noteNow_repl (s : Slice) (a : Nat) (w : Word) : (s.noteNow a w).repl = s.repl := rfl
@[simp] theorem Slice.noteNow_victims (s : Slice) (a : Nat) (w : Word) : (s.noteNow a w).victims = s.victims := rfl
@[simp] theorem Slice.noteNow_ledger (s : Slice) (a : Nat) (w : Word) : (s.noteNow a w).ledger = s.ledger := rfl
@[simp] theorem Slice.noteNow_flips (s : Slice) (a : Nat) (w : Word) : (s.noteNow a w).flips = s.flips := rfl
@[simp] theorem Slice.noteNow_injAt (s : Slice) (a : Nat) (w : Word) : (s.noteNow a w).injAt = s.injAt := rfl
@[simp] theorem Slice.noteNow_banks (s : Slice) (a : Nat) (w : Word) : (s.noteNow a w).banks = s.banks := rfl
@[simp] theorem Slice.noteNow_regPtr (s : Slice) (a : Nat) (w : Word) : (s.noteNow a w).regPtr = s.regPtr := rfl
@[simp] theorem Slice.noteNow_regFree (s : Slice) (a : Nat) (w : Word) : (s.noteNow a w).regFree = s.regFree := rfl
@[simp] theorem Slice.noteNow_tdAt (s : Slice) (a : Nat) (w : Word) : (s.noteNow a w).tdAt = s.tdAt := rfl
@[simp] theorem Slice.noteNow_tdReq (s : Slice) (a : Nat) (w : Word) : (s.noteNow a w).tdReq = s.tdReq := rfl
@[simp] theorem Slice.noteNow_fills (s : Slice) (a : Nat) (w : Word) : (s.noteNow a w).fills = s.fills := rfl
@[simp] theorem Slice.noteNow_txns (s : Slice) (a : Nat) (w : Word) : (s.noteNow a w).txns = s.txns := rfl
@[simp] theorem Slice.noteNow_txnWait (s : Slice) (a : Nat) (w : Word) : (s.noteNow a w).txnWait = s.txnWait := rfl
@[simp] theorem Slice.noteNow_inputs (s : Slice) (a : Nat) (w : Word) : (s.noteNow a w).inputs = s.inputs := rfl
@[simp] theorem Slice.noteNow_ahead (s : Slice) (a : Nat) (w : Word) : (s.noteNow a w).ahead = s.ahead := rfl
@[simp] theorem Slice.noteNow_regWait (s : Slice) (a : Nat) (w : Word) : (s.noteNow a w).regWait = s.regWait := rfl
@[simp] theorem Slice.noteNow_rxCred (s : Slice) (a : Nat) (w : Word) : (s.noteNow a w).rxCred = s.rxCred := rfl
@[simp] theorem Slice.noteNow_txCred (s : Slice) (a : Nat) (w : Word) : (s.noteNow a w).txCred = s.txCred := rfl
@[simp] theorem Slice.noteNow_egress (s : Slice) (a : Nat) (w : Word) : (s.noteNow a w).egress = s.egress := rfl
@[simp] theorem Slice.noteNow_sent (s : Slice) (a : Nat) (w : Word) : (s.noteNow a w).sent = s.sent := rfl
@[simp] theorem Slice.noteNow_eports (s : Slice) (a : Nat) (w : Word) : (s.noteNow a w).eports = s.eports := rfl
@[simp] theorem Slice.noteNow_fillRegs (s : Slice) (a : Nat) (w : Word) : (s.noteNow a w).fillRegs = s.fillRegs := rfl
@[simp] theorem Slice.noteNow_winFc (s : Slice) (a : Nat) (w : Word) : (s.noteNow a w).winFc = s.winFc := rfl
@[simp] theorem Slice.noteNow_damperDue (s : Slice) (a : Nat) (w : Word) : (s.noteNow a w).damperDue = s.damperDue := rfl
@[simp] theorem Slice.noteNow_pinOps (s : Slice) (a : Nat) (w : Word) : (s.noteNow a w).pinOps = s.pinOps := rfl
@[simp] theorem Slice.noteNow_fan (s : Slice) (a : Nat) (w : Word) : (s.noteNow a w).fan = s.fan := rfl
@[simp] theorem Slice.noteNow_foCred (s : Slice) (a : Nat) (w : Word) : (s.noteNow a w).foCred = s.foCred := rfl
@[simp] theorem Slice.noteNow_foSoon (s : Slice) (a : Nat) (w : Word) : (s.noteNow a w).foSoon = s.foSoon := rfl
@[simp] theorem Slice.noteNow_foPort (s : Slice) (a : Nat) (w : Word) : (s.noteNow a w).foPort = s.foPort := rfl
@[simp] theorem Slice.noteNow_anchors (s : Slice) (a : Nat) (w : Word) : (s.noteNow a w).anchors = s.anchors := rfl
@[simp] theorem Slice.noteNow_waiters (s : Slice) (a : Nat) (w : Word) : (s.noteNow a w).waiters = s.waiters := rfl
@[simp] theorem Slice.noteNow_drains (s : Slice) (a : Nat) (w : Word) : (s.noteNow a w).drains = s.drains := rfl
@[simp] theorem Slice.noteNow_releases (s : Slice) (a : Nat) (w : Word) : (s.noteNow a w).releases = s.releases := rfl
@[simp] theorem Slice.noteNow_walks (s : Slice) (a : Nat) (w : Word) : (s.noteNow a w).walks = s.walks := rfl
@[simp] theorem Slice.noteNow_relFlush (s : Slice) (a : Nat) (w : Word) : (s.noteNow a w).relFlush = s.relFlush := rfl
@[simp] theorem Slice.noteNow_relWait (s : Slice) (a : Nat) (w : Word) : (s.noteNow a w).relWait = s.relWait := rfl
@[simp] theorem Slice.noteNow_capture (s : Slice) (a : Nat) (w : Word) : (s.noteNow a w).capture = s.capture := rfl
@[simp] theorem Slice.noteNow_timeBase (s : Slice) (a : Nat) (w : Word) : (s.noteNow a w).timeBase = s.timeBase := rfl
@[simp] theorem Slice.noteNow_outLat (s : Slice) (a : Nat) (w : Word) : (s.noteNow a w).outLat = s.outLat := rfl
@[simp] theorem Slice.noteNow_relLast (s : Slice) (a : Nat) (w : Word) : (s.noteNow a w).relLast = s.relLast := rfl
@[simp] theorem Slice.noteNow_hashFree (s : Slice) (a : Nat) (w : Word) : (s.noteNow a w).hashFree = s.hashFree := rfl
@[simp] theorem Slice.noteNow_harvests (s : Slice) (a : Nat) (w : Word) : (s.noteNow a w).harvests = s.harvests := rfl
@[simp] theorem Slice.noteNow_drainPtr (s : Slice) (a : Nat) (w : Word) : (s.noteNow a w).drainPtr = s.drainPtr := rfl
@[simp] theorem Slice.noteNow_shelfSeq (s : Slice) (a : Nat) (w : Word) : (s.noteNow a w).shelfSeq = s.shelfSeq := rfl
@[simp] theorem Slice.noteNow_grantsTotal (s : Slice) (a : Nat) (w : Word) : (s.noteNow a w).grantsTotal = s.grantsTotal := rfl
@[simp] theorem Slice.noteNow_errLog (s : Slice) (a : Nat) (w : Word) : (s.noteNow a w).errLog = s.errLog := rfl
@[simp] theorem Slice.noteNow_repairs0 (s : Slice) (a : Nat) (w : Word) : (s.noteNow a w).repairs0 = s.repairs0 := rfl
@[simp] theorem Slice.noteNow_repairs1 (s : Slice) (a : Nat) (w : Word) : (s.noteNow a w).repairs1 = s.repairs1 := rfl
@[simp] theorem Slice.noteNow_quarantine (s : Slice) (a : Nat) (w : Word) : (s.noteNow a w).quarantine = s.quarantine := rfl
@[simp] theorem Slice.noteNow_rtLate (s : Slice) (a : Nat) (w : Word) : (s.noteNow a w).rtLate = s.rtLate := rfl
@[simp] theorem Slice.noteNow_lostKeys (s : Slice) (a : Nat) (w : Word) : (s.noteNow a w).lostKeys = s.lostKeys := rfl
@[simp] theorem Slice.noteNow_patrols (s : Slice) (a : Nat) (w : Word) : (s.noteNow a w).patrols = s.patrols := rfl
@[simp] theorem Slice.noteNow_defers (s : Slice) (a : Nat) (w : Word) : (s.noteNow a w).defers = s.defers := rfl
@[simp] theorem Slice.noteNow_sparing (s : Slice) (a : Nat) (w : Word) : (s.noteNow a w).sparing = s.sparing := rfl
@[simp] theorem Slice.noteNow_save (s : Slice) (a : Nat) (w : Word) : (s.noteNow a w).save = s.save := rfl
@[simp] theorem Slice.noteNow_gov (s : Slice) (a : Nat) (w : Word) : (s.noteNow a w).gov = s.gov := rfl
@[simp] theorem Slice.noteNow_age (s : Slice) (a : Nat) (w : Word) : (s.noteNow a w).age = s.age := rfl
@[simp] theorem Slice.noteNow_half0 (s : Slice) (a : Nat) (w : Word) : (s.noteNow a w).half0 = s.half0 := rfl
@[simp] theorem Slice.noteNow_half1 (s : Slice) (a : Nat) (w : Word) : (s.noteNow a w).half1 = s.half1 := rfl
@[simp] theorem Slice.noteNow_ring (s : Slice) (a : Nat) (w : Word) : (s.noteNow a w).ring = s.ring := rfl
@[simp] theorem Slice.noteNow_board (s : Slice) (a : Nat) (w : Word) : (s.noteNow a w).board = s.board := rfl
@[simp] theorem Slice.noteNow_start (s : Slice) (a : Nat) (w : Word) : (s.noteNow a w).start = s.start := rfl
@[simp] theorem Slice.noteNow_tap (s : Slice) (a : Nat) (w : Word) : (s.noteNow a w).tap = s.tap := rfl
@[simp] theorem Slice.noteNow_pins (s : Slice) (a : Nat) (w : Word) : (s.noteNow a w).pins = s.pins := rfl
@[simp] theorem Slice.noteNow_at_reg (s : Slice) (a : Nat) (w : Word) (i : Nat) : (s.noteNow a w).reg i = s.reg i := rfl
@[simp] theorem Slice.noteNow_at_bank (s : Slice) (a : Nat) (w : Word) (i : Nat) : (s.noteNow a w).bank i = s.bank i := rfl
@[simp] theorem Slice.noteNow_at_rxHeld (s : Slice) (a : Nat) (w : Word) (j : Port) (e : Cls) : (s.noteNow a w).rxHeld j e = s.rxHeld j e := rfl
@[simp] theorem Slice.noteNow_at_half (s : Slice) (a : Nat) (w : Word) (h : Nat) : (s.noteNow a w).half h = s.half h := rfl

/-! ### noteWrote -/

@[simp] theorem Slice.noteWrote_fc (s : Slice) (a : Nat) : (s.noteWrote a).fc = s.fc := rfl
@[simp] theorem Slice.noteWrote_ansPort (s : Slice) (a : Nat) : (s.noteWrote a).ansPort = s.ansPort := rfl
@[simp] theorem Slice.noteWrote_refs (s : Slice) (a : Nat) : (s.noteWrote a).refs = s.refs := rfl
@[simp] theorem Slice.noteWrote_frac (s : Slice) (a : Nat) : (s.noteWrote a).frac = s.frac := rfl
@[simp] theorem Slice.noteWrote_count (s : Slice) (a : Nat) : (s.noteWrote a).count = s.count := rfl
@[simp] theorem Slice.noteWrote_freqHi (s : Slice) (a : Nat) : (s.noteWrote a).freqHi = s.freqHi := rfl
@[simp] theorem Slice.noteWrote_fresh (s : Slice) (a : Nat) : (s.noteWrote a).fresh = s.fresh := rfl
@[simp] theorem Slice.noteWrote_regs (s : Slice) (a : Nat) : (s.noteWrote a).regs = s.regs := rfl
@[simp] theorem Slice.noteWrote_now (s : Slice) (a : Nat) : (s.noteWrote a).now = s.now := rfl
@[simp] theorem Slice.noteWrote_pcWas (s : Slice) (a : Nat) : (s.noteWrote a).pcWas = s.pcWas := rfl
@[simp] theorem Slice.noteWrote_homeMap (s : Slice) (a : Nat) : (s.noteWrote a).homeMap = s.homeMap := rfl
@[simp] theorem Slice.noteWrote_hmCrc (s : Slice) (a : Nat) : (s.noteWrote a).hmCrc = s.hmCrc := rfl
@[simp] theorem Slice.noteWrote_frames (s : Slice) (a : Nat) : (s.noteWrote a).frames = s.frames := rfl
@[simp] theorem Slice.noteWrote_repl (s : Slice) (a : Nat) : (s.noteWrote a).repl = s.repl := rfl
@[simp] theorem Slice.noteWrote_victims (s : Slice) (a : Nat) : (s.noteWrote a).victims = s.victims := rfl
@[simp] theorem Slice.noteWrote_ledger (s : Slice) (a : Nat) : (s.noteWrote a).ledger = s.ledger := rfl
@[simp] theorem Slice.noteWrote_flips (s : Slice) (a : Nat) : (s.noteWrote a).flips = s.flips := rfl
@[simp] theorem Slice.noteWrote_injAt (s : Slice) (a : Nat) : (s.noteWrote a).injAt = s.injAt := rfl
@[simp] theorem Slice.noteWrote_banks (s : Slice) (a : Nat) : (s.noteWrote a).banks = s.banks := rfl
@[simp] theorem Slice.noteWrote_regPtr (s : Slice) (a : Nat) : (s.noteWrote a).regPtr = s.regPtr := rfl
@[simp] theorem Slice.noteWrote_regFree (s : Slice) (a : Nat) : (s.noteWrote a).regFree = s.regFree := rfl
@[simp] theorem Slice.noteWrote_tdAt (s : Slice) (a : Nat) : (s.noteWrote a).tdAt = s.tdAt := rfl
@[simp] theorem Slice.noteWrote_tdReq (s : Slice) (a : Nat) : (s.noteWrote a).tdReq = s.tdReq := rfl
@[simp] theorem Slice.noteWrote_fills (s : Slice) (a : Nat) : (s.noteWrote a).fills = s.fills := rfl
@[simp] theorem Slice.noteWrote_txns (s : Slice) (a : Nat) : (s.noteWrote a).txns = s.txns := rfl
@[simp] theorem Slice.noteWrote_txnWait (s : Slice) (a : Nat) : (s.noteWrote a).txnWait = s.txnWait := rfl
@[simp] theorem Slice.noteWrote_inputs (s : Slice) (a : Nat) : (s.noteWrote a).inputs = s.inputs := rfl
@[simp] theorem Slice.noteWrote_ahead (s : Slice) (a : Nat) : (s.noteWrote a).ahead = s.ahead := rfl
@[simp] theorem Slice.noteWrote_regWait (s : Slice) (a : Nat) : (s.noteWrote a).regWait = s.regWait := rfl
@[simp] theorem Slice.noteWrote_rxCred (s : Slice) (a : Nat) : (s.noteWrote a).rxCred = s.rxCred := rfl
@[simp] theorem Slice.noteWrote_txCred (s : Slice) (a : Nat) : (s.noteWrote a).txCred = s.txCred := rfl
@[simp] theorem Slice.noteWrote_egress (s : Slice) (a : Nat) : (s.noteWrote a).egress = s.egress := rfl
@[simp] theorem Slice.noteWrote_sent (s : Slice) (a : Nat) : (s.noteWrote a).sent = s.sent := rfl
@[simp] theorem Slice.noteWrote_eports (s : Slice) (a : Nat) : (s.noteWrote a).eports = s.eports := rfl
@[simp] theorem Slice.noteWrote_fillRegs (s : Slice) (a : Nat) : (s.noteWrote a).fillRegs = s.fillRegs := rfl
@[simp] theorem Slice.noteWrote_winFc (s : Slice) (a : Nat) : (s.noteWrote a).winFc = s.winFc := rfl
@[simp] theorem Slice.noteWrote_damperDue (s : Slice) (a : Nat) : (s.noteWrote a).damperDue = s.damperDue := rfl
@[simp] theorem Slice.noteWrote_pinOps (s : Slice) (a : Nat) : (s.noteWrote a).pinOps = s.pinOps := rfl
@[simp] theorem Slice.noteWrote_fan (s : Slice) (a : Nat) : (s.noteWrote a).fan = s.fan := rfl
@[simp] theorem Slice.noteWrote_foCred (s : Slice) (a : Nat) : (s.noteWrote a).foCred = s.foCred := rfl
@[simp] theorem Slice.noteWrote_foSoon (s : Slice) (a : Nat) : (s.noteWrote a).foSoon = s.foSoon := rfl
@[simp] theorem Slice.noteWrote_foPort (s : Slice) (a : Nat) : (s.noteWrote a).foPort = s.foPort := rfl
@[simp] theorem Slice.noteWrote_anchors (s : Slice) (a : Nat) : (s.noteWrote a).anchors = s.anchors := rfl
@[simp] theorem Slice.noteWrote_waiters (s : Slice) (a : Nat) : (s.noteWrote a).waiters = s.waiters := rfl
@[simp] theorem Slice.noteWrote_drains (s : Slice) (a : Nat) : (s.noteWrote a).drains = s.drains := rfl
@[simp] theorem Slice.noteWrote_releases (s : Slice) (a : Nat) : (s.noteWrote a).releases = s.releases := rfl
@[simp] theorem Slice.noteWrote_walks (s : Slice) (a : Nat) : (s.noteWrote a).walks = s.walks := rfl
@[simp] theorem Slice.noteWrote_relFlush (s : Slice) (a : Nat) : (s.noteWrote a).relFlush = s.relFlush := rfl
@[simp] theorem Slice.noteWrote_relWait (s : Slice) (a : Nat) : (s.noteWrote a).relWait = s.relWait := rfl
@[simp] theorem Slice.noteWrote_capture (s : Slice) (a : Nat) : (s.noteWrote a).capture = s.capture := rfl
@[simp] theorem Slice.noteWrote_timeBase (s : Slice) (a : Nat) : (s.noteWrote a).timeBase = s.timeBase := rfl
@[simp] theorem Slice.noteWrote_outLat (s : Slice) (a : Nat) : (s.noteWrote a).outLat = s.outLat := rfl
@[simp] theorem Slice.noteWrote_relLast (s : Slice) (a : Nat) : (s.noteWrote a).relLast = s.relLast := rfl
@[simp] theorem Slice.noteWrote_hashFree (s : Slice) (a : Nat) : (s.noteWrote a).hashFree = s.hashFree := rfl
@[simp] theorem Slice.noteWrote_harvests (s : Slice) (a : Nat) : (s.noteWrote a).harvests = s.harvests := rfl
@[simp] theorem Slice.noteWrote_drainPtr (s : Slice) (a : Nat) : (s.noteWrote a).drainPtr = s.drainPtr := rfl
@[simp] theorem Slice.noteWrote_shelfSeq (s : Slice) (a : Nat) : (s.noteWrote a).shelfSeq = s.shelfSeq := rfl
@[simp] theorem Slice.noteWrote_grantsTotal (s : Slice) (a : Nat) : (s.noteWrote a).grantsTotal = s.grantsTotal := rfl
@[simp] theorem Slice.noteWrote_errLog (s : Slice) (a : Nat) : (s.noteWrote a).errLog = s.errLog := rfl
@[simp] theorem Slice.noteWrote_repairs0 (s : Slice) (a : Nat) : (s.noteWrote a).repairs0 = s.repairs0 := rfl
@[simp] theorem Slice.noteWrote_repairs1 (s : Slice) (a : Nat) : (s.noteWrote a).repairs1 = s.repairs1 := rfl
@[simp] theorem Slice.noteWrote_quarantine (s : Slice) (a : Nat) : (s.noteWrote a).quarantine = s.quarantine := rfl
@[simp] theorem Slice.noteWrote_rtLate (s : Slice) (a : Nat) : (s.noteWrote a).rtLate = s.rtLate := rfl
@[simp] theorem Slice.noteWrote_lostKeys (s : Slice) (a : Nat) : (s.noteWrote a).lostKeys = s.lostKeys := rfl
@[simp] theorem Slice.noteWrote_patrols (s : Slice) (a : Nat) : (s.noteWrote a).patrols = s.patrols := rfl
@[simp] theorem Slice.noteWrote_defers (s : Slice) (a : Nat) : (s.noteWrote a).defers = s.defers := rfl
@[simp] theorem Slice.noteWrote_sparing (s : Slice) (a : Nat) : (s.noteWrote a).sparing = s.sparing := rfl
@[simp] theorem Slice.noteWrote_save (s : Slice) (a : Nat) : (s.noteWrote a).save = s.save := rfl
@[simp] theorem Slice.noteWrote_gov (s : Slice) (a : Nat) : (s.noteWrote a).gov = s.gov := rfl
@[simp] theorem Slice.noteWrote_age (s : Slice) (a : Nat) : (s.noteWrote a).age = s.age := rfl
@[simp] theorem Slice.noteWrote_half0 (s : Slice) (a : Nat) : (s.noteWrote a).half0 = s.half0 := rfl
@[simp] theorem Slice.noteWrote_half1 (s : Slice) (a : Nat) : (s.noteWrote a).half1 = s.half1 := rfl
@[simp] theorem Slice.noteWrote_ring (s : Slice) (a : Nat) : (s.noteWrote a).ring = s.ring := rfl
@[simp] theorem Slice.noteWrote_board (s : Slice) (a : Nat) : (s.noteWrote a).board = s.board := rfl
@[simp] theorem Slice.noteWrote_start (s : Slice) (a : Nat) : (s.noteWrote a).start = s.start := rfl
@[simp] theorem Slice.noteWrote_tap (s : Slice) (a : Nat) : (s.noteWrote a).tap = s.tap := rfl
@[simp] theorem Slice.noteWrote_pins (s : Slice) (a : Nat) : (s.noteWrote a).pins = s.pins := rfl
@[simp] theorem Slice.noteWrote_at_reg (s : Slice) (a : Nat) (i : Nat) : (s.noteWrote a).reg i = s.reg i := rfl
@[simp] theorem Slice.noteWrote_at_bank (s : Slice) (a : Nat) (i : Nat) : (s.noteWrote a).bank i = s.bank i := rfl
@[simp] theorem Slice.noteWrote_at_rxHeld (s : Slice) (a : Nat) (j : Port) (e : Cls) : (s.noteWrote a).rxHeld j e = s.rxHeld j e := rfl
@[simp] theorem Slice.noteWrote_at_half (s : Slice) (a : Nat) (h : Nat) : (s.noteWrote a).half h = s.half h := rfl

/-! ### latch -/

@[simp] theorem Slice.latch_fc (s : Slice) (a : Nat) (v : Word) : (s.latch a v).fc = s.fc := rfl
@[simp] theorem Slice.latch_ansPort (s : Slice) (a : Nat) (v : Word) : (s.latch a v).ansPort = s.ansPort := rfl
@[simp] theorem Slice.latch_refs (s : Slice) (a : Nat) (v : Word) : (s.latch a v).refs = s.refs := rfl
@[simp] theorem Slice.latch_frac (s : Slice) (a : Nat) (v : Word) : (s.latch a v).frac = s.frac := rfl
@[simp] theorem Slice.latch_count (s : Slice) (a : Nat) (v : Word) : (s.latch a v).count = s.count := rfl
@[simp] theorem Slice.latch_freqHi (s : Slice) (a : Nat) (v : Word) : (s.latch a v).freqHi = s.freqHi := rfl
@[simp] theorem Slice.latch_fresh (s : Slice) (a : Nat) (v : Word) : (s.latch a v).fresh = s.fresh := rfl
@[simp] theorem Slice.latch_wroteRegs (s : Slice) (a : Nat) (v : Word) : (s.latch a v).wroteRegs = s.wroteRegs := rfl
@[simp] theorem Slice.latch_pcWas (s : Slice) (a : Nat) (v : Word) : (s.latch a v).pcWas = s.pcWas := rfl
@[simp] theorem Slice.latch_homeMap (s : Slice) (a : Nat) (v : Word) : (s.latch a v).homeMap = s.homeMap := rfl
@[simp] theorem Slice.latch_hmCrc (s : Slice) (a : Nat) (v : Word) : (s.latch a v).hmCrc = s.hmCrc := rfl
@[simp] theorem Slice.latch_frames (s : Slice) (a : Nat) (v : Word) : (s.latch a v).frames = s.frames := rfl
@[simp] theorem Slice.latch_repl (s : Slice) (a : Nat) (v : Word) : (s.latch a v).repl = s.repl := rfl
@[simp] theorem Slice.latch_victims (s : Slice) (a : Nat) (v : Word) : (s.latch a v).victims = s.victims := rfl
@[simp] theorem Slice.latch_ledger (s : Slice) (a : Nat) (v : Word) : (s.latch a v).ledger = s.ledger := rfl
@[simp] theorem Slice.latch_flips (s : Slice) (a : Nat) (v : Word) : (s.latch a v).flips = s.flips := rfl
@[simp] theorem Slice.latch_injAt (s : Slice) (a : Nat) (v : Word) : (s.latch a v).injAt = s.injAt := rfl
@[simp] theorem Slice.latch_banks (s : Slice) (a : Nat) (v : Word) : (s.latch a v).banks = s.banks := rfl
@[simp] theorem Slice.latch_regPtr (s : Slice) (a : Nat) (v : Word) : (s.latch a v).regPtr = s.regPtr := rfl
@[simp] theorem Slice.latch_regFree (s : Slice) (a : Nat) (v : Word) : (s.latch a v).regFree = s.regFree := rfl
@[simp] theorem Slice.latch_tdAt (s : Slice) (a : Nat) (v : Word) : (s.latch a v).tdAt = s.tdAt := rfl
@[simp] theorem Slice.latch_tdReq (s : Slice) (a : Nat) (v : Word) : (s.latch a v).tdReq = s.tdReq := rfl
@[simp] theorem Slice.latch_fills (s : Slice) (a : Nat) (v : Word) : (s.latch a v).fills = s.fills := rfl
@[simp] theorem Slice.latch_txns (s : Slice) (a : Nat) (v : Word) : (s.latch a v).txns = s.txns := rfl
@[simp] theorem Slice.latch_txnWait (s : Slice) (a : Nat) (v : Word) : (s.latch a v).txnWait = s.txnWait := rfl
@[simp] theorem Slice.latch_inputs (s : Slice) (a : Nat) (v : Word) : (s.latch a v).inputs = s.inputs := rfl
@[simp] theorem Slice.latch_ahead (s : Slice) (a : Nat) (v : Word) : (s.latch a v).ahead = s.ahead := rfl
@[simp] theorem Slice.latch_regWait (s : Slice) (a : Nat) (v : Word) : (s.latch a v).regWait = s.regWait := rfl
@[simp] theorem Slice.latch_rxCred (s : Slice) (a : Nat) (v : Word) : (s.latch a v).rxCred = s.rxCred := rfl
@[simp] theorem Slice.latch_txCred (s : Slice) (a : Nat) (v : Word) : (s.latch a v).txCred = s.txCred := rfl
@[simp] theorem Slice.latch_egress (s : Slice) (a : Nat) (v : Word) : (s.latch a v).egress = s.egress := rfl
@[simp] theorem Slice.latch_sent (s : Slice) (a : Nat) (v : Word) : (s.latch a v).sent = s.sent := rfl
@[simp] theorem Slice.latch_eports (s : Slice) (a : Nat) (v : Word) : (s.latch a v).eports = s.eports := rfl
@[simp] theorem Slice.latch_fillRegs (s : Slice) (a : Nat) (v : Word) : (s.latch a v).fillRegs = s.fillRegs := rfl
@[simp] theorem Slice.latch_winFc (s : Slice) (a : Nat) (v : Word) : (s.latch a v).winFc = s.winFc := rfl
@[simp] theorem Slice.latch_damperDue (s : Slice) (a : Nat) (v : Word) : (s.latch a v).damperDue = s.damperDue := rfl
@[simp] theorem Slice.latch_pinOps (s : Slice) (a : Nat) (v : Word) : (s.latch a v).pinOps = s.pinOps := rfl
@[simp] theorem Slice.latch_fan (s : Slice) (a : Nat) (v : Word) : (s.latch a v).fan = s.fan := rfl
@[simp] theorem Slice.latch_foCred (s : Slice) (a : Nat) (v : Word) : (s.latch a v).foCred = s.foCred := rfl
@[simp] theorem Slice.latch_foSoon (s : Slice) (a : Nat) (v : Word) : (s.latch a v).foSoon = s.foSoon := rfl
@[simp] theorem Slice.latch_foPort (s : Slice) (a : Nat) (v : Word) : (s.latch a v).foPort = s.foPort := rfl
@[simp] theorem Slice.latch_anchors (s : Slice) (a : Nat) (v : Word) : (s.latch a v).anchors = s.anchors := rfl
@[simp] theorem Slice.latch_waiters (s : Slice) (a : Nat) (v : Word) : (s.latch a v).waiters = s.waiters := rfl
@[simp] theorem Slice.latch_drains (s : Slice) (a : Nat) (v : Word) : (s.latch a v).drains = s.drains := rfl
@[simp] theorem Slice.latch_releases (s : Slice) (a : Nat) (v : Word) : (s.latch a v).releases = s.releases := rfl
@[simp] theorem Slice.latch_walks (s : Slice) (a : Nat) (v : Word) : (s.latch a v).walks = s.walks := rfl
@[simp] theorem Slice.latch_relFlush (s : Slice) (a : Nat) (v : Word) : (s.latch a v).relFlush = s.relFlush := rfl
@[simp] theorem Slice.latch_relWait (s : Slice) (a : Nat) (v : Word) : (s.latch a v).relWait = s.relWait := rfl
@[simp] theorem Slice.latch_capture (s : Slice) (a : Nat) (v : Word) : (s.latch a v).capture = s.capture := rfl
@[simp] theorem Slice.latch_timeBase (s : Slice) (a : Nat) (v : Word) : (s.latch a v).timeBase = s.timeBase := rfl
@[simp] theorem Slice.latch_outLat (s : Slice) (a : Nat) (v : Word) : (s.latch a v).outLat = s.outLat := rfl
@[simp] theorem Slice.latch_relLast (s : Slice) (a : Nat) (v : Word) : (s.latch a v).relLast = s.relLast := rfl
@[simp] theorem Slice.latch_hashFree (s : Slice) (a : Nat) (v : Word) : (s.latch a v).hashFree = s.hashFree := rfl
@[simp] theorem Slice.latch_harvests (s : Slice) (a : Nat) (v : Word) : (s.latch a v).harvests = s.harvests := rfl
@[simp] theorem Slice.latch_drainPtr (s : Slice) (a : Nat) (v : Word) : (s.latch a v).drainPtr = s.drainPtr := rfl
@[simp] theorem Slice.latch_shelfSeq (s : Slice) (a : Nat) (v : Word) : (s.latch a v).shelfSeq = s.shelfSeq := rfl
@[simp] theorem Slice.latch_grantsTotal (s : Slice) (a : Nat) (v : Word) : (s.latch a v).grantsTotal = s.grantsTotal := rfl
@[simp] theorem Slice.latch_errLog (s : Slice) (a : Nat) (v : Word) : (s.latch a v).errLog = s.errLog := rfl
@[simp] theorem Slice.latch_repairs0 (s : Slice) (a : Nat) (v : Word) : (s.latch a v).repairs0 = s.repairs0 := rfl
@[simp] theorem Slice.latch_repairs1 (s : Slice) (a : Nat) (v : Word) : (s.latch a v).repairs1 = s.repairs1 := rfl
@[simp] theorem Slice.latch_quarantine (s : Slice) (a : Nat) (v : Word) : (s.latch a v).quarantine = s.quarantine := rfl
@[simp] theorem Slice.latch_rtLate (s : Slice) (a : Nat) (v : Word) : (s.latch a v).rtLate = s.rtLate := rfl
@[simp] theorem Slice.latch_lostKeys (s : Slice) (a : Nat) (v : Word) : (s.latch a v).lostKeys = s.lostKeys := rfl
@[simp] theorem Slice.latch_patrols (s : Slice) (a : Nat) (v : Word) : (s.latch a v).patrols = s.patrols := rfl
@[simp] theorem Slice.latch_defers (s : Slice) (a : Nat) (v : Word) : (s.latch a v).defers = s.defers := rfl
@[simp] theorem Slice.latch_sparing (s : Slice) (a : Nat) (v : Word) : (s.latch a v).sparing = s.sparing := rfl
@[simp] theorem Slice.latch_save (s : Slice) (a : Nat) (v : Word) : (s.latch a v).save = s.save := rfl
@[simp] theorem Slice.latch_gov (s : Slice) (a : Nat) (v : Word) : (s.latch a v).gov = s.gov := rfl
@[simp] theorem Slice.latch_age (s : Slice) (a : Nat) (v : Word) : (s.latch a v).age = s.age := rfl
@[simp] theorem Slice.latch_half0 (s : Slice) (a : Nat) (v : Word) : (s.latch a v).half0 = s.half0 := rfl
@[simp] theorem Slice.latch_half1 (s : Slice) (a : Nat) (v : Word) : (s.latch a v).half1 = s.half1 := rfl
@[simp] theorem Slice.latch_ring (s : Slice) (a : Nat) (v : Word) : (s.latch a v).ring = s.ring := rfl
@[simp] theorem Slice.latch_board (s : Slice) (a : Nat) (v : Word) : (s.latch a v).board = s.board := rfl
@[simp] theorem Slice.latch_start (s : Slice) (a : Nat) (v : Word) : (s.latch a v).start = s.start := rfl
@[simp] theorem Slice.latch_tap (s : Slice) (a : Nat) (v : Word) : (s.latch a v).tap = s.tap := rfl
@[simp] theorem Slice.latch_pins (s : Slice) (a : Nat) (v : Word) : (s.latch a v).pins = s.pins := rfl
@[simp] theorem Slice.latch_at_bank (s : Slice) (a : Nat) (v : Word) (i : Nat) : (s.latch a v).bank i = s.bank i := rfl
@[simp] theorem Slice.latch_at_rxHeld (s : Slice) (a : Nat) (v : Word) (j : Port) (e : Cls) : (s.latch a v).rxHeld j e = s.rxHeld j e := rfl
@[simp] theorem Slice.latch_at_half (s : Slice) (a : Nat) (v : Word) (h : Nat) : (s.latch a v).half h = s.half h := rfl

/-! ### raise -/

@[simp] theorem Slice.raise_fc (s : Slice) (a : Nat) (f : Fld) : (s.raise a f).fc = s.fc := rfl
@[simp] theorem Slice.raise_ansPort (s : Slice) (a : Nat) (f : Fld) : (s.raise a f).ansPort = s.ansPort := rfl
@[simp] theorem Slice.raise_refs (s : Slice) (a : Nat) (f : Fld) : (s.raise a f).refs = s.refs := rfl
@[simp] theorem Slice.raise_frac (s : Slice) (a : Nat) (f : Fld) : (s.raise a f).frac = s.frac := rfl
@[simp] theorem Slice.raise_count (s : Slice) (a : Nat) (f : Fld) : (s.raise a f).count = s.count := rfl
@[simp] theorem Slice.raise_freqHi (s : Slice) (a : Nat) (f : Fld) : (s.raise a f).freqHi = s.freqHi := rfl
@[simp] theorem Slice.raise_fresh (s : Slice) (a : Nat) (f : Fld) : (s.raise a f).fresh = s.fresh := rfl
@[simp] theorem Slice.raise_wroteRegs (s : Slice) (a : Nat) (f : Fld) : (s.raise a f).wroteRegs = s.wroteRegs := rfl
@[simp] theorem Slice.raise_pcWas (s : Slice) (a : Nat) (f : Fld) : (s.raise a f).pcWas = s.pcWas := rfl
@[simp] theorem Slice.raise_homeMap (s : Slice) (a : Nat) (f : Fld) : (s.raise a f).homeMap = s.homeMap := rfl
@[simp] theorem Slice.raise_hmCrc (s : Slice) (a : Nat) (f : Fld) : (s.raise a f).hmCrc = s.hmCrc := rfl
@[simp] theorem Slice.raise_frames (s : Slice) (a : Nat) (f : Fld) : (s.raise a f).frames = s.frames := rfl
@[simp] theorem Slice.raise_repl (s : Slice) (a : Nat) (f : Fld) : (s.raise a f).repl = s.repl := rfl
@[simp] theorem Slice.raise_victims (s : Slice) (a : Nat) (f : Fld) : (s.raise a f).victims = s.victims := rfl
@[simp] theorem Slice.raise_ledger (s : Slice) (a : Nat) (f : Fld) : (s.raise a f).ledger = s.ledger := rfl
@[simp] theorem Slice.raise_flips (s : Slice) (a : Nat) (f : Fld) : (s.raise a f).flips = s.flips := rfl
@[simp] theorem Slice.raise_injAt (s : Slice) (a : Nat) (f : Fld) : (s.raise a f).injAt = s.injAt := rfl
@[simp] theorem Slice.raise_banks (s : Slice) (a : Nat) (f : Fld) : (s.raise a f).banks = s.banks := rfl
@[simp] theorem Slice.raise_regPtr (s : Slice) (a : Nat) (f : Fld) : (s.raise a f).regPtr = s.regPtr := rfl
@[simp] theorem Slice.raise_regFree (s : Slice) (a : Nat) (f : Fld) : (s.raise a f).regFree = s.regFree := rfl
@[simp] theorem Slice.raise_tdAt (s : Slice) (a : Nat) (f : Fld) : (s.raise a f).tdAt = s.tdAt := rfl
@[simp] theorem Slice.raise_tdReq (s : Slice) (a : Nat) (f : Fld) : (s.raise a f).tdReq = s.tdReq := rfl
@[simp] theorem Slice.raise_fills (s : Slice) (a : Nat) (f : Fld) : (s.raise a f).fills = s.fills := rfl
@[simp] theorem Slice.raise_txns (s : Slice) (a : Nat) (f : Fld) : (s.raise a f).txns = s.txns := rfl
@[simp] theorem Slice.raise_txnWait (s : Slice) (a : Nat) (f : Fld) : (s.raise a f).txnWait = s.txnWait := rfl
@[simp] theorem Slice.raise_inputs (s : Slice) (a : Nat) (f : Fld) : (s.raise a f).inputs = s.inputs := rfl
@[simp] theorem Slice.raise_ahead (s : Slice) (a : Nat) (f : Fld) : (s.raise a f).ahead = s.ahead := rfl
@[simp] theorem Slice.raise_regWait (s : Slice) (a : Nat) (f : Fld) : (s.raise a f).regWait = s.regWait := rfl
@[simp] theorem Slice.raise_rxCred (s : Slice) (a : Nat) (f : Fld) : (s.raise a f).rxCred = s.rxCred := rfl
@[simp] theorem Slice.raise_txCred (s : Slice) (a : Nat) (f : Fld) : (s.raise a f).txCred = s.txCred := rfl
@[simp] theorem Slice.raise_egress (s : Slice) (a : Nat) (f : Fld) : (s.raise a f).egress = s.egress := rfl
@[simp] theorem Slice.raise_sent (s : Slice) (a : Nat) (f : Fld) : (s.raise a f).sent = s.sent := rfl
@[simp] theorem Slice.raise_eports (s : Slice) (a : Nat) (f : Fld) : (s.raise a f).eports = s.eports := rfl
@[simp] theorem Slice.raise_fillRegs (s : Slice) (a : Nat) (f : Fld) : (s.raise a f).fillRegs = s.fillRegs := rfl
@[simp] theorem Slice.raise_winFc (s : Slice) (a : Nat) (f : Fld) : (s.raise a f).winFc = s.winFc := rfl
@[simp] theorem Slice.raise_damperDue (s : Slice) (a : Nat) (f : Fld) : (s.raise a f).damperDue = s.damperDue := rfl
@[simp] theorem Slice.raise_pinOps (s : Slice) (a : Nat) (f : Fld) : (s.raise a f).pinOps = s.pinOps := rfl
@[simp] theorem Slice.raise_fan (s : Slice) (a : Nat) (f : Fld) : (s.raise a f).fan = s.fan := rfl
@[simp] theorem Slice.raise_foCred (s : Slice) (a : Nat) (f : Fld) : (s.raise a f).foCred = s.foCred := rfl
@[simp] theorem Slice.raise_foSoon (s : Slice) (a : Nat) (f : Fld) : (s.raise a f).foSoon = s.foSoon := rfl
@[simp] theorem Slice.raise_foPort (s : Slice) (a : Nat) (f : Fld) : (s.raise a f).foPort = s.foPort := rfl
@[simp] theorem Slice.raise_anchors (s : Slice) (a : Nat) (f : Fld) : (s.raise a f).anchors = s.anchors := rfl
@[simp] theorem Slice.raise_waiters (s : Slice) (a : Nat) (f : Fld) : (s.raise a f).waiters = s.waiters := rfl
@[simp] theorem Slice.raise_drains (s : Slice) (a : Nat) (f : Fld) : (s.raise a f).drains = s.drains := rfl
@[simp] theorem Slice.raise_releases (s : Slice) (a : Nat) (f : Fld) : (s.raise a f).releases = s.releases := rfl
@[simp] theorem Slice.raise_walks (s : Slice) (a : Nat) (f : Fld) : (s.raise a f).walks = s.walks := rfl
@[simp] theorem Slice.raise_relFlush (s : Slice) (a : Nat) (f : Fld) : (s.raise a f).relFlush = s.relFlush := rfl
@[simp] theorem Slice.raise_relWait (s : Slice) (a : Nat) (f : Fld) : (s.raise a f).relWait = s.relWait := rfl
@[simp] theorem Slice.raise_capture (s : Slice) (a : Nat) (f : Fld) : (s.raise a f).capture = s.capture := rfl
@[simp] theorem Slice.raise_timeBase (s : Slice) (a : Nat) (f : Fld) : (s.raise a f).timeBase = s.timeBase := rfl
@[simp] theorem Slice.raise_outLat (s : Slice) (a : Nat) (f : Fld) : (s.raise a f).outLat = s.outLat := rfl
@[simp] theorem Slice.raise_relLast (s : Slice) (a : Nat) (f : Fld) : (s.raise a f).relLast = s.relLast := rfl
@[simp] theorem Slice.raise_hashFree (s : Slice) (a : Nat) (f : Fld) : (s.raise a f).hashFree = s.hashFree := rfl
@[simp] theorem Slice.raise_harvests (s : Slice) (a : Nat) (f : Fld) : (s.raise a f).harvests = s.harvests := rfl
@[simp] theorem Slice.raise_drainPtr (s : Slice) (a : Nat) (f : Fld) : (s.raise a f).drainPtr = s.drainPtr := rfl
@[simp] theorem Slice.raise_shelfSeq (s : Slice) (a : Nat) (f : Fld) : (s.raise a f).shelfSeq = s.shelfSeq := rfl
@[simp] theorem Slice.raise_grantsTotal (s : Slice) (a : Nat) (f : Fld) : (s.raise a f).grantsTotal = s.grantsTotal := rfl
@[simp] theorem Slice.raise_errLog (s : Slice) (a : Nat) (f : Fld) : (s.raise a f).errLog = s.errLog := rfl
@[simp] theorem Slice.raise_repairs0 (s : Slice) (a : Nat) (f : Fld) : (s.raise a f).repairs0 = s.repairs0 := rfl
@[simp] theorem Slice.raise_repairs1 (s : Slice) (a : Nat) (f : Fld) : (s.raise a f).repairs1 = s.repairs1 := rfl
@[simp] theorem Slice.raise_quarantine (s : Slice) (a : Nat) (f : Fld) : (s.raise a f).quarantine = s.quarantine := rfl
@[simp] theorem Slice.raise_rtLate (s : Slice) (a : Nat) (f : Fld) : (s.raise a f).rtLate = s.rtLate := rfl
@[simp] theorem Slice.raise_lostKeys (s : Slice) (a : Nat) (f : Fld) : (s.raise a f).lostKeys = s.lostKeys := rfl
@[simp] theorem Slice.raise_patrols (s : Slice) (a : Nat) (f : Fld) : (s.raise a f).patrols = s.patrols := rfl
@[simp] theorem Slice.raise_defers (s : Slice) (a : Nat) (f : Fld) : (s.raise a f).defers = s.defers := rfl
@[simp] theorem Slice.raise_sparing (s : Slice) (a : Nat) (f : Fld) : (s.raise a f).sparing = s.sparing := rfl
@[simp] theorem Slice.raise_save (s : Slice) (a : Nat) (f : Fld) : (s.raise a f).save = s.save := rfl
@[simp] theorem Slice.raise_gov (s : Slice) (a : Nat) (f : Fld) : (s.raise a f).gov = s.gov := rfl
@[simp] theorem Slice.raise_age (s : Slice) (a : Nat) (f : Fld) : (s.raise a f).age = s.age := rfl
@[simp] theorem Slice.raise_half0 (s : Slice) (a : Nat) (f : Fld) : (s.raise a f).half0 = s.half0 := rfl
@[simp] theorem Slice.raise_half1 (s : Slice) (a : Nat) (f : Fld) : (s.raise a f).half1 = s.half1 := rfl
@[simp] theorem Slice.raise_ring (s : Slice) (a : Nat) (f : Fld) : (s.raise a f).ring = s.ring := rfl
@[simp] theorem Slice.raise_board (s : Slice) (a : Nat) (f : Fld) : (s.raise a f).board = s.board := rfl
@[simp] theorem Slice.raise_start (s : Slice) (a : Nat) (f : Fld) : (s.raise a f).start = s.start := rfl
@[simp] theorem Slice.raise_tap (s : Slice) (a : Nat) (f : Fld) : (s.raise a f).tap = s.tap := rfl
@[simp] theorem Slice.raise_pins (s : Slice) (a : Nat) (f : Fld) : (s.raise a f).pins = s.pins := rfl
@[simp] theorem Slice.raise_at_bank (s : Slice) (a : Nat) (f : Fld) (i : Nat) : (s.raise a f).bank i = s.bank i := rfl
@[simp] theorem Slice.raise_at_rxHeld (s : Slice) (a : Nat) (f : Fld) (j : Port) (e : Cls) : (s.raise a f).rxHeld j e = s.rxHeld j e := rfl
@[simp] theorem Slice.raise_at_half (s : Slice) (a : Nat) (f : Fld) (h : Nat) : (s.raise a f).half h = s.half h := rfl

/-! ### clearF -/

@[simp] theorem Slice.clearF_fc (s : Slice) (a : Nat) (f : Fld) : (s.clearF a f).fc = s.fc := rfl
@[simp] theorem Slice.clearF_ansPort (s : Slice) (a : Nat) (f : Fld) : (s.clearF a f).ansPort = s.ansPort := rfl
@[simp] theorem Slice.clearF_refs (s : Slice) (a : Nat) (f : Fld) : (s.clearF a f).refs = s.refs := rfl
@[simp] theorem Slice.clearF_frac (s : Slice) (a : Nat) (f : Fld) : (s.clearF a f).frac = s.frac := rfl
@[simp] theorem Slice.clearF_count (s : Slice) (a : Nat) (f : Fld) : (s.clearF a f).count = s.count := rfl
@[simp] theorem Slice.clearF_freqHi (s : Slice) (a : Nat) (f : Fld) : (s.clearF a f).freqHi = s.freqHi := rfl
@[simp] theorem Slice.clearF_fresh (s : Slice) (a : Nat) (f : Fld) : (s.clearF a f).fresh = s.fresh := rfl
@[simp] theorem Slice.clearF_now (s : Slice) (a : Nat) (f : Fld) : (s.clearF a f).now = s.now := rfl
@[simp] theorem Slice.clearF_wroteRegs (s : Slice) (a : Nat) (f : Fld) : (s.clearF a f).wroteRegs = s.wroteRegs := rfl
@[simp] theorem Slice.clearF_pcWas (s : Slice) (a : Nat) (f : Fld) : (s.clearF a f).pcWas = s.pcWas := rfl
@[simp] theorem Slice.clearF_homeMap (s : Slice) (a : Nat) (f : Fld) : (s.clearF a f).homeMap = s.homeMap := rfl
@[simp] theorem Slice.clearF_hmCrc (s : Slice) (a : Nat) (f : Fld) : (s.clearF a f).hmCrc = s.hmCrc := rfl
@[simp] theorem Slice.clearF_frames (s : Slice) (a : Nat) (f : Fld) : (s.clearF a f).frames = s.frames := rfl
@[simp] theorem Slice.clearF_repl (s : Slice) (a : Nat) (f : Fld) : (s.clearF a f).repl = s.repl := rfl
@[simp] theorem Slice.clearF_victims (s : Slice) (a : Nat) (f : Fld) : (s.clearF a f).victims = s.victims := rfl
@[simp] theorem Slice.clearF_ledger (s : Slice) (a : Nat) (f : Fld) : (s.clearF a f).ledger = s.ledger := rfl
@[simp] theorem Slice.clearF_flips (s : Slice) (a : Nat) (f : Fld) : (s.clearF a f).flips = s.flips := rfl
@[simp] theorem Slice.clearF_injAt (s : Slice) (a : Nat) (f : Fld) : (s.clearF a f).injAt = s.injAt := rfl
@[simp] theorem Slice.clearF_banks (s : Slice) (a : Nat) (f : Fld) : (s.clearF a f).banks = s.banks := rfl
@[simp] theorem Slice.clearF_regPtr (s : Slice) (a : Nat) (f : Fld) : (s.clearF a f).regPtr = s.regPtr := rfl
@[simp] theorem Slice.clearF_regFree (s : Slice) (a : Nat) (f : Fld) : (s.clearF a f).regFree = s.regFree := rfl
@[simp] theorem Slice.clearF_tdAt (s : Slice) (a : Nat) (f : Fld) : (s.clearF a f).tdAt = s.tdAt := rfl
@[simp] theorem Slice.clearF_tdReq (s : Slice) (a : Nat) (f : Fld) : (s.clearF a f).tdReq = s.tdReq := rfl
@[simp] theorem Slice.clearF_fills (s : Slice) (a : Nat) (f : Fld) : (s.clearF a f).fills = s.fills := rfl
@[simp] theorem Slice.clearF_txns (s : Slice) (a : Nat) (f : Fld) : (s.clearF a f).txns = s.txns := rfl
@[simp] theorem Slice.clearF_txnWait (s : Slice) (a : Nat) (f : Fld) : (s.clearF a f).txnWait = s.txnWait := rfl
@[simp] theorem Slice.clearF_inputs (s : Slice) (a : Nat) (f : Fld) : (s.clearF a f).inputs = s.inputs := rfl
@[simp] theorem Slice.clearF_ahead (s : Slice) (a : Nat) (f : Fld) : (s.clearF a f).ahead = s.ahead := rfl
@[simp] theorem Slice.clearF_regWait (s : Slice) (a : Nat) (f : Fld) : (s.clearF a f).regWait = s.regWait := rfl
@[simp] theorem Slice.clearF_rxCred (s : Slice) (a : Nat) (f : Fld) : (s.clearF a f).rxCred = s.rxCred := rfl
@[simp] theorem Slice.clearF_txCred (s : Slice) (a : Nat) (f : Fld) : (s.clearF a f).txCred = s.txCred := rfl
@[simp] theorem Slice.clearF_egress (s : Slice) (a : Nat) (f : Fld) : (s.clearF a f).egress = s.egress := rfl
@[simp] theorem Slice.clearF_sent (s : Slice) (a : Nat) (f : Fld) : (s.clearF a f).sent = s.sent := rfl
@[simp] theorem Slice.clearF_eports (s : Slice) (a : Nat) (f : Fld) : (s.clearF a f).eports = s.eports := rfl
@[simp] theorem Slice.clearF_fillRegs (s : Slice) (a : Nat) (f : Fld) : (s.clearF a f).fillRegs = s.fillRegs := rfl
@[simp] theorem Slice.clearF_winFc (s : Slice) (a : Nat) (f : Fld) : (s.clearF a f).winFc = s.winFc := rfl
@[simp] theorem Slice.clearF_damperDue (s : Slice) (a : Nat) (f : Fld) : (s.clearF a f).damperDue = s.damperDue := rfl
@[simp] theorem Slice.clearF_pinOps (s : Slice) (a : Nat) (f : Fld) : (s.clearF a f).pinOps = s.pinOps := rfl
@[simp] theorem Slice.clearF_fan (s : Slice) (a : Nat) (f : Fld) : (s.clearF a f).fan = s.fan := rfl
@[simp] theorem Slice.clearF_foCred (s : Slice) (a : Nat) (f : Fld) : (s.clearF a f).foCred = s.foCred := rfl
@[simp] theorem Slice.clearF_foSoon (s : Slice) (a : Nat) (f : Fld) : (s.clearF a f).foSoon = s.foSoon := rfl
@[simp] theorem Slice.clearF_foPort (s : Slice) (a : Nat) (f : Fld) : (s.clearF a f).foPort = s.foPort := rfl
@[simp] theorem Slice.clearF_anchors (s : Slice) (a : Nat) (f : Fld) : (s.clearF a f).anchors = s.anchors := rfl
@[simp] theorem Slice.clearF_waiters (s : Slice) (a : Nat) (f : Fld) : (s.clearF a f).waiters = s.waiters := rfl
@[simp] theorem Slice.clearF_drains (s : Slice) (a : Nat) (f : Fld) : (s.clearF a f).drains = s.drains := rfl
@[simp] theorem Slice.clearF_releases (s : Slice) (a : Nat) (f : Fld) : (s.clearF a f).releases = s.releases := rfl
@[simp] theorem Slice.clearF_walks (s : Slice) (a : Nat) (f : Fld) : (s.clearF a f).walks = s.walks := rfl
@[simp] theorem Slice.clearF_relFlush (s : Slice) (a : Nat) (f : Fld) : (s.clearF a f).relFlush = s.relFlush := rfl
@[simp] theorem Slice.clearF_relWait (s : Slice) (a : Nat) (f : Fld) : (s.clearF a f).relWait = s.relWait := rfl
@[simp] theorem Slice.clearF_capture (s : Slice) (a : Nat) (f : Fld) : (s.clearF a f).capture = s.capture := rfl
@[simp] theorem Slice.clearF_timeBase (s : Slice) (a : Nat) (f : Fld) : (s.clearF a f).timeBase = s.timeBase := rfl
@[simp] theorem Slice.clearF_outLat (s : Slice) (a : Nat) (f : Fld) : (s.clearF a f).outLat = s.outLat := rfl
@[simp] theorem Slice.clearF_relLast (s : Slice) (a : Nat) (f : Fld) : (s.clearF a f).relLast = s.relLast := rfl
@[simp] theorem Slice.clearF_hashFree (s : Slice) (a : Nat) (f : Fld) : (s.clearF a f).hashFree = s.hashFree := rfl
@[simp] theorem Slice.clearF_harvests (s : Slice) (a : Nat) (f : Fld) : (s.clearF a f).harvests = s.harvests := rfl
@[simp] theorem Slice.clearF_drainPtr (s : Slice) (a : Nat) (f : Fld) : (s.clearF a f).drainPtr = s.drainPtr := rfl
@[simp] theorem Slice.clearF_shelfSeq (s : Slice) (a : Nat) (f : Fld) : (s.clearF a f).shelfSeq = s.shelfSeq := rfl
@[simp] theorem Slice.clearF_grantsTotal (s : Slice) (a : Nat) (f : Fld) : (s.clearF a f).grantsTotal = s.grantsTotal := rfl
@[simp] theorem Slice.clearF_errLog (s : Slice) (a : Nat) (f : Fld) : (s.clearF a f).errLog = s.errLog := rfl
@[simp] theorem Slice.clearF_repairs0 (s : Slice) (a : Nat) (f : Fld) : (s.clearF a f).repairs0 = s.repairs0 := rfl
@[simp] theorem Slice.clearF_repairs1 (s : Slice) (a : Nat) (f : Fld) : (s.clearF a f).repairs1 = s.repairs1 := rfl
@[simp] theorem Slice.clearF_quarantine (s : Slice) (a : Nat) (f : Fld) : (s.clearF a f).quarantine = s.quarantine := rfl
@[simp] theorem Slice.clearF_rtLate (s : Slice) (a : Nat) (f : Fld) : (s.clearF a f).rtLate = s.rtLate := rfl
@[simp] theorem Slice.clearF_lostKeys (s : Slice) (a : Nat) (f : Fld) : (s.clearF a f).lostKeys = s.lostKeys := rfl
@[simp] theorem Slice.clearF_patrols (s : Slice) (a : Nat) (f : Fld) : (s.clearF a f).patrols = s.patrols := rfl
@[simp] theorem Slice.clearF_defers (s : Slice) (a : Nat) (f : Fld) : (s.clearF a f).defers = s.defers := rfl
@[simp] theorem Slice.clearF_sparing (s : Slice) (a : Nat) (f : Fld) : (s.clearF a f).sparing = s.sparing := rfl
@[simp] theorem Slice.clearF_save (s : Slice) (a : Nat) (f : Fld) : (s.clearF a f).save = s.save := rfl
@[simp] theorem Slice.clearF_gov (s : Slice) (a : Nat) (f : Fld) : (s.clearF a f).gov = s.gov := rfl
@[simp] theorem Slice.clearF_age (s : Slice) (a : Nat) (f : Fld) : (s.clearF a f).age = s.age := rfl
@[simp] theorem Slice.clearF_half0 (s : Slice) (a : Nat) (f : Fld) : (s.clearF a f).half0 = s.half0 := rfl
@[simp] theorem Slice.clearF_half1 (s : Slice) (a : Nat) (f : Fld) : (s.clearF a f).half1 = s.half1 := rfl
@[simp] theorem Slice.clearF_ring (s : Slice) (a : Nat) (f : Fld) : (s.clearF a f).ring = s.ring := rfl
@[simp] theorem Slice.clearF_board (s : Slice) (a : Nat) (f : Fld) : (s.clearF a f).board = s.board := rfl
@[simp] theorem Slice.clearF_start (s : Slice) (a : Nat) (f : Fld) : (s.clearF a f).start = s.start := rfl
@[simp] theorem Slice.clearF_tap (s : Slice) (a : Nat) (f : Fld) : (s.clearF a f).tap = s.tap := rfl
@[simp] theorem Slice.clearF_pins (s : Slice) (a : Nat) (f : Fld) : (s.clearF a f).pins = s.pins := rfl
@[simp] theorem Slice.clearF_at_bank (s : Slice) (a : Nat) (f : Fld) (i : Nat) : (s.clearF a f).bank i = s.bank i := rfl
@[simp] theorem Slice.clearF_at_rxHeld (s : Slice) (a : Nat) (f : Fld) (j : Port) (e : Cls) : (s.clearF a f).rxHeld j e = s.rxHeld j e := rfl
@[simp] theorem Slice.clearF_at_half (s : Slice) (a : Nat) (f : Fld) (h : Nat) : (s.clearF a f).half h = s.half h := rfl

/-! ### bump -/

@[simp] theorem Slice.bump_fc (s : Slice) (a : Nat) (f : Fld) (n : Nat) : (s.bump a f n).fc = s.fc := rfl
@[simp] theorem Slice.bump_ansPort (s : Slice) (a : Nat) (f : Fld) (n : Nat) : (s.bump a f n).ansPort = s.ansPort := rfl
@[simp] theorem Slice.bump_refs (s : Slice) (a : Nat) (f : Fld) (n : Nat) : (s.bump a f n).refs = s.refs := rfl
@[simp] theorem Slice.bump_frac (s : Slice) (a : Nat) (f : Fld) (n : Nat) : (s.bump a f n).frac = s.frac := rfl
@[simp] theorem Slice.bump_count (s : Slice) (a : Nat) (f : Fld) (n : Nat) : (s.bump a f n).count = s.count := rfl
@[simp] theorem Slice.bump_freqHi (s : Slice) (a : Nat) (f : Fld) (n : Nat) : (s.bump a f n).freqHi = s.freqHi := rfl
@[simp] theorem Slice.bump_fresh (s : Slice) (a : Nat) (f : Fld) (n : Nat) : (s.bump a f n).fresh = s.fresh := rfl
@[simp] theorem Slice.bump_wroteRegs (s : Slice) (a : Nat) (f : Fld) (n : Nat) : (s.bump a f n).wroteRegs = s.wroteRegs := rfl
@[simp] theorem Slice.bump_pcWas (s : Slice) (a : Nat) (f : Fld) (n : Nat) : (s.bump a f n).pcWas = s.pcWas := rfl
@[simp] theorem Slice.bump_homeMap (s : Slice) (a : Nat) (f : Fld) (n : Nat) : (s.bump a f n).homeMap = s.homeMap := rfl
@[simp] theorem Slice.bump_hmCrc (s : Slice) (a : Nat) (f : Fld) (n : Nat) : (s.bump a f n).hmCrc = s.hmCrc := rfl
@[simp] theorem Slice.bump_frames (s : Slice) (a : Nat) (f : Fld) (n : Nat) : (s.bump a f n).frames = s.frames := rfl
@[simp] theorem Slice.bump_repl (s : Slice) (a : Nat) (f : Fld) (n : Nat) : (s.bump a f n).repl = s.repl := rfl
@[simp] theorem Slice.bump_victims (s : Slice) (a : Nat) (f : Fld) (n : Nat) : (s.bump a f n).victims = s.victims := rfl
@[simp] theorem Slice.bump_ledger (s : Slice) (a : Nat) (f : Fld) (n : Nat) : (s.bump a f n).ledger = s.ledger := rfl
@[simp] theorem Slice.bump_flips (s : Slice) (a : Nat) (f : Fld) (n : Nat) : (s.bump a f n).flips = s.flips := rfl
@[simp] theorem Slice.bump_injAt (s : Slice) (a : Nat) (f : Fld) (n : Nat) : (s.bump a f n).injAt = s.injAt := rfl
@[simp] theorem Slice.bump_banks (s : Slice) (a : Nat) (f : Fld) (n : Nat) : (s.bump a f n).banks = s.banks := rfl
@[simp] theorem Slice.bump_regPtr (s : Slice) (a : Nat) (f : Fld) (n : Nat) : (s.bump a f n).regPtr = s.regPtr := rfl
@[simp] theorem Slice.bump_regFree (s : Slice) (a : Nat) (f : Fld) (n : Nat) : (s.bump a f n).regFree = s.regFree := rfl
@[simp] theorem Slice.bump_tdAt (s : Slice) (a : Nat) (f : Fld) (n : Nat) : (s.bump a f n).tdAt = s.tdAt := rfl
@[simp] theorem Slice.bump_tdReq (s : Slice) (a : Nat) (f : Fld) (n : Nat) : (s.bump a f n).tdReq = s.tdReq := rfl
@[simp] theorem Slice.bump_fills (s : Slice) (a : Nat) (f : Fld) (n : Nat) : (s.bump a f n).fills = s.fills := rfl
@[simp] theorem Slice.bump_txns (s : Slice) (a : Nat) (f : Fld) (n : Nat) : (s.bump a f n).txns = s.txns := rfl
@[simp] theorem Slice.bump_txnWait (s : Slice) (a : Nat) (f : Fld) (n : Nat) : (s.bump a f n).txnWait = s.txnWait := rfl
@[simp] theorem Slice.bump_inputs (s : Slice) (a : Nat) (f : Fld) (n : Nat) : (s.bump a f n).inputs = s.inputs := rfl
@[simp] theorem Slice.bump_ahead (s : Slice) (a : Nat) (f : Fld) (n : Nat) : (s.bump a f n).ahead = s.ahead := rfl
@[simp] theorem Slice.bump_regWait (s : Slice) (a : Nat) (f : Fld) (n : Nat) : (s.bump a f n).regWait = s.regWait := rfl
@[simp] theorem Slice.bump_rxCred (s : Slice) (a : Nat) (f : Fld) (n : Nat) : (s.bump a f n).rxCred = s.rxCred := rfl
@[simp] theorem Slice.bump_txCred (s : Slice) (a : Nat) (f : Fld) (n : Nat) : (s.bump a f n).txCred = s.txCred := rfl
@[simp] theorem Slice.bump_egress (s : Slice) (a : Nat) (f : Fld) (n : Nat) : (s.bump a f n).egress = s.egress := rfl
@[simp] theorem Slice.bump_sent (s : Slice) (a : Nat) (f : Fld) (n : Nat) : (s.bump a f n).sent = s.sent := rfl
@[simp] theorem Slice.bump_eports (s : Slice) (a : Nat) (f : Fld) (n : Nat) : (s.bump a f n).eports = s.eports := rfl
@[simp] theorem Slice.bump_fillRegs (s : Slice) (a : Nat) (f : Fld) (n : Nat) : (s.bump a f n).fillRegs = s.fillRegs := rfl
@[simp] theorem Slice.bump_winFc (s : Slice) (a : Nat) (f : Fld) (n : Nat) : (s.bump a f n).winFc = s.winFc := rfl
@[simp] theorem Slice.bump_damperDue (s : Slice) (a : Nat) (f : Fld) (n : Nat) : (s.bump a f n).damperDue = s.damperDue := rfl
@[simp] theorem Slice.bump_pinOps (s : Slice) (a : Nat) (f : Fld) (n : Nat) : (s.bump a f n).pinOps = s.pinOps := rfl
@[simp] theorem Slice.bump_fan (s : Slice) (a : Nat) (f : Fld) (n : Nat) : (s.bump a f n).fan = s.fan := rfl
@[simp] theorem Slice.bump_foCred (s : Slice) (a : Nat) (f : Fld) (n : Nat) : (s.bump a f n).foCred = s.foCred := rfl
@[simp] theorem Slice.bump_foSoon (s : Slice) (a : Nat) (f : Fld) (n : Nat) : (s.bump a f n).foSoon = s.foSoon := rfl
@[simp] theorem Slice.bump_foPort (s : Slice) (a : Nat) (f : Fld) (n : Nat) : (s.bump a f n).foPort = s.foPort := rfl
@[simp] theorem Slice.bump_anchors (s : Slice) (a : Nat) (f : Fld) (n : Nat) : (s.bump a f n).anchors = s.anchors := rfl
@[simp] theorem Slice.bump_waiters (s : Slice) (a : Nat) (f : Fld) (n : Nat) : (s.bump a f n).waiters = s.waiters := rfl
@[simp] theorem Slice.bump_drains (s : Slice) (a : Nat) (f : Fld) (n : Nat) : (s.bump a f n).drains = s.drains := rfl
@[simp] theorem Slice.bump_releases (s : Slice) (a : Nat) (f : Fld) (n : Nat) : (s.bump a f n).releases = s.releases := rfl
@[simp] theorem Slice.bump_walks (s : Slice) (a : Nat) (f : Fld) (n : Nat) : (s.bump a f n).walks = s.walks := rfl
@[simp] theorem Slice.bump_relFlush (s : Slice) (a : Nat) (f : Fld) (n : Nat) : (s.bump a f n).relFlush = s.relFlush := rfl
@[simp] theorem Slice.bump_relWait (s : Slice) (a : Nat) (f : Fld) (n : Nat) : (s.bump a f n).relWait = s.relWait := rfl
@[simp] theorem Slice.bump_capture (s : Slice) (a : Nat) (f : Fld) (n : Nat) : (s.bump a f n).capture = s.capture := rfl
@[simp] theorem Slice.bump_timeBase (s : Slice) (a : Nat) (f : Fld) (n : Nat) : (s.bump a f n).timeBase = s.timeBase := rfl
@[simp] theorem Slice.bump_outLat (s : Slice) (a : Nat) (f : Fld) (n : Nat) : (s.bump a f n).outLat = s.outLat := rfl
@[simp] theorem Slice.bump_relLast (s : Slice) (a : Nat) (f : Fld) (n : Nat) : (s.bump a f n).relLast = s.relLast := rfl
@[simp] theorem Slice.bump_hashFree (s : Slice) (a : Nat) (f : Fld) (n : Nat) : (s.bump a f n).hashFree = s.hashFree := rfl
@[simp] theorem Slice.bump_harvests (s : Slice) (a : Nat) (f : Fld) (n : Nat) : (s.bump a f n).harvests = s.harvests := rfl
@[simp] theorem Slice.bump_drainPtr (s : Slice) (a : Nat) (f : Fld) (n : Nat) : (s.bump a f n).drainPtr = s.drainPtr := rfl
@[simp] theorem Slice.bump_shelfSeq (s : Slice) (a : Nat) (f : Fld) (n : Nat) : (s.bump a f n).shelfSeq = s.shelfSeq := rfl
@[simp] theorem Slice.bump_grantsTotal (s : Slice) (a : Nat) (f : Fld) (n : Nat) : (s.bump a f n).grantsTotal = s.grantsTotal := rfl
@[simp] theorem Slice.bump_errLog (s : Slice) (a : Nat) (f : Fld) (n : Nat) : (s.bump a f n).errLog = s.errLog := rfl
@[simp] theorem Slice.bump_repairs0 (s : Slice) (a : Nat) (f : Fld) (n : Nat) : (s.bump a f n).repairs0 = s.repairs0 := rfl
@[simp] theorem Slice.bump_repairs1 (s : Slice) (a : Nat) (f : Fld) (n : Nat) : (s.bump a f n).repairs1 = s.repairs1 := rfl
@[simp] theorem Slice.bump_quarantine (s : Slice) (a : Nat) (f : Fld) (n : Nat) : (s.bump a f n).quarantine = s.quarantine := rfl
@[simp] theorem Slice.bump_rtLate (s : Slice) (a : Nat) (f : Fld) (n : Nat) : (s.bump a f n).rtLate = s.rtLate := rfl
@[simp] theorem Slice.bump_lostKeys (s : Slice) (a : Nat) (f : Fld) (n : Nat) : (s.bump a f n).lostKeys = s.lostKeys := rfl
@[simp] theorem Slice.bump_patrols (s : Slice) (a : Nat) (f : Fld) (n : Nat) : (s.bump a f n).patrols = s.patrols := rfl
@[simp] theorem Slice.bump_defers (s : Slice) (a : Nat) (f : Fld) (n : Nat) : (s.bump a f n).defers = s.defers := rfl
@[simp] theorem Slice.bump_sparing (s : Slice) (a : Nat) (f : Fld) (n : Nat) : (s.bump a f n).sparing = s.sparing := rfl
@[simp] theorem Slice.bump_save (s : Slice) (a : Nat) (f : Fld) (n : Nat) : (s.bump a f n).save = s.save := rfl
@[simp] theorem Slice.bump_gov (s : Slice) (a : Nat) (f : Fld) (n : Nat) : (s.bump a f n).gov = s.gov := rfl
@[simp] theorem Slice.bump_age (s : Slice) (a : Nat) (f : Fld) (n : Nat) : (s.bump a f n).age = s.age := rfl
@[simp] theorem Slice.bump_half0 (s : Slice) (a : Nat) (f : Fld) (n : Nat) : (s.bump a f n).half0 = s.half0 := rfl
@[simp] theorem Slice.bump_half1 (s : Slice) (a : Nat) (f : Fld) (n : Nat) : (s.bump a f n).half1 = s.half1 := rfl
@[simp] theorem Slice.bump_ring (s : Slice) (a : Nat) (f : Fld) (n : Nat) : (s.bump a f n).ring = s.ring := rfl
@[simp] theorem Slice.bump_board (s : Slice) (a : Nat) (f : Fld) (n : Nat) : (s.bump a f n).board = s.board := rfl
@[simp] theorem Slice.bump_start (s : Slice) (a : Nat) (f : Fld) (n : Nat) : (s.bump a f n).start = s.start := rfl
@[simp] theorem Slice.bump_tap (s : Slice) (a : Nat) (f : Fld) (n : Nat) : (s.bump a f n).tap = s.tap := rfl
@[simp] theorem Slice.bump_pins (s : Slice) (a : Nat) (f : Fld) (n : Nat) : (s.bump a f n).pins = s.pins := rfl
@[simp] theorem Slice.bump_at_bank (s : Slice) (a : Nat) (f : Fld) (n : Nat) (i : Nat) : (s.bump a f n).bank i = s.bank i := rfl
@[simp] theorem Slice.bump_at_rxHeld (s : Slice) (a : Nat) (f : Fld) (n : Nat) (j : Port) (e : Cls) : (s.bump a f n).rxHeld j e = s.rxHeld j e := rfl
@[simp] theorem Slice.bump_at_half (s : Slice) (a : Nat) (f : Fld) (n : Nat) (h : Nat) : (s.bump a f n).half h = s.half h := rfl

/-! ### raiseMgmt -/

@[simp] theorem Slice.raiseMgmt_fc (s : Slice) : (s.raiseMgmt).fc = s.fc := rfl
@[simp] theorem Slice.raiseMgmt_ansPort (s : Slice) : (s.raiseMgmt).ansPort = s.ansPort := rfl
@[simp] theorem Slice.raiseMgmt_refs (s : Slice) : (s.raiseMgmt).refs = s.refs := rfl
@[simp] theorem Slice.raiseMgmt_frac (s : Slice) : (s.raiseMgmt).frac = s.frac := rfl
@[simp] theorem Slice.raiseMgmt_count (s : Slice) : (s.raiseMgmt).count = s.count := rfl
@[simp] theorem Slice.raiseMgmt_freqHi (s : Slice) : (s.raiseMgmt).freqHi = s.freqHi := rfl
@[simp] theorem Slice.raiseMgmt_fresh (s : Slice) : (s.raiseMgmt).fresh = s.fresh := rfl
@[simp] theorem Slice.raiseMgmt_regs (s : Slice) : (s.raiseMgmt).regs = s.regs := rfl
@[simp] theorem Slice.raiseMgmt_now (s : Slice) : (s.raiseMgmt).now = s.now := rfl
@[simp] theorem Slice.raiseMgmt_wroteRegs (s : Slice) : (s.raiseMgmt).wroteRegs = s.wroteRegs := rfl
@[simp] theorem Slice.raiseMgmt_pcWas (s : Slice) : (s.raiseMgmt).pcWas = s.pcWas := rfl
@[simp] theorem Slice.raiseMgmt_homeMap (s : Slice) : (s.raiseMgmt).homeMap = s.homeMap := rfl
@[simp] theorem Slice.raiseMgmt_hmCrc (s : Slice) : (s.raiseMgmt).hmCrc = s.hmCrc := rfl
@[simp] theorem Slice.raiseMgmt_frames (s : Slice) : (s.raiseMgmt).frames = s.frames := rfl
@[simp] theorem Slice.raiseMgmt_repl (s : Slice) : (s.raiseMgmt).repl = s.repl := rfl
@[simp] theorem Slice.raiseMgmt_victims (s : Slice) : (s.raiseMgmt).victims = s.victims := rfl
@[simp] theorem Slice.raiseMgmt_ledger (s : Slice) : (s.raiseMgmt).ledger = s.ledger := rfl
@[simp] theorem Slice.raiseMgmt_flips (s : Slice) : (s.raiseMgmt).flips = s.flips := rfl
@[simp] theorem Slice.raiseMgmt_injAt (s : Slice) : (s.raiseMgmt).injAt = s.injAt := rfl
@[simp] theorem Slice.raiseMgmt_banks (s : Slice) : (s.raiseMgmt).banks = s.banks := rfl
@[simp] theorem Slice.raiseMgmt_regPtr (s : Slice) : (s.raiseMgmt).regPtr = s.regPtr := rfl
@[simp] theorem Slice.raiseMgmt_regFree (s : Slice) : (s.raiseMgmt).regFree = s.regFree := rfl
@[simp] theorem Slice.raiseMgmt_tdAt (s : Slice) : (s.raiseMgmt).tdAt = s.tdAt := rfl
@[simp] theorem Slice.raiseMgmt_tdReq (s : Slice) : (s.raiseMgmt).tdReq = s.tdReq := rfl
@[simp] theorem Slice.raiseMgmt_fills (s : Slice) : (s.raiseMgmt).fills = s.fills := rfl
@[simp] theorem Slice.raiseMgmt_txns (s : Slice) : (s.raiseMgmt).txns = s.txns := rfl
@[simp] theorem Slice.raiseMgmt_txnWait (s : Slice) : (s.raiseMgmt).txnWait = s.txnWait := rfl
@[simp] theorem Slice.raiseMgmt_inputs (s : Slice) : (s.raiseMgmt).inputs = s.inputs := rfl
@[simp] theorem Slice.raiseMgmt_ahead (s : Slice) : (s.raiseMgmt).ahead = s.ahead := rfl
@[simp] theorem Slice.raiseMgmt_regWait (s : Slice) : (s.raiseMgmt).regWait = s.regWait := rfl
@[simp] theorem Slice.raiseMgmt_rxCred (s : Slice) : (s.raiseMgmt).rxCred = s.rxCred := rfl
@[simp] theorem Slice.raiseMgmt_txCred (s : Slice) : (s.raiseMgmt).txCred = s.txCred := rfl
@[simp] theorem Slice.raiseMgmt_egress (s : Slice) : (s.raiseMgmt).egress = s.egress := rfl
@[simp] theorem Slice.raiseMgmt_sent (s : Slice) : (s.raiseMgmt).sent = s.sent := rfl
@[simp] theorem Slice.raiseMgmt_eports (s : Slice) : (s.raiseMgmt).eports = s.eports := rfl
@[simp] theorem Slice.raiseMgmt_fillRegs (s : Slice) : (s.raiseMgmt).fillRegs = s.fillRegs := rfl
@[simp] theorem Slice.raiseMgmt_winFc (s : Slice) : (s.raiseMgmt).winFc = s.winFc := rfl
@[simp] theorem Slice.raiseMgmt_damperDue (s : Slice) : (s.raiseMgmt).damperDue = s.damperDue := rfl
@[simp] theorem Slice.raiseMgmt_pinOps (s : Slice) : (s.raiseMgmt).pinOps = s.pinOps := rfl
@[simp] theorem Slice.raiseMgmt_fan (s : Slice) : (s.raiseMgmt).fan = s.fan := rfl
@[simp] theorem Slice.raiseMgmt_foCred (s : Slice) : (s.raiseMgmt).foCred = s.foCred := rfl
@[simp] theorem Slice.raiseMgmt_foSoon (s : Slice) : (s.raiseMgmt).foSoon = s.foSoon := rfl
@[simp] theorem Slice.raiseMgmt_foPort (s : Slice) : (s.raiseMgmt).foPort = s.foPort := rfl
@[simp] theorem Slice.raiseMgmt_anchors (s : Slice) : (s.raiseMgmt).anchors = s.anchors := rfl
@[simp] theorem Slice.raiseMgmt_waiters (s : Slice) : (s.raiseMgmt).waiters = s.waiters := rfl
@[simp] theorem Slice.raiseMgmt_drains (s : Slice) : (s.raiseMgmt).drains = s.drains := rfl
@[simp] theorem Slice.raiseMgmt_releases (s : Slice) : (s.raiseMgmt).releases = s.releases := rfl
@[simp] theorem Slice.raiseMgmt_walks (s : Slice) : (s.raiseMgmt).walks = s.walks := rfl
@[simp] theorem Slice.raiseMgmt_relFlush (s : Slice) : (s.raiseMgmt).relFlush = s.relFlush := rfl
@[simp] theorem Slice.raiseMgmt_relWait (s : Slice) : (s.raiseMgmt).relWait = s.relWait := rfl
@[simp] theorem Slice.raiseMgmt_capture (s : Slice) : (s.raiseMgmt).capture = s.capture := rfl
@[simp] theorem Slice.raiseMgmt_timeBase (s : Slice) : (s.raiseMgmt).timeBase = s.timeBase := rfl
@[simp] theorem Slice.raiseMgmt_outLat (s : Slice) : (s.raiseMgmt).outLat = s.outLat := rfl
@[simp] theorem Slice.raiseMgmt_relLast (s : Slice) : (s.raiseMgmt).relLast = s.relLast := rfl
@[simp] theorem Slice.raiseMgmt_hashFree (s : Slice) : (s.raiseMgmt).hashFree = s.hashFree := rfl
@[simp] theorem Slice.raiseMgmt_harvests (s : Slice) : (s.raiseMgmt).harvests = s.harvests := rfl
@[simp] theorem Slice.raiseMgmt_drainPtr (s : Slice) : (s.raiseMgmt).drainPtr = s.drainPtr := rfl
@[simp] theorem Slice.raiseMgmt_shelfSeq (s : Slice) : (s.raiseMgmt).shelfSeq = s.shelfSeq := rfl
@[simp] theorem Slice.raiseMgmt_grantsTotal (s : Slice) : (s.raiseMgmt).grantsTotal = s.grantsTotal := rfl
@[simp] theorem Slice.raiseMgmt_errLog (s : Slice) : (s.raiseMgmt).errLog = s.errLog := rfl
@[simp] theorem Slice.raiseMgmt_repairs0 (s : Slice) : (s.raiseMgmt).repairs0 = s.repairs0 := rfl
@[simp] theorem Slice.raiseMgmt_repairs1 (s : Slice) : (s.raiseMgmt).repairs1 = s.repairs1 := rfl
@[simp] theorem Slice.raiseMgmt_quarantine (s : Slice) : (s.raiseMgmt).quarantine = s.quarantine := rfl
@[simp] theorem Slice.raiseMgmt_rtLate (s : Slice) : (s.raiseMgmt).rtLate = s.rtLate := rfl
@[simp] theorem Slice.raiseMgmt_lostKeys (s : Slice) : (s.raiseMgmt).lostKeys = s.lostKeys := rfl
@[simp] theorem Slice.raiseMgmt_patrols (s : Slice) : (s.raiseMgmt).patrols = s.patrols := rfl
@[simp] theorem Slice.raiseMgmt_defers (s : Slice) : (s.raiseMgmt).defers = s.defers := rfl
@[simp] theorem Slice.raiseMgmt_sparing (s : Slice) : (s.raiseMgmt).sparing = s.sparing := rfl
@[simp] theorem Slice.raiseMgmt_save (s : Slice) : (s.raiseMgmt).save = s.save := rfl
@[simp] theorem Slice.raiseMgmt_gov (s : Slice) : (s.raiseMgmt).gov = s.gov := rfl
@[simp] theorem Slice.raiseMgmt_age (s : Slice) : (s.raiseMgmt).age = s.age := rfl
@[simp] theorem Slice.raiseMgmt_half0 (s : Slice) : (s.raiseMgmt).half0 = s.half0 := rfl
@[simp] theorem Slice.raiseMgmt_half1 (s : Slice) : (s.raiseMgmt).half1 = s.half1 := rfl
@[simp] theorem Slice.raiseMgmt_ring (s : Slice) : (s.raiseMgmt).ring = s.ring := rfl
@[simp] theorem Slice.raiseMgmt_board (s : Slice) : (s.raiseMgmt).board = s.board := rfl
@[simp] theorem Slice.raiseMgmt_start (s : Slice) : (s.raiseMgmt).start = s.start := rfl
@[simp] theorem Slice.raiseMgmt_tap (s : Slice) : (s.raiseMgmt).tap = s.tap := rfl
@[simp] theorem Slice.raiseMgmt_at_reg (s : Slice) (i : Nat) : (s.raiseMgmt).reg i = s.reg i := rfl
@[simp] theorem Slice.raiseMgmt_at_bank (s : Slice) (i : Nat) : (s.raiseMgmt).bank i = s.bank i := rfl
@[simp] theorem Slice.raiseMgmt_at_rxHeld (s : Slice) (j : Port) (e : Cls) : (s.raiseMgmt).rxHeld j e = s.rxHeld j e := rfl
@[simp] theorem Slice.raiseMgmt_at_half (s : Slice) (h : Nat) : (s.raiseMgmt).half h = s.half h := rfl

/-! ### setBankS -/

@[simp] theorem Slice.setBankS_fc (s : Slice) (k : Nat) (b : Bank) : (s.setBankS k b).fc = s.fc := rfl
@[simp] theorem Slice.setBankS_ansPort (s : Slice) (k : Nat) (b : Bank) : (s.setBankS k b).ansPort = s.ansPort := rfl
@[simp] theorem Slice.setBankS_refs (s : Slice) (k : Nat) (b : Bank) : (s.setBankS k b).refs = s.refs := rfl
@[simp] theorem Slice.setBankS_frac (s : Slice) (k : Nat) (b : Bank) : (s.setBankS k b).frac = s.frac := rfl
@[simp] theorem Slice.setBankS_count (s : Slice) (k : Nat) (b : Bank) : (s.setBankS k b).count = s.count := rfl
@[simp] theorem Slice.setBankS_freqHi (s : Slice) (k : Nat) (b : Bank) : (s.setBankS k b).freqHi = s.freqHi := rfl
@[simp] theorem Slice.setBankS_fresh (s : Slice) (k : Nat) (b : Bank) : (s.setBankS k b).fresh = s.fresh := rfl
@[simp] theorem Slice.setBankS_regs (s : Slice) (k : Nat) (b : Bank) : (s.setBankS k b).regs = s.regs := rfl
@[simp] theorem Slice.setBankS_now (s : Slice) (k : Nat) (b : Bank) : (s.setBankS k b).now = s.now := rfl
@[simp] theorem Slice.setBankS_wroteRegs (s : Slice) (k : Nat) (b : Bank) : (s.setBankS k b).wroteRegs = s.wroteRegs := rfl
@[simp] theorem Slice.setBankS_pcWas (s : Slice) (k : Nat) (b : Bank) : (s.setBankS k b).pcWas = s.pcWas := rfl
@[simp] theorem Slice.setBankS_homeMap (s : Slice) (k : Nat) (b : Bank) : (s.setBankS k b).homeMap = s.homeMap := rfl
@[simp] theorem Slice.setBankS_hmCrc (s : Slice) (k : Nat) (b : Bank) : (s.setBankS k b).hmCrc = s.hmCrc := rfl
@[simp] theorem Slice.setBankS_frames (s : Slice) (k : Nat) (b : Bank) : (s.setBankS k b).frames = s.frames := rfl
@[simp] theorem Slice.setBankS_repl (s : Slice) (k : Nat) (b : Bank) : (s.setBankS k b).repl = s.repl := rfl
@[simp] theorem Slice.setBankS_victims (s : Slice) (k : Nat) (b : Bank) : (s.setBankS k b).victims = s.victims := rfl
@[simp] theorem Slice.setBankS_ledger (s : Slice) (k : Nat) (b : Bank) : (s.setBankS k b).ledger = s.ledger := rfl
@[simp] theorem Slice.setBankS_flips (s : Slice) (k : Nat) (b : Bank) : (s.setBankS k b).flips = s.flips := rfl
@[simp] theorem Slice.setBankS_injAt (s : Slice) (k : Nat) (b : Bank) : (s.setBankS k b).injAt = s.injAt := rfl
@[simp] theorem Slice.setBankS_regPtr (s : Slice) (k : Nat) (b : Bank) : (s.setBankS k b).regPtr = s.regPtr := rfl
@[simp] theorem Slice.setBankS_regFree (s : Slice) (k : Nat) (b : Bank) : (s.setBankS k b).regFree = s.regFree := rfl
@[simp] theorem Slice.setBankS_tdAt (s : Slice) (k : Nat) (b : Bank) : (s.setBankS k b).tdAt = s.tdAt := rfl
@[simp] theorem Slice.setBankS_tdReq (s : Slice) (k : Nat) (b : Bank) : (s.setBankS k b).tdReq = s.tdReq := rfl
@[simp] theorem Slice.setBankS_fills (s : Slice) (k : Nat) (b : Bank) : (s.setBankS k b).fills = s.fills := rfl
@[simp] theorem Slice.setBankS_txns (s : Slice) (k : Nat) (b : Bank) : (s.setBankS k b).txns = s.txns := rfl
@[simp] theorem Slice.setBankS_txnWait (s : Slice) (k : Nat) (b : Bank) : (s.setBankS k b).txnWait = s.txnWait := rfl
@[simp] theorem Slice.setBankS_inputs (s : Slice) (k : Nat) (b : Bank) : (s.setBankS k b).inputs = s.inputs := rfl
@[simp] theorem Slice.setBankS_ahead (s : Slice) (k : Nat) (b : Bank) : (s.setBankS k b).ahead = s.ahead := rfl
@[simp] theorem Slice.setBankS_regWait (s : Slice) (k : Nat) (b : Bank) : (s.setBankS k b).regWait = s.regWait := rfl
@[simp] theorem Slice.setBankS_rxCred (s : Slice) (k : Nat) (b : Bank) : (s.setBankS k b).rxCred = s.rxCred := rfl
@[simp] theorem Slice.setBankS_txCred (s : Slice) (k : Nat) (b : Bank) : (s.setBankS k b).txCred = s.txCred := rfl
@[simp] theorem Slice.setBankS_egress (s : Slice) (k : Nat) (b : Bank) : (s.setBankS k b).egress = s.egress := rfl
@[simp] theorem Slice.setBankS_sent (s : Slice) (k : Nat) (b : Bank) : (s.setBankS k b).sent = s.sent := rfl
@[simp] theorem Slice.setBankS_eports (s : Slice) (k : Nat) (b : Bank) : (s.setBankS k b).eports = s.eports := rfl
@[simp] theorem Slice.setBankS_fillRegs (s : Slice) (k : Nat) (b : Bank) : (s.setBankS k b).fillRegs = s.fillRegs := rfl
@[simp] theorem Slice.setBankS_winFc (s : Slice) (k : Nat) (b : Bank) : (s.setBankS k b).winFc = s.winFc := rfl
@[simp] theorem Slice.setBankS_damperDue (s : Slice) (k : Nat) (b : Bank) : (s.setBankS k b).damperDue = s.damperDue := rfl
@[simp] theorem Slice.setBankS_pinOps (s : Slice) (k : Nat) (b : Bank) : (s.setBankS k b).pinOps = s.pinOps := rfl
@[simp] theorem Slice.setBankS_fan (s : Slice) (k : Nat) (b : Bank) : (s.setBankS k b).fan = s.fan := rfl
@[simp] theorem Slice.setBankS_foCred (s : Slice) (k : Nat) (b : Bank) : (s.setBankS k b).foCred = s.foCred := rfl
@[simp] theorem Slice.setBankS_foSoon (s : Slice) (k : Nat) (b : Bank) : (s.setBankS k b).foSoon = s.foSoon := rfl
@[simp] theorem Slice.setBankS_foPort (s : Slice) (k : Nat) (b : Bank) : (s.setBankS k b).foPort = s.foPort := rfl
@[simp] theorem Slice.setBankS_anchors (s : Slice) (k : Nat) (b : Bank) : (s.setBankS k b).anchors = s.anchors := rfl
@[simp] theorem Slice.setBankS_waiters (s : Slice) (k : Nat) (b : Bank) : (s.setBankS k b).waiters = s.waiters := rfl
@[simp] theorem Slice.setBankS_drains (s : Slice) (k : Nat) (b : Bank) : (s.setBankS k b).drains = s.drains := rfl
@[simp] theorem Slice.setBankS_releases (s : Slice) (k : Nat) (b : Bank) : (s.setBankS k b).releases = s.releases := rfl
@[simp] theorem Slice.setBankS_walks (s : Slice) (k : Nat) (b : Bank) : (s.setBankS k b).walks = s.walks := rfl
@[simp] theorem Slice.setBankS_relFlush (s : Slice) (k : Nat) (b : Bank) : (s.setBankS k b).relFlush = s.relFlush := rfl
@[simp] theorem Slice.setBankS_relWait (s : Slice) (k : Nat) (b : Bank) : (s.setBankS k b).relWait = s.relWait := rfl
@[simp] theorem Slice.setBankS_capture (s : Slice) (k : Nat) (b : Bank) : (s.setBankS k b).capture = s.capture := rfl
@[simp] theorem Slice.setBankS_timeBase (s : Slice) (k : Nat) (b : Bank) : (s.setBankS k b).timeBase = s.timeBase := rfl
@[simp] theorem Slice.setBankS_outLat (s : Slice) (k : Nat) (b : Bank) : (s.setBankS k b).outLat = s.outLat := rfl
@[simp] theorem Slice.setBankS_relLast (s : Slice) (k : Nat) (b : Bank) : (s.setBankS k b).relLast = s.relLast := rfl
@[simp] theorem Slice.setBankS_hashFree (s : Slice) (k : Nat) (b : Bank) : (s.setBankS k b).hashFree = s.hashFree := rfl
@[simp] theorem Slice.setBankS_harvests (s : Slice) (k : Nat) (b : Bank) : (s.setBankS k b).harvests = s.harvests := rfl
@[simp] theorem Slice.setBankS_drainPtr (s : Slice) (k : Nat) (b : Bank) : (s.setBankS k b).drainPtr = s.drainPtr := rfl
@[simp] theorem Slice.setBankS_shelfSeq (s : Slice) (k : Nat) (b : Bank) : (s.setBankS k b).shelfSeq = s.shelfSeq := rfl
@[simp] theorem Slice.setBankS_grantsTotal (s : Slice) (k : Nat) (b : Bank) : (s.setBankS k b).grantsTotal = s.grantsTotal := rfl
@[simp] theorem Slice.setBankS_errLog (s : Slice) (k : Nat) (b : Bank) : (s.setBankS k b).errLog = s.errLog := rfl
@[simp] theorem Slice.setBankS_repairs0 (s : Slice) (k : Nat) (b : Bank) : (s.setBankS k b).repairs0 = s.repairs0 := rfl
@[simp] theorem Slice.setBankS_repairs1 (s : Slice) (k : Nat) (b : Bank) : (s.setBankS k b).repairs1 = s.repairs1 := rfl
@[simp] theorem Slice.setBankS_quarantine (s : Slice) (k : Nat) (b : Bank) : (s.setBankS k b).quarantine = s.quarantine := rfl
@[simp] theorem Slice.setBankS_rtLate (s : Slice) (k : Nat) (b : Bank) : (s.setBankS k b).rtLate = s.rtLate := rfl
@[simp] theorem Slice.setBankS_lostKeys (s : Slice) (k : Nat) (b : Bank) : (s.setBankS k b).lostKeys = s.lostKeys := rfl
@[simp] theorem Slice.setBankS_patrols (s : Slice) (k : Nat) (b : Bank) : (s.setBankS k b).patrols = s.patrols := rfl
@[simp] theorem Slice.setBankS_defers (s : Slice) (k : Nat) (b : Bank) : (s.setBankS k b).defers = s.defers := rfl
@[simp] theorem Slice.setBankS_sparing (s : Slice) (k : Nat) (b : Bank) : (s.setBankS k b).sparing = s.sparing := rfl
@[simp] theorem Slice.setBankS_save (s : Slice) (k : Nat) (b : Bank) : (s.setBankS k b).save = s.save := rfl
@[simp] theorem Slice.setBankS_gov (s : Slice) (k : Nat) (b : Bank) : (s.setBankS k b).gov = s.gov := rfl
@[simp] theorem Slice.setBankS_age (s : Slice) (k : Nat) (b : Bank) : (s.setBankS k b).age = s.age := rfl
@[simp] theorem Slice.setBankS_half0 (s : Slice) (k : Nat) (b : Bank) : (s.setBankS k b).half0 = s.half0 := rfl
@[simp] theorem Slice.setBankS_half1 (s : Slice) (k : Nat) (b : Bank) : (s.setBankS k b).half1 = s.half1 := rfl
@[simp] theorem Slice.setBankS_ring (s : Slice) (k : Nat) (b : Bank) : (s.setBankS k b).ring = s.ring := rfl
@[simp] theorem Slice.setBankS_board (s : Slice) (k : Nat) (b : Bank) : (s.setBankS k b).board = s.board := rfl
@[simp] theorem Slice.setBankS_start (s : Slice) (k : Nat) (b : Bank) : (s.setBankS k b).start = s.start := rfl
@[simp] theorem Slice.setBankS_tap (s : Slice) (k : Nat) (b : Bank) : (s.setBankS k b).tap = s.tap := rfl
@[simp] theorem Slice.setBankS_pins (s : Slice) (k : Nat) (b : Bank) : (s.setBankS k b).pins = s.pins := rfl
@[simp] theorem Slice.setBankS_at_reg (s : Slice) (k : Nat) (b : Bank) (i : Nat) : (s.setBankS k b).reg i = s.reg i := rfl
@[simp] theorem Slice.setBankS_at_rxHeld (s : Slice) (k : Nat) (b : Bank) (j : Port) (e : Cls) : (s.setBankS k b).rxHeld j e = s.rxHeld j e := rfl
@[simp] theorem Slice.setBankS_at_half (s : Slice) (k : Nat) (b : Bank) (h : Nat) : (s.setBankS k b).half h = s.half h := rfl

/-! ### modBank -/

@[simp] theorem Slice.modBank_fc (s : Slice) (k : Nat) (g : Bank → Bank) : (s.modBank k g).fc = s.fc := rfl
@[simp] theorem Slice.modBank_ansPort (s : Slice) (k : Nat) (g : Bank → Bank) : (s.modBank k g).ansPort = s.ansPort := rfl
@[simp] theorem Slice.modBank_refs (s : Slice) (k : Nat) (g : Bank → Bank) : (s.modBank k g).refs = s.refs := rfl
@[simp] theorem Slice.modBank_frac (s : Slice) (k : Nat) (g : Bank → Bank) : (s.modBank k g).frac = s.frac := rfl
@[simp] theorem Slice.modBank_count (s : Slice) (k : Nat) (g : Bank → Bank) : (s.modBank k g).count = s.count := rfl
@[simp] theorem Slice.modBank_freqHi (s : Slice) (k : Nat) (g : Bank → Bank) : (s.modBank k g).freqHi = s.freqHi := rfl
@[simp] theorem Slice.modBank_fresh (s : Slice) (k : Nat) (g : Bank → Bank) : (s.modBank k g).fresh = s.fresh := rfl
@[simp] theorem Slice.modBank_regs (s : Slice) (k : Nat) (g : Bank → Bank) : (s.modBank k g).regs = s.regs := rfl
@[simp] theorem Slice.modBank_now (s : Slice) (k : Nat) (g : Bank → Bank) : (s.modBank k g).now = s.now := rfl
@[simp] theorem Slice.modBank_wroteRegs (s : Slice) (k : Nat) (g : Bank → Bank) : (s.modBank k g).wroteRegs = s.wroteRegs := rfl
@[simp] theorem Slice.modBank_pcWas (s : Slice) (k : Nat) (g : Bank → Bank) : (s.modBank k g).pcWas = s.pcWas := rfl
@[simp] theorem Slice.modBank_homeMap (s : Slice) (k : Nat) (g : Bank → Bank) : (s.modBank k g).homeMap = s.homeMap := rfl
@[simp] theorem Slice.modBank_hmCrc (s : Slice) (k : Nat) (g : Bank → Bank) : (s.modBank k g).hmCrc = s.hmCrc := rfl
@[simp] theorem Slice.modBank_frames (s : Slice) (k : Nat) (g : Bank → Bank) : (s.modBank k g).frames = s.frames := rfl
@[simp] theorem Slice.modBank_repl (s : Slice) (k : Nat) (g : Bank → Bank) : (s.modBank k g).repl = s.repl := rfl
@[simp] theorem Slice.modBank_victims (s : Slice) (k : Nat) (g : Bank → Bank) : (s.modBank k g).victims = s.victims := rfl
@[simp] theorem Slice.modBank_ledger (s : Slice) (k : Nat) (g : Bank → Bank) : (s.modBank k g).ledger = s.ledger := rfl
@[simp] theorem Slice.modBank_flips (s : Slice) (k : Nat) (g : Bank → Bank) : (s.modBank k g).flips = s.flips := rfl
@[simp] theorem Slice.modBank_injAt (s : Slice) (k : Nat) (g : Bank → Bank) : (s.modBank k g).injAt = s.injAt := rfl
@[simp] theorem Slice.modBank_regPtr (s : Slice) (k : Nat) (g : Bank → Bank) : (s.modBank k g).regPtr = s.regPtr := rfl
@[simp] theorem Slice.modBank_regFree (s : Slice) (k : Nat) (g : Bank → Bank) : (s.modBank k g).regFree = s.regFree := rfl
@[simp] theorem Slice.modBank_tdAt (s : Slice) (k : Nat) (g : Bank → Bank) : (s.modBank k g).tdAt = s.tdAt := rfl
@[simp] theorem Slice.modBank_tdReq (s : Slice) (k : Nat) (g : Bank → Bank) : (s.modBank k g).tdReq = s.tdReq := rfl
@[simp] theorem Slice.modBank_fills (s : Slice) (k : Nat) (g : Bank → Bank) : (s.modBank k g).fills = s.fills := rfl
@[simp] theorem Slice.modBank_txns (s : Slice) (k : Nat) (g : Bank → Bank) : (s.modBank k g).txns = s.txns := rfl
@[simp] theorem Slice.modBank_txnWait (s : Slice) (k : Nat) (g : Bank → Bank) : (s.modBank k g).txnWait = s.txnWait := rfl
@[simp] theorem Slice.modBank_inputs (s : Slice) (k : Nat) (g : Bank → Bank) : (s.modBank k g).inputs = s.inputs := rfl
@[simp] theorem Slice.modBank_ahead (s : Slice) (k : Nat) (g : Bank → Bank) : (s.modBank k g).ahead = s.ahead := rfl
@[simp] theorem Slice.modBank_regWait (s : Slice) (k : Nat) (g : Bank → Bank) : (s.modBank k g).regWait = s.regWait := rfl
@[simp] theorem Slice.modBank_rxCred (s : Slice) (k : Nat) (g : Bank → Bank) : (s.modBank k g).rxCred = s.rxCred := rfl
@[simp] theorem Slice.modBank_txCred (s : Slice) (k : Nat) (g : Bank → Bank) : (s.modBank k g).txCred = s.txCred := rfl
@[simp] theorem Slice.modBank_egress (s : Slice) (k : Nat) (g : Bank → Bank) : (s.modBank k g).egress = s.egress := rfl
@[simp] theorem Slice.modBank_sent (s : Slice) (k : Nat) (g : Bank → Bank) : (s.modBank k g).sent = s.sent := rfl
@[simp] theorem Slice.modBank_eports (s : Slice) (k : Nat) (g : Bank → Bank) : (s.modBank k g).eports = s.eports := rfl
@[simp] theorem Slice.modBank_fillRegs (s : Slice) (k : Nat) (g : Bank → Bank) : (s.modBank k g).fillRegs = s.fillRegs := rfl
@[simp] theorem Slice.modBank_winFc (s : Slice) (k : Nat) (g : Bank → Bank) : (s.modBank k g).winFc = s.winFc := rfl
@[simp] theorem Slice.modBank_damperDue (s : Slice) (k : Nat) (g : Bank → Bank) : (s.modBank k g).damperDue = s.damperDue := rfl
@[simp] theorem Slice.modBank_pinOps (s : Slice) (k : Nat) (g : Bank → Bank) : (s.modBank k g).pinOps = s.pinOps := rfl
@[simp] theorem Slice.modBank_fan (s : Slice) (k : Nat) (g : Bank → Bank) : (s.modBank k g).fan = s.fan := rfl
@[simp] theorem Slice.modBank_foCred (s : Slice) (k : Nat) (g : Bank → Bank) : (s.modBank k g).foCred = s.foCred := rfl
@[simp] theorem Slice.modBank_foSoon (s : Slice) (k : Nat) (g : Bank → Bank) : (s.modBank k g).foSoon = s.foSoon := rfl
@[simp] theorem Slice.modBank_foPort (s : Slice) (k : Nat) (g : Bank → Bank) : (s.modBank k g).foPort = s.foPort := rfl
@[simp] theorem Slice.modBank_anchors (s : Slice) (k : Nat) (g : Bank → Bank) : (s.modBank k g).anchors = s.anchors := rfl
@[simp] theorem Slice.modBank_waiters (s : Slice) (k : Nat) (g : Bank → Bank) : (s.modBank k g).waiters = s.waiters := rfl
@[simp] theorem Slice.modBank_drains (s : Slice) (k : Nat) (g : Bank → Bank) : (s.modBank k g).drains = s.drains := rfl
@[simp] theorem Slice.modBank_releases (s : Slice) (k : Nat) (g : Bank → Bank) : (s.modBank k g).releases = s.releases := rfl
@[simp] theorem Slice.modBank_walks (s : Slice) (k : Nat) (g : Bank → Bank) : (s.modBank k g).walks = s.walks := rfl
@[simp] theorem Slice.modBank_relFlush (s : Slice) (k : Nat) (g : Bank → Bank) : (s.modBank k g).relFlush = s.relFlush := rfl
@[simp] theorem Slice.modBank_relWait (s : Slice) (k : Nat) (g : Bank → Bank) : (s.modBank k g).relWait = s.relWait := rfl
@[simp] theorem Slice.modBank_capture (s : Slice) (k : Nat) (g : Bank → Bank) : (s.modBank k g).capture = s.capture := rfl
@[simp] theorem Slice.modBank_timeBase (s : Slice) (k : Nat) (g : Bank → Bank) : (s.modBank k g).timeBase = s.timeBase := rfl
@[simp] theorem Slice.modBank_outLat (s : Slice) (k : Nat) (g : Bank → Bank) : (s.modBank k g).outLat = s.outLat := rfl
@[simp] theorem Slice.modBank_relLast (s : Slice) (k : Nat) (g : Bank → Bank) : (s.modBank k g).relLast = s.relLast := rfl
@[simp] theorem Slice.modBank_hashFree (s : Slice) (k : Nat) (g : Bank → Bank) : (s.modBank k g).hashFree = s.hashFree := rfl
@[simp] theorem Slice.modBank_harvests (s : Slice) (k : Nat) (g : Bank → Bank) : (s.modBank k g).harvests = s.harvests := rfl
@[simp] theorem Slice.modBank_drainPtr (s : Slice) (k : Nat) (g : Bank → Bank) : (s.modBank k g).drainPtr = s.drainPtr := rfl
@[simp] theorem Slice.modBank_shelfSeq (s : Slice) (k : Nat) (g : Bank → Bank) : (s.modBank k g).shelfSeq = s.shelfSeq := rfl
@[simp] theorem Slice.modBank_grantsTotal (s : Slice) (k : Nat) (g : Bank → Bank) : (s.modBank k g).grantsTotal = s.grantsTotal := rfl
@[simp] theorem Slice.modBank_errLog (s : Slice) (k : Nat) (g : Bank → Bank) : (s.modBank k g).errLog = s.errLog := rfl
@[simp] theorem Slice.modBank_repairs0 (s : Slice) (k : Nat) (g : Bank → Bank) : (s.modBank k g).repairs0 = s.repairs0 := rfl
@[simp] theorem Slice.modBank_repairs1 (s : Slice) (k : Nat) (g : Bank → Bank) : (s.modBank k g).repairs1 = s.repairs1 := rfl
@[simp] theorem Slice.modBank_quarantine (s : Slice) (k : Nat) (g : Bank → Bank) : (s.modBank k g).quarantine = s.quarantine := rfl
@[simp] theorem Slice.modBank_rtLate (s : Slice) (k : Nat) (g : Bank → Bank) : (s.modBank k g).rtLate = s.rtLate := rfl
@[simp] theorem Slice.modBank_lostKeys (s : Slice) (k : Nat) (g : Bank → Bank) : (s.modBank k g).lostKeys = s.lostKeys := rfl
@[simp] theorem Slice.modBank_patrols (s : Slice) (k : Nat) (g : Bank → Bank) : (s.modBank k g).patrols = s.patrols := rfl
@[simp] theorem Slice.modBank_defers (s : Slice) (k : Nat) (g : Bank → Bank) : (s.modBank k g).defers = s.defers := rfl
@[simp] theorem Slice.modBank_sparing (s : Slice) (k : Nat) (g : Bank → Bank) : (s.modBank k g).sparing = s.sparing := rfl
@[simp] theorem Slice.modBank_save (s : Slice) (k : Nat) (g : Bank → Bank) : (s.modBank k g).save = s.save := rfl
@[simp] theorem Slice.modBank_gov (s : Slice) (k : Nat) (g : Bank → Bank) : (s.modBank k g).gov = s.gov := rfl
@[simp] theorem Slice.modBank_age (s : Slice) (k : Nat) (g : Bank → Bank) : (s.modBank k g).age = s.age := rfl
@[simp] theorem Slice.modBank_half0 (s : Slice) (k : Nat) (g : Bank → Bank) : (s.modBank k g).half0 = s.half0 := rfl
@[simp] theorem Slice.modBank_half1 (s : Slice) (k : Nat) (g : Bank → Bank) : (s.modBank k g).half1 = s.half1 := rfl
@[simp] theorem Slice.modBank_ring (s : Slice) (k : Nat) (g : Bank → Bank) : (s.modBank k g).ring = s.ring := rfl
@[simp] theorem Slice.modBank_board (s : Slice) (k : Nat) (g : Bank → Bank) : (s.modBank k g).board = s.board := rfl
@[simp] theorem Slice.modBank_start (s : Slice) (k : Nat) (g : Bank → Bank) : (s.modBank k g).start = s.start := rfl
@[simp] theorem Slice.modBank_tap (s : Slice) (k : Nat) (g : Bank → Bank) : (s.modBank k g).tap = s.tap := rfl
@[simp] theorem Slice.modBank_pins (s : Slice) (k : Nat) (g : Bank → Bank) : (s.modBank k g).pins = s.pins := rfl
@[simp] theorem Slice.modBank_at_reg (s : Slice) (k : Nat) (g : Bank → Bank) (i : Nat) : (s.modBank k g).reg i = s.reg i := rfl
@[simp] theorem Slice.modBank_at_rxHeld (s : Slice) (k : Nat) (g : Bank → Bank) (j : Port) (e : Cls) : (s.modBank k g).rxHeld j e = s.rxHeld j e := rfl
@[simp] theorem Slice.modBank_at_half (s : Slice) (k : Nat) (g : Bank → Bank) (h : Nat) : (s.modBank k g).half h = s.half h := rfl

/-! ### addAct -/

@[simp] theorem Slice.addAct_fc (s : Slice) (k p n : Nat) : (s.addAct k p n).fc = s.fc := rfl
@[simp] theorem Slice.addAct_ansPort (s : Slice) (k p n : Nat) : (s.addAct k p n).ansPort = s.ansPort := rfl
@[simp] theorem Slice.addAct_refs (s : Slice) (k p n : Nat) : (s.addAct k p n).refs = s.refs := rfl
@[simp] theorem Slice.addAct_frac (s : Slice) (k p n : Nat) : (s.addAct k p n).frac = s.frac := rfl
@[simp] theorem Slice.addAct_count (s : Slice) (k p n : Nat) : (s.addAct k p n).count = s.count := rfl
@[simp] theorem Slice.addAct_freqHi (s : Slice) (k p n : Nat) : (s.addAct k p n).freqHi = s.freqHi := rfl
@[simp] theorem Slice.addAct_fresh (s : Slice) (k p n : Nat) : (s.addAct k p n).fresh = s.fresh := rfl
@[simp] theorem Slice.addAct_regs (s : Slice) (k p n : Nat) : (s.addAct k p n).regs = s.regs := rfl
@[simp] theorem Slice.addAct_now (s : Slice) (k p n : Nat) : (s.addAct k p n).now = s.now := rfl
@[simp] theorem Slice.addAct_wroteRegs (s : Slice) (k p n : Nat) : (s.addAct k p n).wroteRegs = s.wroteRegs := rfl
@[simp] theorem Slice.addAct_pcWas (s : Slice) (k p n : Nat) : (s.addAct k p n).pcWas = s.pcWas := rfl
@[simp] theorem Slice.addAct_homeMap (s : Slice) (k p n : Nat) : (s.addAct k p n).homeMap = s.homeMap := rfl
@[simp] theorem Slice.addAct_hmCrc (s : Slice) (k p n : Nat) : (s.addAct k p n).hmCrc = s.hmCrc := rfl
@[simp] theorem Slice.addAct_frames (s : Slice) (k p n : Nat) : (s.addAct k p n).frames = s.frames := rfl
@[simp] theorem Slice.addAct_repl (s : Slice) (k p n : Nat) : (s.addAct k p n).repl = s.repl := rfl
@[simp] theorem Slice.addAct_victims (s : Slice) (k p n : Nat) : (s.addAct k p n).victims = s.victims := rfl
@[simp] theorem Slice.addAct_ledger (s : Slice) (k p n : Nat) : (s.addAct k p n).ledger = s.ledger := rfl
@[simp] theorem Slice.addAct_flips (s : Slice) (k p n : Nat) : (s.addAct k p n).flips = s.flips := rfl
@[simp] theorem Slice.addAct_injAt (s : Slice) (k p n : Nat) : (s.addAct k p n).injAt = s.injAt := rfl
@[simp] theorem Slice.addAct_banks (s : Slice) (k p n : Nat) : (s.addAct k p n).banks = s.banks := rfl
@[simp] theorem Slice.addAct_regPtr (s : Slice) (k p n : Nat) : (s.addAct k p n).regPtr = s.regPtr := rfl
@[simp] theorem Slice.addAct_regFree (s : Slice) (k p n : Nat) : (s.addAct k p n).regFree = s.regFree := rfl
@[simp] theorem Slice.addAct_tdAt (s : Slice) (k p n : Nat) : (s.addAct k p n).tdAt = s.tdAt := rfl
@[simp] theorem Slice.addAct_tdReq (s : Slice) (k p n : Nat) : (s.addAct k p n).tdReq = s.tdReq := rfl
@[simp] theorem Slice.addAct_fills (s : Slice) (k p n : Nat) : (s.addAct k p n).fills = s.fills := rfl
@[simp] theorem Slice.addAct_txns (s : Slice) (k p n : Nat) : (s.addAct k p n).txns = s.txns := rfl
@[simp] theorem Slice.addAct_txnWait (s : Slice) (k p n : Nat) : (s.addAct k p n).txnWait = s.txnWait := rfl
@[simp] theorem Slice.addAct_inputs (s : Slice) (k p n : Nat) : (s.addAct k p n).inputs = s.inputs := rfl
@[simp] theorem Slice.addAct_ahead (s : Slice) (k p n : Nat) : (s.addAct k p n).ahead = s.ahead := rfl
@[simp] theorem Slice.addAct_regWait (s : Slice) (k p n : Nat) : (s.addAct k p n).regWait = s.regWait := rfl
@[simp] theorem Slice.addAct_rxCred (s : Slice) (k p n : Nat) : (s.addAct k p n).rxCred = s.rxCred := rfl
@[simp] theorem Slice.addAct_txCred (s : Slice) (k p n : Nat) : (s.addAct k p n).txCred = s.txCred := rfl
@[simp] theorem Slice.addAct_egress (s : Slice) (k p n : Nat) : (s.addAct k p n).egress = s.egress := rfl
@[simp] theorem Slice.addAct_sent (s : Slice) (k p n : Nat) : (s.addAct k p n).sent = s.sent := rfl
@[simp] theorem Slice.addAct_eports (s : Slice) (k p n : Nat) : (s.addAct k p n).eports = s.eports := rfl
@[simp] theorem Slice.addAct_fillRegs (s : Slice) (k p n : Nat) : (s.addAct k p n).fillRegs = s.fillRegs := rfl
@[simp] theorem Slice.addAct_winFc (s : Slice) (k p n : Nat) : (s.addAct k p n).winFc = s.winFc := rfl
@[simp] theorem Slice.addAct_damperDue (s : Slice) (k p n : Nat) : (s.addAct k p n).damperDue = s.damperDue := rfl
@[simp] theorem Slice.addAct_pinOps (s : Slice) (k p n : Nat) : (s.addAct k p n).pinOps = s.pinOps := rfl
@[simp] theorem Slice.addAct_fan (s : Slice) (k p n : Nat) : (s.addAct k p n).fan = s.fan := rfl
@[simp] theorem Slice.addAct_foCred (s : Slice) (k p n : Nat) : (s.addAct k p n).foCred = s.foCred := rfl
@[simp] theorem Slice.addAct_foSoon (s : Slice) (k p n : Nat) : (s.addAct k p n).foSoon = s.foSoon := rfl
@[simp] theorem Slice.addAct_foPort (s : Slice) (k p n : Nat) : (s.addAct k p n).foPort = s.foPort := rfl
@[simp] theorem Slice.addAct_anchors (s : Slice) (k p n : Nat) : (s.addAct k p n).anchors = s.anchors := rfl
@[simp] theorem Slice.addAct_waiters (s : Slice) (k p n : Nat) : (s.addAct k p n).waiters = s.waiters := rfl
@[simp] theorem Slice.addAct_drains (s : Slice) (k p n : Nat) : (s.addAct k p n).drains = s.drains := rfl
@[simp] theorem Slice.addAct_releases (s : Slice) (k p n : Nat) : (s.addAct k p n).releases = s.releases := rfl
@[simp] theorem Slice.addAct_walks (s : Slice) (k p n : Nat) : (s.addAct k p n).walks = s.walks := rfl
@[simp] theorem Slice.addAct_relFlush (s : Slice) (k p n : Nat) : (s.addAct k p n).relFlush = s.relFlush := rfl
@[simp] theorem Slice.addAct_relWait (s : Slice) (k p n : Nat) : (s.addAct k p n).relWait = s.relWait := rfl
@[simp] theorem Slice.addAct_capture (s : Slice) (k p n : Nat) : (s.addAct k p n).capture = s.capture := rfl
@[simp] theorem Slice.addAct_timeBase (s : Slice) (k p n : Nat) : (s.addAct k p n).timeBase = s.timeBase := rfl
@[simp] theorem Slice.addAct_outLat (s : Slice) (k p n : Nat) : (s.addAct k p n).outLat = s.outLat := rfl
@[simp] theorem Slice.addAct_relLast (s : Slice) (k p n : Nat) : (s.addAct k p n).relLast = s.relLast := rfl
@[simp] theorem Slice.addAct_hashFree (s : Slice) (k p n : Nat) : (s.addAct k p n).hashFree = s.hashFree := rfl
@[simp] theorem Slice.addAct_harvests (s : Slice) (k p n : Nat) : (s.addAct k p n).harvests = s.harvests := rfl
@[simp] theorem Slice.addAct_drainPtr (s : Slice) (k p n : Nat) : (s.addAct k p n).drainPtr = s.drainPtr := rfl
@[simp] theorem Slice.addAct_shelfSeq (s : Slice) (k p n : Nat) : (s.addAct k p n).shelfSeq = s.shelfSeq := rfl
@[simp] theorem Slice.addAct_grantsTotal (s : Slice) (k p n : Nat) : (s.addAct k p n).grantsTotal = s.grantsTotal := rfl
@[simp] theorem Slice.addAct_errLog (s : Slice) (k p n : Nat) : (s.addAct k p n).errLog = s.errLog := rfl
@[simp] theorem Slice.addAct_repairs0 (s : Slice) (k p n : Nat) : (s.addAct k p n).repairs0 = s.repairs0 := rfl
@[simp] theorem Slice.addAct_repairs1 (s : Slice) (k p n : Nat) : (s.addAct k p n).repairs1 = s.repairs1 := rfl
@[simp] theorem Slice.addAct_quarantine (s : Slice) (k p n : Nat) : (s.addAct k p n).quarantine = s.quarantine := rfl
@[simp] theorem Slice.addAct_rtLate (s : Slice) (k p n : Nat) : (s.addAct k p n).rtLate = s.rtLate := rfl
@[simp] theorem Slice.addAct_lostKeys (s : Slice) (k p n : Nat) : (s.addAct k p n).lostKeys = s.lostKeys := rfl
@[simp] theorem Slice.addAct_patrols (s : Slice) (k p n : Nat) : (s.addAct k p n).patrols = s.patrols := rfl
@[simp] theorem Slice.addAct_defers (s : Slice) (k p n : Nat) : (s.addAct k p n).defers = s.defers := rfl
@[simp] theorem Slice.addAct_sparing (s : Slice) (k p n : Nat) : (s.addAct k p n).sparing = s.sparing := rfl
@[simp] theorem Slice.addAct_save (s : Slice) (k p n : Nat) : (s.addAct k p n).save = s.save := rfl
@[simp] theorem Slice.addAct_age (s : Slice) (k p n : Nat) : (s.addAct k p n).age = s.age := rfl
@[simp] theorem Slice.addAct_half0 (s : Slice) (k p n : Nat) : (s.addAct k p n).half0 = s.half0 := rfl
@[simp] theorem Slice.addAct_half1 (s : Slice) (k p n : Nat) : (s.addAct k p n).half1 = s.half1 := rfl
@[simp] theorem Slice.addAct_ring (s : Slice) (k p n : Nat) : (s.addAct k p n).ring = s.ring := rfl
@[simp] theorem Slice.addAct_board (s : Slice) (k p n : Nat) : (s.addAct k p n).board = s.board := rfl
@[simp] theorem Slice.addAct_start (s : Slice) (k p n : Nat) : (s.addAct k p n).start = s.start := rfl
@[simp] theorem Slice.addAct_tap (s : Slice) (k p n : Nat) : (s.addAct k p n).tap = s.tap := rfl
@[simp] theorem Slice.addAct_pins (s : Slice) (k p n : Nat) : (s.addAct k p n).pins = s.pins := rfl
@[simp] theorem Slice.addAct_at_reg (s : Slice) (k p n : Nat) (i : Nat) : (s.addAct k p n).reg i = s.reg i := rfl
@[simp] theorem Slice.addAct_at_bank (s : Slice) (k p n : Nat) (i : Nat) : (s.addAct k p n).bank i = s.bank i := rfl
@[simp] theorem Slice.addAct_at_rxHeld (s : Slice) (k p n : Nat) (j : Port) (e : Cls) : (s.addAct k p n).rxHeld j e = s.rxHeld j e := rfl
@[simp] theorem Slice.addAct_at_half (s : Slice) (k p n : Nat) (h : Nat) : (s.addAct k p n).half h = s.half h := rfl

/-! ### emit -/

@[simp] theorem Slice.emit_fc (s : Slice) (p : Port) (due mclass : Nat) (payload : Bool) (m : Msg) : (s.emit p due mclass payload m).fc = s.fc := rfl
@[simp] theorem Slice.emit_ansPort (s : Slice) (p : Port) (due mclass : Nat) (payload : Bool) (m : Msg) : (s.emit p due mclass payload m).ansPort = s.ansPort := rfl
@[simp] theorem Slice.emit_refs (s : Slice) (p : Port) (due mclass : Nat) (payload : Bool) (m : Msg) : (s.emit p due mclass payload m).refs = s.refs := rfl
@[simp] theorem Slice.emit_frac (s : Slice) (p : Port) (due mclass : Nat) (payload : Bool) (m : Msg) : (s.emit p due mclass payload m).frac = s.frac := rfl
@[simp] theorem Slice.emit_count (s : Slice) (p : Port) (due mclass : Nat) (payload : Bool) (m : Msg) : (s.emit p due mclass payload m).count = s.count := rfl
@[simp] theorem Slice.emit_freqHi (s : Slice) (p : Port) (due mclass : Nat) (payload : Bool) (m : Msg) : (s.emit p due mclass payload m).freqHi = s.freqHi := rfl
@[simp] theorem Slice.emit_regs (s : Slice) (p : Port) (due mclass : Nat) (payload : Bool) (m : Msg) : (s.emit p due mclass payload m).regs = s.regs := rfl
@[simp] theorem Slice.emit_now (s : Slice) (p : Port) (due mclass : Nat) (payload : Bool) (m : Msg) : (s.emit p due mclass payload m).now = s.now := rfl
@[simp] theorem Slice.emit_wroteRegs (s : Slice) (p : Port) (due mclass : Nat) (payload : Bool) (m : Msg) : (s.emit p due mclass payload m).wroteRegs = s.wroteRegs := rfl
@[simp] theorem Slice.emit_pcWas (s : Slice) (p : Port) (due mclass : Nat) (payload : Bool) (m : Msg) : (s.emit p due mclass payload m).pcWas = s.pcWas := rfl
@[simp] theorem Slice.emit_homeMap (s : Slice) (p : Port) (due mclass : Nat) (payload : Bool) (m : Msg) : (s.emit p due mclass payload m).homeMap = s.homeMap := rfl
@[simp] theorem Slice.emit_hmCrc (s : Slice) (p : Port) (due mclass : Nat) (payload : Bool) (m : Msg) : (s.emit p due mclass payload m).hmCrc = s.hmCrc := rfl
@[simp] theorem Slice.emit_frames (s : Slice) (p : Port) (due mclass : Nat) (payload : Bool) (m : Msg) : (s.emit p due mclass payload m).frames = s.frames := rfl
@[simp] theorem Slice.emit_repl (s : Slice) (p : Port) (due mclass : Nat) (payload : Bool) (m : Msg) : (s.emit p due mclass payload m).repl = s.repl := rfl
@[simp] theorem Slice.emit_victims (s : Slice) (p : Port) (due mclass : Nat) (payload : Bool) (m : Msg) : (s.emit p due mclass payload m).victims = s.victims := rfl
@[simp] theorem Slice.emit_ledger (s : Slice) (p : Port) (due mclass : Nat) (payload : Bool) (m : Msg) : (s.emit p due mclass payload m).ledger = s.ledger := rfl
@[simp] theorem Slice.emit_flips (s : Slice) (p : Port) (due mclass : Nat) (payload : Bool) (m : Msg) : (s.emit p due mclass payload m).flips = s.flips := rfl
@[simp] theorem Slice.emit_injAt (s : Slice) (p : Port) (due mclass : Nat) (payload : Bool) (m : Msg) : (s.emit p due mclass payload m).injAt = s.injAt := rfl
@[simp] theorem Slice.emit_banks (s : Slice) (p : Port) (due mclass : Nat) (payload : Bool) (m : Msg) : (s.emit p due mclass payload m).banks = s.banks := rfl
@[simp] theorem Slice.emit_regPtr (s : Slice) (p : Port) (due mclass : Nat) (payload : Bool) (m : Msg) : (s.emit p due mclass payload m).regPtr = s.regPtr := rfl
@[simp] theorem Slice.emit_regFree (s : Slice) (p : Port) (due mclass : Nat) (payload : Bool) (m : Msg) : (s.emit p due mclass payload m).regFree = s.regFree := rfl
@[simp] theorem Slice.emit_tdAt (s : Slice) (p : Port) (due mclass : Nat) (payload : Bool) (m : Msg) : (s.emit p due mclass payload m).tdAt = s.tdAt := rfl
@[simp] theorem Slice.emit_tdReq (s : Slice) (p : Port) (due mclass : Nat) (payload : Bool) (m : Msg) : (s.emit p due mclass payload m).tdReq = s.tdReq := rfl
@[simp] theorem Slice.emit_fills (s : Slice) (p : Port) (due mclass : Nat) (payload : Bool) (m : Msg) : (s.emit p due mclass payload m).fills = s.fills := rfl
@[simp] theorem Slice.emit_txns (s : Slice) (p : Port) (due mclass : Nat) (payload : Bool) (m : Msg) : (s.emit p due mclass payload m).txns = s.txns := rfl
@[simp] theorem Slice.emit_txnWait (s : Slice) (p : Port) (due mclass : Nat) (payload : Bool) (m : Msg) : (s.emit p due mclass payload m).txnWait = s.txnWait := rfl
@[simp] theorem Slice.emit_inputs (s : Slice) (p : Port) (due mclass : Nat) (payload : Bool) (m : Msg) : (s.emit p due mclass payload m).inputs = s.inputs := rfl
@[simp] theorem Slice.emit_ahead (s : Slice) (p : Port) (due mclass : Nat) (payload : Bool) (m : Msg) : (s.emit p due mclass payload m).ahead = s.ahead := rfl
@[simp] theorem Slice.emit_regWait (s : Slice) (p : Port) (due mclass : Nat) (payload : Bool) (m : Msg) : (s.emit p due mclass payload m).regWait = s.regWait := rfl
@[simp] theorem Slice.emit_rxCred (s : Slice) (p : Port) (due mclass : Nat) (payload : Bool) (m : Msg) : (s.emit p due mclass payload m).rxCred = s.rxCred := rfl
@[simp] theorem Slice.emit_txCred (s : Slice) (p : Port) (due mclass : Nat) (payload : Bool) (m : Msg) : (s.emit p due mclass payload m).txCred = s.txCred := rfl
@[simp] theorem Slice.emit_sent (s : Slice) (p : Port) (due mclass : Nat) (payload : Bool) (m : Msg) : (s.emit p due mclass payload m).sent = s.sent := rfl
@[simp] theorem Slice.emit_eports (s : Slice) (p : Port) (due mclass : Nat) (payload : Bool) (m : Msg) : (s.emit p due mclass payload m).eports = s.eports := rfl
@[simp] theorem Slice.emit_fillRegs (s : Slice) (p : Port) (due mclass : Nat) (payload : Bool) (m : Msg) : (s.emit p due mclass payload m).fillRegs = s.fillRegs := rfl
@[simp] theorem Slice.emit_winFc (s : Slice) (p : Port) (due mclass : Nat) (payload : Bool) (m : Msg) : (s.emit p due mclass payload m).winFc = s.winFc := rfl
@[simp] theorem Slice.emit_damperDue (s : Slice) (p : Port) (due mclass : Nat) (payload : Bool) (m : Msg) : (s.emit p due mclass payload m).damperDue = s.damperDue := rfl
@[simp] theorem Slice.emit_pinOps (s : Slice) (p : Port) (due mclass : Nat) (payload : Bool) (m : Msg) : (s.emit p due mclass payload m).pinOps = s.pinOps := rfl
@[simp] theorem Slice.emit_fan (s : Slice) (p : Port) (due mclass : Nat) (payload : Bool) (m : Msg) : (s.emit p due mclass payload m).fan = s.fan := rfl
@[simp] theorem Slice.emit_foCred (s : Slice) (p : Port) (due mclass : Nat) (payload : Bool) (m : Msg) : (s.emit p due mclass payload m).foCred = s.foCred := rfl
@[simp] theorem Slice.emit_foSoon (s : Slice) (p : Port) (due mclass : Nat) (payload : Bool) (m : Msg) : (s.emit p due mclass payload m).foSoon = s.foSoon := rfl
@[simp] theorem Slice.emit_foPort (s : Slice) (p : Port) (due mclass : Nat) (payload : Bool) (m : Msg) : (s.emit p due mclass payload m).foPort = s.foPort := rfl
@[simp] theorem Slice.emit_anchors (s : Slice) (p : Port) (due mclass : Nat) (payload : Bool) (m : Msg) : (s.emit p due mclass payload m).anchors = s.anchors := rfl
@[simp] theorem Slice.emit_waiters (s : Slice) (p : Port) (due mclass : Nat) (payload : Bool) (m : Msg) : (s.emit p due mclass payload m).waiters = s.waiters := rfl
@[simp] theorem Slice.emit_drains (s : Slice) (p : Port) (due mclass : Nat) (payload : Bool) (m : Msg) : (s.emit p due mclass payload m).drains = s.drains := rfl
@[simp] theorem Slice.emit_releases (s : Slice) (p : Port) (due mclass : Nat) (payload : Bool) (m : Msg) : (s.emit p due mclass payload m).releases = s.releases := rfl
@[simp] theorem Slice.emit_walks (s : Slice) (p : Port) (due mclass : Nat) (payload : Bool) (m : Msg) : (s.emit p due mclass payload m).walks = s.walks := rfl
@[simp] theorem Slice.emit_relFlush (s : Slice) (p : Port) (due mclass : Nat) (payload : Bool) (m : Msg) : (s.emit p due mclass payload m).relFlush = s.relFlush := rfl
@[simp] theorem Slice.emit_relWait (s : Slice) (p : Port) (due mclass : Nat) (payload : Bool) (m : Msg) : (s.emit p due mclass payload m).relWait = s.relWait := rfl
@[simp] theorem Slice.emit_capture (s : Slice) (p : Port) (due mclass : Nat) (payload : Bool) (m : Msg) : (s.emit p due mclass payload m).capture = s.capture := rfl
@[simp] theorem Slice.emit_timeBase (s : Slice) (p : Port) (due mclass : Nat) (payload : Bool) (m : Msg) : (s.emit p due mclass payload m).timeBase = s.timeBase := rfl
@[simp] theorem Slice.emit_outLat (s : Slice) (p : Port) (due mclass : Nat) (payload : Bool) (m : Msg) : (s.emit p due mclass payload m).outLat = s.outLat := rfl
@[simp] theorem Slice.emit_relLast (s : Slice) (p : Port) (due mclass : Nat) (payload : Bool) (m : Msg) : (s.emit p due mclass payload m).relLast = s.relLast := rfl
@[simp] theorem Slice.emit_hashFree (s : Slice) (p : Port) (due mclass : Nat) (payload : Bool) (m : Msg) : (s.emit p due mclass payload m).hashFree = s.hashFree := rfl
@[simp] theorem Slice.emit_harvests (s : Slice) (p : Port) (due mclass : Nat) (payload : Bool) (m : Msg) : (s.emit p due mclass payload m).harvests = s.harvests := rfl
@[simp] theorem Slice.emit_drainPtr (s : Slice) (p : Port) (due mclass : Nat) (payload : Bool) (m : Msg) : (s.emit p due mclass payload m).drainPtr = s.drainPtr := rfl
@[simp] theorem Slice.emit_shelfSeq (s : Slice) (p : Port) (due mclass : Nat) (payload : Bool) (m : Msg) : (s.emit p due mclass payload m).shelfSeq = s.shelfSeq := rfl
@[simp] theorem Slice.emit_grantsTotal (s : Slice) (p : Port) (due mclass : Nat) (payload : Bool) (m : Msg) : (s.emit p due mclass payload m).grantsTotal = s.grantsTotal := rfl
@[simp] theorem Slice.emit_errLog (s : Slice) (p : Port) (due mclass : Nat) (payload : Bool) (m : Msg) : (s.emit p due mclass payload m).errLog = s.errLog := rfl
@[simp] theorem Slice.emit_repairs0 (s : Slice) (p : Port) (due mclass : Nat) (payload : Bool) (m : Msg) : (s.emit p due mclass payload m).repairs0 = s.repairs0 := rfl
@[simp] theorem Slice.emit_repairs1 (s : Slice) (p : Port) (due mclass : Nat) (payload : Bool) (m : Msg) : (s.emit p due mclass payload m).repairs1 = s.repairs1 := rfl
@[simp] theorem Slice.emit_quarantine (s : Slice) (p : Port) (due mclass : Nat) (payload : Bool) (m : Msg) : (s.emit p due mclass payload m).quarantine = s.quarantine := rfl
@[simp] theorem Slice.emit_rtLate (s : Slice) (p : Port) (due mclass : Nat) (payload : Bool) (m : Msg) : (s.emit p due mclass payload m).rtLate = s.rtLate := rfl
@[simp] theorem Slice.emit_lostKeys (s : Slice) (p : Port) (due mclass : Nat) (payload : Bool) (m : Msg) : (s.emit p due mclass payload m).lostKeys = s.lostKeys := rfl
@[simp] theorem Slice.emit_patrols (s : Slice) (p : Port) (due mclass : Nat) (payload : Bool) (m : Msg) : (s.emit p due mclass payload m).patrols = s.patrols := rfl
@[simp] theorem Slice.emit_defers (s : Slice) (p : Port) (due mclass : Nat) (payload : Bool) (m : Msg) : (s.emit p due mclass payload m).defers = s.defers := rfl
@[simp] theorem Slice.emit_sparing (s : Slice) (p : Port) (due mclass : Nat) (payload : Bool) (m : Msg) : (s.emit p due mclass payload m).sparing = s.sparing := rfl
@[simp] theorem Slice.emit_save (s : Slice) (p : Port) (due mclass : Nat) (payload : Bool) (m : Msg) : (s.emit p due mclass payload m).save = s.save := rfl
@[simp] theorem Slice.emit_gov (s : Slice) (p : Port) (due mclass : Nat) (payload : Bool) (m : Msg) : (s.emit p due mclass payload m).gov = s.gov := rfl
@[simp] theorem Slice.emit_age (s : Slice) (p : Port) (due mclass : Nat) (payload : Bool) (m : Msg) : (s.emit p due mclass payload m).age = s.age := rfl
@[simp] theorem Slice.emit_half0 (s : Slice) (p : Port) (due mclass : Nat) (payload : Bool) (m : Msg) : (s.emit p due mclass payload m).half0 = s.half0 := rfl
@[simp] theorem Slice.emit_half1 (s : Slice) (p : Port) (due mclass : Nat) (payload : Bool) (m : Msg) : (s.emit p due mclass payload m).half1 = s.half1 := rfl
@[simp] theorem Slice.emit_ring (s : Slice) (p : Port) (due mclass : Nat) (payload : Bool) (m : Msg) : (s.emit p due mclass payload m).ring = s.ring := rfl
@[simp] theorem Slice.emit_board (s : Slice) (p : Port) (due mclass : Nat) (payload : Bool) (m : Msg) : (s.emit p due mclass payload m).board = s.board := rfl
@[simp] theorem Slice.emit_start (s : Slice) (p : Port) (due mclass : Nat) (payload : Bool) (m : Msg) : (s.emit p due mclass payload m).start = s.start := rfl
@[simp] theorem Slice.emit_tap (s : Slice) (p : Port) (due mclass : Nat) (payload : Bool) (m : Msg) : (s.emit p due mclass payload m).tap = s.tap := rfl
@[simp] theorem Slice.emit_pins (s : Slice) (p : Port) (due mclass : Nat) (payload : Bool) (m : Msg) : (s.emit p due mclass payload m).pins = s.pins := rfl
@[simp] theorem Slice.emit_at_reg (s : Slice) (p : Port) (due mclass : Nat) (payload : Bool) (m : Msg) (i : Nat) : (s.emit p due mclass payload m).reg i = s.reg i := rfl
@[simp] theorem Slice.emit_at_bank (s : Slice) (p : Port) (due mclass : Nat) (payload : Bool) (m : Msg) (i : Nat) : (s.emit p due mclass payload m).bank i = s.bank i := rfl
@[simp] theorem Slice.emit_at_rxHeld (s : Slice) (p : Port) (due mclass : Nat) (payload : Bool) (m : Msg) (j : Port) (e : Cls) : (s.emit p due mclass payload m).rxHeld j e = s.rxHeld j e := rfl
@[simp] theorem Slice.emit_at_half (s : Slice) (p : Port) (due mclass : Nat) (payload : Bool) (m : Msg) (h : Nat) : (s.emit p due mclass payload m).half h = s.half h := rfl

/-! ### spendRx -/

@[simp] theorem Slice.spendRx_fc (s : Slice) (p : Port) (c : Cls) : (s.spendRx p c).fc = s.fc := rfl
@[simp] theorem Slice.spendRx_ansPort (s : Slice) (p : Port) (c : Cls) : (s.spendRx p c).ansPort = s.ansPort := rfl
@[simp] theorem Slice.spendRx_refs (s : Slice) (p : Port) (c : Cls) : (s.spendRx p c).refs = s.refs := rfl
@[simp] theorem Slice.spendRx_frac (s : Slice) (p : Port) (c : Cls) : (s.spendRx p c).frac = s.frac := rfl
@[simp] theorem Slice.spendRx_count (s : Slice) (p : Port) (c : Cls) : (s.spendRx p c).count = s.count := rfl
@[simp] theorem Slice.spendRx_freqHi (s : Slice) (p : Port) (c : Cls) : (s.spendRx p c).freqHi = s.freqHi := rfl
@[simp] theorem Slice.spendRx_fresh (s : Slice) (p : Port) (c : Cls) : (s.spendRx p c).fresh = s.fresh := rfl
@[simp] theorem Slice.spendRx_regs (s : Slice) (p : Port) (c : Cls) : (s.spendRx p c).regs = s.regs := rfl
@[simp] theorem Slice.spendRx_now (s : Slice) (p : Port) (c : Cls) : (s.spendRx p c).now = s.now := rfl
@[simp] theorem Slice.spendRx_wroteRegs (s : Slice) (p : Port) (c : Cls) : (s.spendRx p c).wroteRegs = s.wroteRegs := rfl
@[simp] theorem Slice.spendRx_pcWas (s : Slice) (p : Port) (c : Cls) : (s.spendRx p c).pcWas = s.pcWas := rfl
@[simp] theorem Slice.spendRx_homeMap (s : Slice) (p : Port) (c : Cls) : (s.spendRx p c).homeMap = s.homeMap := rfl
@[simp] theorem Slice.spendRx_hmCrc (s : Slice) (p : Port) (c : Cls) : (s.spendRx p c).hmCrc = s.hmCrc := rfl
@[simp] theorem Slice.spendRx_frames (s : Slice) (p : Port) (c : Cls) : (s.spendRx p c).frames = s.frames := rfl
@[simp] theorem Slice.spendRx_repl (s : Slice) (p : Port) (c : Cls) : (s.spendRx p c).repl = s.repl := rfl
@[simp] theorem Slice.spendRx_victims (s : Slice) (p : Port) (c : Cls) : (s.spendRx p c).victims = s.victims := rfl
@[simp] theorem Slice.spendRx_ledger (s : Slice) (p : Port) (c : Cls) : (s.spendRx p c).ledger = s.ledger := rfl
@[simp] theorem Slice.spendRx_flips (s : Slice) (p : Port) (c : Cls) : (s.spendRx p c).flips = s.flips := rfl
@[simp] theorem Slice.spendRx_injAt (s : Slice) (p : Port) (c : Cls) : (s.spendRx p c).injAt = s.injAt := rfl
@[simp] theorem Slice.spendRx_banks (s : Slice) (p : Port) (c : Cls) : (s.spendRx p c).banks = s.banks := rfl
@[simp] theorem Slice.spendRx_regPtr (s : Slice) (p : Port) (c : Cls) : (s.spendRx p c).regPtr = s.regPtr := rfl
@[simp] theorem Slice.spendRx_regFree (s : Slice) (p : Port) (c : Cls) : (s.spendRx p c).regFree = s.regFree := rfl
@[simp] theorem Slice.spendRx_tdAt (s : Slice) (p : Port) (c : Cls) : (s.spendRx p c).tdAt = s.tdAt := rfl
@[simp] theorem Slice.spendRx_tdReq (s : Slice) (p : Port) (c : Cls) : (s.spendRx p c).tdReq = s.tdReq := rfl
@[simp] theorem Slice.spendRx_fills (s : Slice) (p : Port) (c : Cls) : (s.spendRx p c).fills = s.fills := rfl
@[simp] theorem Slice.spendRx_txns (s : Slice) (p : Port) (c : Cls) : (s.spendRx p c).txns = s.txns := rfl
@[simp] theorem Slice.spendRx_txnWait (s : Slice) (p : Port) (c : Cls) : (s.spendRx p c).txnWait = s.txnWait := rfl
@[simp] theorem Slice.spendRx_inputs (s : Slice) (p : Port) (c : Cls) : (s.spendRx p c).inputs = s.inputs := rfl
@[simp] theorem Slice.spendRx_ahead (s : Slice) (p : Port) (c : Cls) : (s.spendRx p c).ahead = s.ahead := rfl
@[simp] theorem Slice.spendRx_regWait (s : Slice) (p : Port) (c : Cls) : (s.spendRx p c).regWait = s.regWait := rfl
@[simp] theorem Slice.spendRx_txCred (s : Slice) (p : Port) (c : Cls) : (s.spendRx p c).txCred = s.txCred := rfl
@[simp] theorem Slice.spendRx_egress (s : Slice) (p : Port) (c : Cls) : (s.spendRx p c).egress = s.egress := rfl
@[simp] theorem Slice.spendRx_sent (s : Slice) (p : Port) (c : Cls) : (s.spendRx p c).sent = s.sent := rfl
@[simp] theorem Slice.spendRx_eports (s : Slice) (p : Port) (c : Cls) : (s.spendRx p c).eports = s.eports := rfl
@[simp] theorem Slice.spendRx_fillRegs (s : Slice) (p : Port) (c : Cls) : (s.spendRx p c).fillRegs = s.fillRegs := rfl
@[simp] theorem Slice.spendRx_winFc (s : Slice) (p : Port) (c : Cls) : (s.spendRx p c).winFc = s.winFc := rfl
@[simp] theorem Slice.spendRx_damperDue (s : Slice) (p : Port) (c : Cls) : (s.spendRx p c).damperDue = s.damperDue := rfl
@[simp] theorem Slice.spendRx_pinOps (s : Slice) (p : Port) (c : Cls) : (s.spendRx p c).pinOps = s.pinOps := rfl
@[simp] theorem Slice.spendRx_fan (s : Slice) (p : Port) (c : Cls) : (s.spendRx p c).fan = s.fan := rfl
@[simp] theorem Slice.spendRx_foCred (s : Slice) (p : Port) (c : Cls) : (s.spendRx p c).foCred = s.foCred := rfl
@[simp] theorem Slice.spendRx_foSoon (s : Slice) (p : Port) (c : Cls) : (s.spendRx p c).foSoon = s.foSoon := rfl
@[simp] theorem Slice.spendRx_foPort (s : Slice) (p : Port) (c : Cls) : (s.spendRx p c).foPort = s.foPort := rfl
@[simp] theorem Slice.spendRx_anchors (s : Slice) (p : Port) (c : Cls) : (s.spendRx p c).anchors = s.anchors := rfl
@[simp] theorem Slice.spendRx_waiters (s : Slice) (p : Port) (c : Cls) : (s.spendRx p c).waiters = s.waiters := rfl
@[simp] theorem Slice.spendRx_drains (s : Slice) (p : Port) (c : Cls) : (s.spendRx p c).drains = s.drains := rfl
@[simp] theorem Slice.spendRx_releases (s : Slice) (p : Port) (c : Cls) : (s.spendRx p c).releases = s.releases := rfl
@[simp] theorem Slice.spendRx_walks (s : Slice) (p : Port) (c : Cls) : (s.spendRx p c).walks = s.walks := rfl
@[simp] theorem Slice.spendRx_relFlush (s : Slice) (p : Port) (c : Cls) : (s.spendRx p c).relFlush = s.relFlush := rfl
@[simp] theorem Slice.spendRx_relWait (s : Slice) (p : Port) (c : Cls) : (s.spendRx p c).relWait = s.relWait := rfl
@[simp] theorem Slice.spendRx_capture (s : Slice) (p : Port) (c : Cls) : (s.spendRx p c).capture = s.capture := rfl
@[simp] theorem Slice.spendRx_timeBase (s : Slice) (p : Port) (c : Cls) : (s.spendRx p c).timeBase = s.timeBase := rfl
@[simp] theorem Slice.spendRx_outLat (s : Slice) (p : Port) (c : Cls) : (s.spendRx p c).outLat = s.outLat := rfl
@[simp] theorem Slice.spendRx_relLast (s : Slice) (p : Port) (c : Cls) : (s.spendRx p c).relLast = s.relLast := rfl
@[simp] theorem Slice.spendRx_hashFree (s : Slice) (p : Port) (c : Cls) : (s.spendRx p c).hashFree = s.hashFree := rfl
@[simp] theorem Slice.spendRx_harvests (s : Slice) (p : Port) (c : Cls) : (s.spendRx p c).harvests = s.harvests := rfl
@[simp] theorem Slice.spendRx_drainPtr (s : Slice) (p : Port) (c : Cls) : (s.spendRx p c).drainPtr = s.drainPtr := rfl
@[simp] theorem Slice.spendRx_shelfSeq (s : Slice) (p : Port) (c : Cls) : (s.spendRx p c).shelfSeq = s.shelfSeq := rfl
@[simp] theorem Slice.spendRx_grantsTotal (s : Slice) (p : Port) (c : Cls) : (s.spendRx p c).grantsTotal = s.grantsTotal := rfl
@[simp] theorem Slice.spendRx_errLog (s : Slice) (p : Port) (c : Cls) : (s.spendRx p c).errLog = s.errLog := rfl
@[simp] theorem Slice.spendRx_repairs0 (s : Slice) (p : Port) (c : Cls) : (s.spendRx p c).repairs0 = s.repairs0 := rfl
@[simp] theorem Slice.spendRx_repairs1 (s : Slice) (p : Port) (c : Cls) : (s.spendRx p c).repairs1 = s.repairs1 := rfl
@[simp] theorem Slice.spendRx_quarantine (s : Slice) (p : Port) (c : Cls) : (s.spendRx p c).quarantine = s.quarantine := rfl
@[simp] theorem Slice.spendRx_rtLate (s : Slice) (p : Port) (c : Cls) : (s.spendRx p c).rtLate = s.rtLate := rfl
@[simp] theorem Slice.spendRx_lostKeys (s : Slice) (p : Port) (c : Cls) : (s.spendRx p c).lostKeys = s.lostKeys := rfl
@[simp] theorem Slice.spendRx_patrols (s : Slice) (p : Port) (c : Cls) : (s.spendRx p c).patrols = s.patrols := rfl
@[simp] theorem Slice.spendRx_defers (s : Slice) (p : Port) (c : Cls) : (s.spendRx p c).defers = s.defers := rfl
@[simp] theorem Slice.spendRx_sparing (s : Slice) (p : Port) (c : Cls) : (s.spendRx p c).sparing = s.sparing := rfl
@[simp] theorem Slice.spendRx_save (s : Slice) (p : Port) (c : Cls) : (s.spendRx p c).save = s.save := rfl
@[simp] theorem Slice.spendRx_gov (s : Slice) (p : Port) (c : Cls) : (s.spendRx p c).gov = s.gov := rfl
@[simp] theorem Slice.spendRx_age (s : Slice) (p : Port) (c : Cls) : (s.spendRx p c).age = s.age := rfl
@[simp] theorem Slice.spendRx_half0 (s : Slice) (p : Port) (c : Cls) : (s.spendRx p c).half0 = s.half0 := rfl
@[simp] theorem Slice.spendRx_half1 (s : Slice) (p : Port) (c : Cls) : (s.spendRx p c).half1 = s.half1 := rfl
@[simp] theorem Slice.spendRx_ring (s : Slice) (p : Port) (c : Cls) : (s.spendRx p c).ring = s.ring := rfl
@[simp] theorem Slice.spendRx_board (s : Slice) (p : Port) (c : Cls) : (s.spendRx p c).board = s.board := rfl
@[simp] theorem Slice.spendRx_start (s : Slice) (p : Port) (c : Cls) : (s.spendRx p c).start = s.start := rfl
@[simp] theorem Slice.spendRx_tap (s : Slice) (p : Port) (c : Cls) : (s.spendRx p c).tap = s.tap := rfl
@[simp] theorem Slice.spendRx_pins (s : Slice) (p : Port) (c : Cls) : (s.spendRx p c).pins = s.pins := rfl
@[simp] theorem Slice.spendRx_at_reg (s : Slice) (p : Port) (c : Cls) (i : Nat) : (s.spendRx p c).reg i = s.reg i := rfl
@[simp] theorem Slice.spendRx_at_bank (s : Slice) (p : Port) (c : Cls) (i : Nat) : (s.spendRx p c).bank i = s.bank i := rfl
@[simp] theorem Slice.spendRx_at_half (s : Slice) (p : Port) (c : Cls) (h : Nat) : (s.spendRx p c).half h = s.half h := rfl

/-! ### returnRx -/

@[simp] theorem Slice.returnRx_fc (s : Slice) (p : Port) (c : Cls) : (s.returnRx p c).fc = s.fc := rfl
@[simp] theorem Slice.returnRx_ansPort (s : Slice) (p : Port) (c : Cls) : (s.returnRx p c).ansPort = s.ansPort := rfl
@[simp] theorem Slice.returnRx_refs (s : Slice) (p : Port) (c : Cls) : (s.returnRx p c).refs = s.refs := rfl
@[simp] theorem Slice.returnRx_frac (s : Slice) (p : Port) (c : Cls) : (s.returnRx p c).frac = s.frac := rfl
@[simp] theorem Slice.returnRx_count (s : Slice) (p : Port) (c : Cls) : (s.returnRx p c).count = s.count := rfl
@[simp] theorem Slice.returnRx_freqHi (s : Slice) (p : Port) (c : Cls) : (s.returnRx p c).freqHi = s.freqHi := rfl
@[simp] theorem Slice.returnRx_fresh (s : Slice) (p : Port) (c : Cls) : (s.returnRx p c).fresh = s.fresh := rfl
@[simp] theorem Slice.returnRx_regs (s : Slice) (p : Port) (c : Cls) : (s.returnRx p c).regs = s.regs := rfl
@[simp] theorem Slice.returnRx_now (s : Slice) (p : Port) (c : Cls) : (s.returnRx p c).now = s.now := rfl
@[simp] theorem Slice.returnRx_wroteRegs (s : Slice) (p : Port) (c : Cls) : (s.returnRx p c).wroteRegs = s.wroteRegs := rfl
@[simp] theorem Slice.returnRx_pcWas (s : Slice) (p : Port) (c : Cls) : (s.returnRx p c).pcWas = s.pcWas := rfl
@[simp] theorem Slice.returnRx_homeMap (s : Slice) (p : Port) (c : Cls) : (s.returnRx p c).homeMap = s.homeMap := rfl
@[simp] theorem Slice.returnRx_hmCrc (s : Slice) (p : Port) (c : Cls) : (s.returnRx p c).hmCrc = s.hmCrc := rfl
@[simp] theorem Slice.returnRx_frames (s : Slice) (p : Port) (c : Cls) : (s.returnRx p c).frames = s.frames := rfl
@[simp] theorem Slice.returnRx_repl (s : Slice) (p : Port) (c : Cls) : (s.returnRx p c).repl = s.repl := rfl
@[simp] theorem Slice.returnRx_victims (s : Slice) (p : Port) (c : Cls) : (s.returnRx p c).victims = s.victims := rfl
@[simp] theorem Slice.returnRx_ledger (s : Slice) (p : Port) (c : Cls) : (s.returnRx p c).ledger = s.ledger := rfl
@[simp] theorem Slice.returnRx_flips (s : Slice) (p : Port) (c : Cls) : (s.returnRx p c).flips = s.flips := rfl
@[simp] theorem Slice.returnRx_injAt (s : Slice) (p : Port) (c : Cls) : (s.returnRx p c).injAt = s.injAt := rfl
@[simp] theorem Slice.returnRx_banks (s : Slice) (p : Port) (c : Cls) : (s.returnRx p c).banks = s.banks := rfl
@[simp] theorem Slice.returnRx_regPtr (s : Slice) (p : Port) (c : Cls) : (s.returnRx p c).regPtr = s.regPtr := rfl
@[simp] theorem Slice.returnRx_regFree (s : Slice) (p : Port) (c : Cls) : (s.returnRx p c).regFree = s.regFree := rfl
@[simp] theorem Slice.returnRx_tdAt (s : Slice) (p : Port) (c : Cls) : (s.returnRx p c).tdAt = s.tdAt := rfl
@[simp] theorem Slice.returnRx_tdReq (s : Slice) (p : Port) (c : Cls) : (s.returnRx p c).tdReq = s.tdReq := rfl
@[simp] theorem Slice.returnRx_fills (s : Slice) (p : Port) (c : Cls) : (s.returnRx p c).fills = s.fills := rfl
@[simp] theorem Slice.returnRx_txns (s : Slice) (p : Port) (c : Cls) : (s.returnRx p c).txns = s.txns := rfl
@[simp] theorem Slice.returnRx_txnWait (s : Slice) (p : Port) (c : Cls) : (s.returnRx p c).txnWait = s.txnWait := rfl
@[simp] theorem Slice.returnRx_inputs (s : Slice) (p : Port) (c : Cls) : (s.returnRx p c).inputs = s.inputs := rfl
@[simp] theorem Slice.returnRx_ahead (s : Slice) (p : Port) (c : Cls) : (s.returnRx p c).ahead = s.ahead := rfl
@[simp] theorem Slice.returnRx_regWait (s : Slice) (p : Port) (c : Cls) : (s.returnRx p c).regWait = s.regWait := rfl
@[simp] theorem Slice.returnRx_txCred (s : Slice) (p : Port) (c : Cls) : (s.returnRx p c).txCred = s.txCred := rfl
@[simp] theorem Slice.returnRx_egress (s : Slice) (p : Port) (c : Cls) : (s.returnRx p c).egress = s.egress := rfl
@[simp] theorem Slice.returnRx_sent (s : Slice) (p : Port) (c : Cls) : (s.returnRx p c).sent = s.sent := rfl
@[simp] theorem Slice.returnRx_eports (s : Slice) (p : Port) (c : Cls) : (s.returnRx p c).eports = s.eports := rfl
@[simp] theorem Slice.returnRx_fillRegs (s : Slice) (p : Port) (c : Cls) : (s.returnRx p c).fillRegs = s.fillRegs := rfl
@[simp] theorem Slice.returnRx_winFc (s : Slice) (p : Port) (c : Cls) : (s.returnRx p c).winFc = s.winFc := rfl
@[simp] theorem Slice.returnRx_damperDue (s : Slice) (p : Port) (c : Cls) : (s.returnRx p c).damperDue = s.damperDue := rfl
@[simp] theorem Slice.returnRx_pinOps (s : Slice) (p : Port) (c : Cls) : (s.returnRx p c).pinOps = s.pinOps := rfl
@[simp] theorem Slice.returnRx_fan (s : Slice) (p : Port) (c : Cls) : (s.returnRx p c).fan = s.fan := rfl
@[simp] theorem Slice.returnRx_foCred (s : Slice) (p : Port) (c : Cls) : (s.returnRx p c).foCred = s.foCred := rfl
@[simp] theorem Slice.returnRx_foSoon (s : Slice) (p : Port) (c : Cls) : (s.returnRx p c).foSoon = s.foSoon := rfl
@[simp] theorem Slice.returnRx_foPort (s : Slice) (p : Port) (c : Cls) : (s.returnRx p c).foPort = s.foPort := rfl
@[simp] theorem Slice.returnRx_anchors (s : Slice) (p : Port) (c : Cls) : (s.returnRx p c).anchors = s.anchors := rfl
@[simp] theorem Slice.returnRx_waiters (s : Slice) (p : Port) (c : Cls) : (s.returnRx p c).waiters = s.waiters := rfl
@[simp] theorem Slice.returnRx_drains (s : Slice) (p : Port) (c : Cls) : (s.returnRx p c).drains = s.drains := rfl
@[simp] theorem Slice.returnRx_releases (s : Slice) (p : Port) (c : Cls) : (s.returnRx p c).releases = s.releases := rfl
@[simp] theorem Slice.returnRx_walks (s : Slice) (p : Port) (c : Cls) : (s.returnRx p c).walks = s.walks := rfl
@[simp] theorem Slice.returnRx_relFlush (s : Slice) (p : Port) (c : Cls) : (s.returnRx p c).relFlush = s.relFlush := rfl
@[simp] theorem Slice.returnRx_relWait (s : Slice) (p : Port) (c : Cls) : (s.returnRx p c).relWait = s.relWait := rfl
@[simp] theorem Slice.returnRx_capture (s : Slice) (p : Port) (c : Cls) : (s.returnRx p c).capture = s.capture := rfl
@[simp] theorem Slice.returnRx_timeBase (s : Slice) (p : Port) (c : Cls) : (s.returnRx p c).timeBase = s.timeBase := rfl
@[simp] theorem Slice.returnRx_outLat (s : Slice) (p : Port) (c : Cls) : (s.returnRx p c).outLat = s.outLat := rfl
@[simp] theorem Slice.returnRx_relLast (s : Slice) (p : Port) (c : Cls) : (s.returnRx p c).relLast = s.relLast := rfl
@[simp] theorem Slice.returnRx_hashFree (s : Slice) (p : Port) (c : Cls) : (s.returnRx p c).hashFree = s.hashFree := rfl
@[simp] theorem Slice.returnRx_harvests (s : Slice) (p : Port) (c : Cls) : (s.returnRx p c).harvests = s.harvests := rfl
@[simp] theorem Slice.returnRx_drainPtr (s : Slice) (p : Port) (c : Cls) : (s.returnRx p c).drainPtr = s.drainPtr := rfl
@[simp] theorem Slice.returnRx_shelfSeq (s : Slice) (p : Port) (c : Cls) : (s.returnRx p c).shelfSeq = s.shelfSeq := rfl
@[simp] theorem Slice.returnRx_grantsTotal (s : Slice) (p : Port) (c : Cls) : (s.returnRx p c).grantsTotal = s.grantsTotal := rfl
@[simp] theorem Slice.returnRx_errLog (s : Slice) (p : Port) (c : Cls) : (s.returnRx p c).errLog = s.errLog := rfl
@[simp] theorem Slice.returnRx_repairs0 (s : Slice) (p : Port) (c : Cls) : (s.returnRx p c).repairs0 = s.repairs0 := rfl
@[simp] theorem Slice.returnRx_repairs1 (s : Slice) (p : Port) (c : Cls) : (s.returnRx p c).repairs1 = s.repairs1 := rfl
@[simp] theorem Slice.returnRx_quarantine (s : Slice) (p : Port) (c : Cls) : (s.returnRx p c).quarantine = s.quarantine := rfl
@[simp] theorem Slice.returnRx_rtLate (s : Slice) (p : Port) (c : Cls) : (s.returnRx p c).rtLate = s.rtLate := rfl
@[simp] theorem Slice.returnRx_lostKeys (s : Slice) (p : Port) (c : Cls) : (s.returnRx p c).lostKeys = s.lostKeys := rfl
@[simp] theorem Slice.returnRx_patrols (s : Slice) (p : Port) (c : Cls) : (s.returnRx p c).patrols = s.patrols := rfl
@[simp] theorem Slice.returnRx_defers (s : Slice) (p : Port) (c : Cls) : (s.returnRx p c).defers = s.defers := rfl
@[simp] theorem Slice.returnRx_sparing (s : Slice) (p : Port) (c : Cls) : (s.returnRx p c).sparing = s.sparing := rfl
@[simp] theorem Slice.returnRx_save (s : Slice) (p : Port) (c : Cls) : (s.returnRx p c).save = s.save := rfl
@[simp] theorem Slice.returnRx_gov (s : Slice) (p : Port) (c : Cls) : (s.returnRx p c).gov = s.gov := rfl
@[simp] theorem Slice.returnRx_age (s : Slice) (p : Port) (c : Cls) : (s.returnRx p c).age = s.age := rfl
@[simp] theorem Slice.returnRx_half0 (s : Slice) (p : Port) (c : Cls) : (s.returnRx p c).half0 = s.half0 := rfl
@[simp] theorem Slice.returnRx_half1 (s : Slice) (p : Port) (c : Cls) : (s.returnRx p c).half1 = s.half1 := rfl
@[simp] theorem Slice.returnRx_ring (s : Slice) (p : Port) (c : Cls) : (s.returnRx p c).ring = s.ring := rfl
@[simp] theorem Slice.returnRx_board (s : Slice) (p : Port) (c : Cls) : (s.returnRx p c).board = s.board := rfl
@[simp] theorem Slice.returnRx_start (s : Slice) (p : Port) (c : Cls) : (s.returnRx p c).start = s.start := rfl
@[simp] theorem Slice.returnRx_tap (s : Slice) (p : Port) (c : Cls) : (s.returnRx p c).tap = s.tap := rfl
@[simp] theorem Slice.returnRx_pins (s : Slice) (p : Port) (c : Cls) : (s.returnRx p c).pins = s.pins := rfl
@[simp] theorem Slice.returnRx_at_reg (s : Slice) (p : Port) (c : Cls) (i : Nat) : (s.returnRx p c).reg i = s.reg i := rfl
@[simp] theorem Slice.returnRx_at_bank (s : Slice) (p : Port) (c : Cls) (i : Nat) : (s.returnRx p c).bank i = s.bank i := rfl
@[simp] theorem Slice.returnRx_at_half (s : Slice) (p : Port) (c : Cls) (h : Nat) : (s.returnRx p c).half h = s.half h := rfl

/-! ### What an update writes -/

/-- A register reads back what was written to it, and every other one as before. -/
theorem Slice.reg_setReg (s : Slice) (a : Nat) (v : Word) (i : Nat) : (s.setReg a v).reg i = if i = a then v else s.reg i :=
  Tbl.at_put 0 s.regs a v i

@[simp] theorem Slice.reg_setReg_self (s : Slice) (a : Nat) (v : Word) : (s.setReg a v).reg a = v := Tbl.at_put_self 0 s.regs a v

theorem Slice.reg_setReg_of_ne (s : Slice) (a : Nat) (v : Word) (i : Nat) (h : i ≠ a) : (s.setReg a v).reg i = s.reg i :=
  Tbl.at_put_of_ne 0 s.regs a v i h

theorem Slice.reg_setFld (s : Slice) (a : Nat) (f : Fld) (v : Nat) (i : Nat) :
    (s.setFld a f v).reg i = if i = a then setF (s.reg a) f v else s.reg i := s.reg_setReg a _ i

@[simp] theorem Slice.reg_setFld_self (s : Slice) (a : Nat) (f : Fld) (v : Nat) : (s.setFld a f v).reg a = setF (s.reg a) f v := s.reg_setReg_self a _

theorem Slice.reg_setFld_of_ne (s : Slice) (a : Nat) (f : Fld) (v : Nat) (i : Nat) (h : i ≠ a) : (s.setFld a f v).reg i = s.reg i :=
  s.reg_setReg_of_ne a _ i h

/-- A field reads back what was written to it. -/
theorem Slice.fld_setFld_self (s : Slice) (a : Nat) (f : Fld) (v : Nat) (h : f.lo + f.len ≤ 64) : (s.setFld a f v).fld a f = v % 2 ^ f.len := by
  unfold Slice.fld; rw [Slice.reg_setFld_self, getF_setF_self _ f v h]

/-- A field that does not meet the one written, of the same register, keeps its value. -/
theorem Slice.fld_setFld_of_disjoint (s : Slice) (a : Nat) (f g : Fld) (v : Nat) (h : f.lo + f.len ≤ g.lo ∨ g.lo + g.len ≤ f.lo) :
    (s.setFld a f v).fld a g = s.fld a g := by
  unfold Slice.fld; rw [Slice.reg_setFld_self, getF_setF_of_disjoint _ f g v h]

/-- A field of another register keeps its value. -/
theorem Slice.fld_setFld_of_ne (s : Slice) (a : Nat) (f : Fld) (v : Nat) (i : Nat) (g : Fld) (h : i ≠ a) : (s.setFld a f v).fld i g = s.fld i g := by
  unfold Slice.fld; rw [Slice.reg_setFld_of_ne _ _ _ _ _ h]

theorem Slice.fld_setReg_self (s : Slice) (a : Nat) (v : Word) (g : Fld) : (s.setReg a v).fld a g = getF v g := by
  unfold Slice.fld; rw [Slice.reg_setReg_self]

theorem Slice.fld_setReg_of_ne (s : Slice) (a : Nat) (v : Word) (i : Nat) (g : Fld) (h : i ≠ a) : (s.setReg a v).fld i g = s.fld i g := by
  unfold Slice.fld; rw [Slice.reg_setReg_of_ne _ _ _ _ h]

/-- Writing what a field holds leaves every register. -/
theorem Slice.reg_setFld_same (s : Slice) (a : Nat) (f : Fld) (i : Nat) : (s.setFld a f (s.fld a f)).reg i = s.reg i := by
  rw [Slice.reg_setFld]; split
  · next h => subst h; exact setF_getF _ f
  · rfl

theorem Slice.fld_raise_self (s : Slice) (a : Nat) (f : Fld) (h : f.lo + f.len ≤ 64) (hl : f.len = 1) : (s.raise a f).fld a f = 1 := by
  show (s.setFld a f 1).fld a f = 1
  rw [Slice.fld_setFld_self _ _ _ _ h, hl]; rfl

theorem Slice.fld_clearF_self (s : Slice) (a : Nat) (f : Fld) (h : f.lo + f.len ≤ 64) : (s.clearF a f).fld a f = 0 := by
  unfold Slice.clearF; rw [Slice.fld_setFld_self _ _ _ _ h, Nat.zero_mod]

/-- What events set in a register in the present fc (R14). -/
theorem Slice.nowIn_noteNow (s : Slice) (a : Nat) (w : Word) (i : Nat) : (s.noteNow a w).nowIn i = if i = a then s.nowIn a ||| w else s.nowIn i :=
  Tbl.at_put 0 s.now a _ i

/-- A flag that has been raised is set. -/
theorem Slice.flag_raise_self (s : Slice) (a : Nat) (f : Fld) (h : f.lo + f.len ≤ 64) (hl : f.len = 1) : (s.raise a f).flag a f = true := by
  unfold Slice.flag; rw [Slice.fld_raise_self _ _ _ h hl]; rfl

theorem Slice.flag_clearF_self (s : Slice) (a : Nat) (f : Fld) (h : f.lo + f.len ≤ 64) : (s.clearF a f).flag a f = false := by
  unfold Slice.flag; rw [Slice.fld_clearF_self _ _ _ h]; rfl

theorem Slice.bank_setBankS (s : Slice) (k : Nat) (b : Bank) (i : Nat) : (s.setBankS k b).bank i = if i = k then b else s.bank i :=
  Tbl.at_put Bank.idle s.banks k b i

@[simp] theorem Slice.bank_setBankS_self (s : Slice) (k : Nat) (b : Bank) : (s.setBankS k b).bank k = b := Tbl.at_put_self Bank.idle s.banks k b

theorem Slice.bank_modBank (s : Slice) (k : Nat) (g : Bank → Bank) (i : Nat) : (s.modBank k g).bank i = if i = k then g (s.bank k) else s.bank i :=
  s.bank_setBankS k _ i

@[simp] theorem Slice.bank_modBank_self (s : Slice) (k : Nat) (g : Bank → Bank) : (s.modBank k g).bank k = g (s.bank k) := s.bank_setBankS_self k _

/-- Port and class give a credit key of their own. -/
theorem credKey_inj {p q : Port} {c d : Cls} (h : credKey p c = credKey q d) : p = q ∧ c = d := by
  have hc : clsCode c < 4 := by cases c <;> decide
  have hd : clsCode d < 4 := by cases d <;> decide
  unfold credKey at h
  refine ⟨Fin.ext (by omega), ?_⟩
  have : clsCode c = clsCode d := by omega
  revert this; cases c <;> cases d <;> decide

/-- The arrival of a message takes one credit of its port and class, and no other. -/
theorem Slice.rxHeld_spendRx (s : Slice) (p : Port) (c : Cls) (q : Port) (d : Cls) :
    (s.spendRx p c).rxHeld q d = if q = p ∧ d = c then s.rxHeld p c - 1 else s.rxHeld q d := by
  unfold Slice.rxHeld Slice.spendRx
  rw [Tbl.at_put]
  by_cases h : q = p ∧ d = c
  · obtain ⟨rfl, rfl⟩ := h; simp [Slice.rxHeld]
  · rw [if_neg h, if_neg (fun hk => h (credKey_inj hk))]

theorem Slice.rxHeld_returnRx (s : Slice) (p : Port) (c : Cls) (q : Port) (d : Cls) :
    (s.returnRx p c).rxHeld q d = if q = p ∧ d = c then s.rxHeld p c + 1 else s.rxHeld q d := by
  unfold Slice.rxHeld Slice.returnRx
  rw [Tbl.at_put]
  by_cases h : q = p ∧ d = c
  · obtain ⟨rfl, rfl⟩ := h; simp [Slice.rxHeld]
  · rw [if_neg h, if_neg (fun hk => h (credKey_inj hk))]

/-- A credit spent and returned at once leaves what the neighbours held. -/
theorem Slice.rxHeld_spend_return (s : Slice) (p : Port) (c : Cls) (h : 0 < s.rxHeld p c) (q : Port) (d : Cls) :
    ((s.spendRx p c).returnRx p c).rxHeld q d = s.rxHeld q d := by
  rw [Slice.rxHeld_returnRx, Slice.rxHeld_spendRx, Slice.rxHeld_spendRx]
  by_cases hq : q = p ∧ d = c
  · obtain ⟨rfl, rfl⟩ := hq; simp; omega
  · simp [hq]

/-- A message takes its place at egress, with the node of its port as its source. -/
theorem Slice.emit_egress (s : Slice) (p : Port) (due mclass : Nat) (payload : Bool) (m : Msg) :
    (s.emit p due mclass payload m).egress = s.egress ++ [⟨p, due, s.fresh, mclass, payload, { m with src := s.node p }, none⟩] := rfl

theorem Slice.emit_fresh (s : Slice) (p : Port) (due mclass : Nat) (payload : Bool) (m : Msg) : (s.emit p due mclass payload m).fresh = s.fresh + 1 := rfl

/-! ### The registers as a table -/

theorem Slice.setReg_wf (s : Slice) (a : Nat) (v : Word) (h : Tbl.wf 0 s.regs = true) : Tbl.wf 0 (s.setReg a v).regs = true := Tbl.wf_put 0 s.regs a v h
theorem Slice.setFld_wf (s : Slice) (a : Nat) (f : Fld) (v : Nat) (h : Tbl.wf 0 s.regs = true) : Tbl.wf 0 (s.setFld a f v).regs = true := s.setReg_wf a _ h
theorem Slice.raise_wf (s : Slice) (a : Nat) (f : Fld) (h : Tbl.wf 0 s.regs = true) : Tbl.wf 0 (s.raise a f).regs = true := s.setFld_wf a f 1 h
theorem Slice.clearF_wf (s : Slice) (a : Nat) (f : Fld) (h : Tbl.wf 0 s.regs = true) : Tbl.wf 0 (s.clearF a f).regs = true := s.setFld_wf a f 0 h
theorem Slice.bump_wf (s : Slice) (a : Nat) (f : Fld) (n : Nat) (h : Tbl.wf 0 s.regs = true) : Tbl.wf 0 (s.bump a f n).regs = true := s.setReg_wf a _ h

end Sys2Proof.Machine
end

