-- ==== Sys2Proof/Laws/Ops.lean ====
section
/-! SUPPORT. What each shared operation can do, said once: which fields of the slice it may change, and that it keeps the table of registers
canonical. A proof about a meaning cites these and does not unfold the operation. -/

namespace Sys2Proof.Machine

/-- Nothing but the registers, and what events have set in them in this fc, has changed, and their table is as canonical as it was. -/
structure RegStep (s t : Slice) : Prop where
  eq : t = { s with regs := t.regs, now := t.now }
  wf : Tbl.wf 0 s.regs = true → Tbl.wf 0 t.regs = true

theorem RegStep.refl (s : Slice) : RegStep s s := ⟨rfl, fun w => w⟩

theorem RegStep.trans {s t u : Slice} (h : RegStep s t) (g : RegStep t u) : RegStep s u := by
  refine ⟨?_, fun w => g.wf (h.wf w)⟩
  have he := g.eq
  rw [h.eq] at he
  exact he

theorem Slice.regStep_setReg (s : Slice) (a : Nat) (v : Word) : RegStep s (s.setReg a v) := ⟨rfl, Tbl.wf_put 0 s.regs a v⟩
theorem Slice.regStep_setFld (s : Slice) (a : Nat) (f : Fld) (v : Nat) : RegStep s (s.setFld a f v) := s.regStep_setReg a _
theorem Slice.regStep_raise (s : Slice) (a : Nat) (f : Fld) : RegStep s (s.raise a f) := ⟨rfl, Tbl.wf_put 0 s.regs a _⟩
theorem Slice.regStep_latch (s : Slice) (a : Nat) (v : Word) : RegStep s (s.latch a v) := ⟨rfl, Tbl.wf_put 0 s.regs a v⟩
theorem Slice.regStep_clearF (s : Slice) (a : Nat) (f : Fld) : RegStep s (s.clearF a f) := s.regStep_setReg a _
theorem Slice.regStep_bump (s : Slice) (a : Nat) (f : Fld) (n : Nat) : RegStep s (s.bump a f n) := ⟨rfl, Tbl.wf_put 0 s.regs a _⟩

theorem Slice.regStep_foldl {β : Type} (f : Slice → β → Slice) (hf : ∀ s b, RegStep s (f s b)) (l : List β) (s : Slice) : RegStep s (l.foldl f s) := by
  induction l generalizing s with
  | nil => exact RegStep.refl s
  | cons b l ih => exact (hf s b).trans (ih (f s b))

/-! ### Performance counters (R386 to R393) -/

theorem Slice.pcSample_regStep (s : Slice) (k ev : Nat) (o : Occ) : RegStep s (s.pcSample k ev o) := by
  unfold Slice.pcSample
  split
  · exact s.regStep_raise _ _
  · exact ((s.regStep_setReg _ _).trans (Slice.regStep_latch _ _ _)).trans (Slice.regStep_setReg _ _ _)

theorem Slice.pcAdd_regStep (s : Slice) (n ev u : Nat) (o : Occ) : RegStep s (s.pcAdd n ev u o) := by
  unfold Slice.pcAdd
  dsimp only
  split
  · exact RegStep.refl s
  · split
    · exact s.regStep_setFld _ _ _
    · split
      · exact (s.regStep_raise _ _).trans (Slice.regStep_setFld _ _ _ _)
      · exact ((s.regStep_raise _ _).trans (Slice.regStep_setFld _ _ _ _)).trans (Slice.pcSample_regStep _ _ _ _)

/-- An event changes registers alone. -/
theorem Slice.pcEv_regStep (s : Slice) (ev u : Nat) (o : Occ) : RegStep s (s.pcEv ev u o) := by
  unfold Slice.pcEv
  split
  · exact RegStep.refl s
  · refine Slice.regStep_foldl _ (fun t n => ?_) _ s
    split
    · exact t.pcAdd_regStep n ev u o
    · exact RegStep.refl t

/-- With the counters off an event changes nothing (R386). -/
theorem Slice.pcEv_off (s : Slice) (ev u : Nat) (o : Occ) (h : s.flag PC_CTRL PC_CTRL_EN = false) : s.pcEv ev u o = s := by
  unfold Slice.pcEv; simp [h]

theorem Slice.pcEv_zero (s : Slice) (ev : Nat) (o : Occ) : s.pcEv ev 0 o = s := by unfold Slice.pcEv; simp

/-! ### The error log (R336) -/

/-- Nothing but registers, the error log and a pulse owed on SL_IRQ_MGMT has changed, and the table of registers is as canonical as it was. -/
structure LogStep (s t : Slice) : Prop where
  eq : t = { s with regs := t.regs, now := t.now, errLog := t.errLog, pins := { s.pins with mgmtMore := t.pins.mgmtMore } }
  wf : Tbl.wf 0 s.regs = true → Tbl.wf 0 t.regs = true

theorem LogStep.refl (s : Slice) : LogStep s s := ⟨rfl, fun w => w⟩

theorem LogStep.trans {s t u : Slice} (h : LogStep s t) (g : LogStep t u) : LogStep s u := by
  refine ⟨?_, fun w => g.wf (h.wf w)⟩
  have he := g.eq
  rw [h.eq] at he
  exact he

theorem RegStep.log {s t : Slice} (h : RegStep s t) : LogStep s t := by
  refine ⟨?_, h.wf⟩
  have hp : t.pins = s.pins ∧ t.errLog = s.errLog := by rw [h.eq]; exact ⟨rfl, rfl⟩
  rw [hp.1, hp.2]
  exact h.eq

theorem Slice.logStep_errLog (s : Slice) (l : Tbl LogEntry) : LogStep s { s with errLog := l } := ⟨rfl, fun w => w⟩

/-- An entry of the error log changes registers and the log alone. -/
theorem Slice.logErr_logStep (s : Slice) (t : Nat) (log1 : Word) (pid : Nat) : LogStep s (s.logErr t log1 pid) := by
  unfold Slice.logErr
  split
  · exact LogStep.refl s
  · dsimp only
    generalize hu : (if isViolType t = true then s.raise EC_STATUS EC_STATUS_VIOL else s) = u
    have hs : LogStep s u := by subst hu; split
                                · exact (s.regStep_raise _ _).log
                                · exact LogStep.refl s
    refine hs.trans ?_
    split
    · exact u.logStep_errLog _
    · generalize hv : (if (Tbl.at ⟨0, 0, 0⟩ u.errLog (u.fld EC_LOG_STATUS EC_LOG_STATUS_HEAD)).log2.getLsbD 63 = true
        then u.raise EC_LOG_STATUS EC_LOG_STATUS_OVF else u) = v
      have hv2 : LogStep u v := by subst hv; split
                                   · exact (u.regStep_raise _ _).log
                                   · exact LogStep.refl u
      exact hv2.trans ((v.logStep_errLog _).trans ((Slice.regStep_setFld _ _ _ _).trans (Slice.regStep_setFld _ _ _ _)).log)

/-- A violation that the log does not take changes nothing (R336). -/
theorem Slice.logErr_off (s : Slice) (t : Nat) (log1 : Word) (pid : Nat) (h : isViolType t = true) (hc : s.flag EC_CTRL EC_CTRL_LOG_VIOL = false) :
    s.logErr t log1 pid = s := by
  unfold Slice.logErr; simp [h, hc]

/-! ### Timing events (R231) and SL_IRQ_MGMT -/

theorem Slice.raiseMgmtIf_frame (s : Slice) (c : Bool) : s.raiseMgmtIf c = { s with pins := { s.pins with mgmtMore := s.pins.mgmtMore || c } } := by
  unfold Slice.raiseMgmtIf Slice.raiseMgmt; cases c <;> simp

theorem Slice.raiseMgmtIf_logStep (s : Slice) (c : Bool) : LogStep s (s.raiseMgmtIf c) := by
  rw [Slice.raiseMgmtIf_frame]; exact ⟨rfl, fun w => w⟩

/-- A timing event changes registers, and may owe a pulse of SL_IRQ_MGMT. -/
theorem Slice.tevt_logStep (s : Slice) (bit : Nat) : LogStep s (s.tevt bit) := by
  unfold Slice.tevt
  split
  · exact ((s.regStep_raise _ _).trans (Slice.regStep_bump _ _ _ _)).log.trans (Slice.raiseMgmtIf_logStep _ _)
  · exact LogStep.refl s

/-- While the slice does not run deterministically no timing event is recorded (R231). -/
theorem Slice.tevt_off (s : Slice) (bit : Nat) (h : s.detActive = false) : s.tevt bit = s := by unfold Slice.tevt; simp [h]

/-! ### Egress (R22, R38) -/

theorem Slice.sendRsp_eq (s : Slice) (p : Port) (due : Nat) (a : Arr) (op : BitVec 6) (ext0 : BitVec 15) :
    s.sendRsp p due a op ext0 = { s with
      egress := s.egress ++ [⟨p, due, s.fresh, s.classOf a.src.toNat, false, { answerTo a .rsp op ext0 0 with src := s.node p }, none⟩],
      fresh := s.fresh + 1 } := rfl

theorem Slice.sendDat_eq (s : Slice) (p : Port) (due : Nat) (a : Arr) (op : BitVec 6) (ext0 : BitVec 15) (pl : Payload) :
    s.sendDat p due a op ext0 pl = { s with
      egress := s.egress ++ [⟨p, due, s.fresh, s.classOf a.src.toNat, true, { answerTo a .dat op ext0 pl with src := s.node p }, none⟩],
      fresh := s.fresh + 1 } := rfl

/-! ### Bank grants (R29, R294, R304) -/

theorem Slice.grantAct_frame (s : Slice) (o : Occ) : ∃ a, s.grantAct o = { s with gov := { s.gov with activity := a } } := ⟨_, rfl⟩

/-- The fc of a grant: the first free run of slots from its candidate's on (R29, R35). -/
theorem Slice.grant_fst (s : Slice) (bk at' slots code : Nat) (i : Option Nat) (pid : Nat) (o : Occ) :
    (s.grant bk at' slots code i pid o).1 = (s.bankNow bk).firstRun at' slots := rfl

/-- What a bank's counts of the present damper period leave alone. -/
theorem Slice.bankNow_frame (s : Slice) (k : Nat) : (s.bankNow k).htes = (s.bank k).htes ∧ (s.bankNow k).holdq = (s.bank k).holdq
    ∧ (s.bankNow k).conts = (s.bank k).conts ∧ (s.bankNow k).taken = (s.bank k).taken ∧ (s.bankNow k).free = (s.bank k).free
    ∧ (s.bankNow k).ptr = (s.bank k).ptr := by
  unfold Slice.bankNow
  dsimp only
  split <;> exact ⟨rfl, rfl, rfl, rfl, rfl, rfl⟩

/-- A grant marks its bank, counts, and shows to the performance counters. -/
theorem Slice.grant_pre (s : Slice) (bk at' slots code : Nat) (i : Option Nat) (pid : Nat) (o : Occ) :
    ∃ (a : Tbl Nat) (b : Bank) (t : Slice),
      t = { s with banks := Tbl.put Bank.idle s.banks bk b, gov := { s.gov with activity := a }, grantsTotal := s.grantsTotal + 1 }
      ∧ (s.grant bk at' slots code i pid o).2 = (t.pcEv 0x03 1 o).pcEv 0x1E ((s.grant bk at' slots code i pid o).1 - at') o
      ∧ b.free = (s.grant bk at' slots code i pid o).1 + slots ∧ b.htes = (s.bank bk).htes ∧ b.holdq = (s.bank bk).holdq ∧ b.conts = (s.bank bk).conts
      ∧ b.grantsAll = (s.bankNow bk).grantsAll + 1 ∧ b.grants = Tbl.put 0 (s.bankNow bk).grants pid (Tbl.at 0 (s.bankNow bk).grants pid + 1) := by
  obtain ⟨h1, h2, h3, _, _, _⟩ := s.bankNow_frame bk
  exact ⟨_, _, _, rfl, rfl, rfl, h1, h2, h3, rfl, rfl⟩

/-- A grant changes its bank's arbitration and counts, the activity, and registers of the performance counters. -/
theorem Slice.grant_frame (s : Slice) (bk at' slots code : Nat) (i : Option Nat) (pid : Nat) (o : Occ) :
    ∃ (a : Tbl Nat) (b : Bank),
      RegStep { s with banks := Tbl.put Bank.idle s.banks bk b, gov := { s.gov with activity := a }, grantsTotal := s.grantsTotal + 1 }
        (s.grant bk at' slots code i pid o).2
      ∧ b.free = (s.grant bk at' slots code i pid o).1 + slots ∧ b.htes = (s.bank bk).htes ∧ b.holdq = (s.bank bk).holdq ∧ b.conts = (s.bank bk).conts
      ∧ b.grantsAll = (s.bankNow bk).grantsAll + 1 ∧ b.grants = Tbl.put 0 (s.bankNow bk).grants pid (Tbl.at 0 (s.bankNow bk).grants pid + 1) := by
  obtain ⟨a, b, t, ht, he, hb⟩ := s.grant_pre bk at' slots code i pid o
  refine ⟨a, b, ?_, hb⟩
  rw [← ht, he]
  exact (t.pcEv_regStep 0x03 1 o).trans (Slice.pcEv_regStep _ 0x1E _ o)

/-- With the counters off a grant leaves the registers too. -/
theorem Slice.grant_regs_off (s : Slice) (bk at' slots code : Nat) (i : Option Nat) (pid : Nat) (o : Occ) (h : s.flag PC_CTRL PC_CTRL_EN = false) :
    (s.grant bk at' slots code i pid o).2.regs = s.regs := by
  obtain ⟨a, b, t, ht, he, _⟩ := s.grant_pre bk at' slots code i pid o
  have hf : t.flag PC_CTRL PC_CTRL_EN = false := by rw [ht]; exact h
  rw [he, t.pcEv_off _ _ _ hf, t.pcEv_off _ _ _ hf, ht]

theorem Slice.moreSlots_frame (s : Slice) (bk n : Nat) :
    ∃ b, s.moreSlots bk n = { s with banks := Tbl.put Bank.idle s.banks bk b } ∧ b = (s.bank bk).takeFrom (s.bank bk).free n := ⟨_, rfl, rfl⟩

/-! ### Halves (R314) -/

/-- A wake trigger changes the control of its half alone, and leaves an awake half with no goal as it is. -/
theorem Slice.wakeTrigger_frame (s : Slice) (h : Nat) :
    s.wakeTrigger h = s ∨ ∃ v, s.wakeTrigger h = s.setHalf h v ∧ (v.wakePending = true ∨ v.power = .waking) := by
  unfold Slice.wakeTrigger
  dsimp only
  split
  · split
    · exact .inl rfl
    · exact .inr ⟨_, rfl, .inl rfl⟩
  · exact .inl rfl
  · exact .inr ⟨_, rfl, .inr rfl⟩
  · exact .inr ⟨_, rfl, .inr rfl⟩

/-! ### Counts of violations and dead reads -/

/-- A dead read changes registers alone (R106). -/
theorem Slice.deadRead_regStep (s : Slice) (pid : Nat) (o : Occ) : RegStep s (s.deadRead pid o) :=
  ((s.regStep_raise _ _).trans (Slice.regStep_bump _ _ _ _)).trans (Slice.pcEv_regStep _ _ _ _)

theorem Slice.deadReadIf_regStep (s : Slice) (c : Bool) (pid : Nat) (o : Occ) : RegStep s (s.deadReadIf c pid o) := by
  unfold Slice.deadReadIf
  split
  · exact s.deadRead_regStep pid o
  · exact RegStep.refl s

/-- A coherence violation changes registers and the error log alone (R133). -/
theorem Slice.noteViol_logStep (s : Slice) (code src addr pid : Nat) : LogStep s (s.noteViol code src addr pid) := by
  unfold Slice.noteViol
  have h := (s.regStep_bump CO_VIOL_CNT CO_VIOL_CNT_COUNT 1).log.trans (Slice.logErr_logStep _ 0x0D (log1Addr addr src) pid)
  dsimp only
  split
  · exact h
  · exact h.trans (Slice.regStep_latch _ _ _).log

/-! ### What every command ends with -/

/-- Settling changes registers (OFF_HELD of AG_PSTATE, R313) and pins, and forgets which requests arrived together. -/
theorem Slice.settleHeld_regStep (s : Slice) (h : Nat) : RegStep s (s.settleHeld h) := by
  unfold Slice.settleHeld
  split
  · exact s.regStep_clearF _ _
  · exact RegStep.refl s

theorem Slice.settle_frame (s : Slice) :
    ∃ u, RegStep s u ∧ s.settle = { u with pins := s.settle.pins, ahead := [] } :=
  ⟨(s.settleHeld 0).settleHeld 1, (s.settleHeld_regStep 0).trans (Slice.settleHeld_regStep _ 1), rfl⟩

/-- Settling leaves every register but AG_PSTATE. -/
theorem Slice.settle_reg (s : Slice) (a : Nat) (h : a ≠ AG_PSTATE) : s.settle.reg a = s.reg a := by
  have one : ∀ (t : Slice) (k : Nat), (t.settleHeld k).reg a = t.reg a := by
    intro t k
    unfold Slice.settleHeld
    split
    · exact Slice.reg_setFld_of_ne _ _ _ _ _ h
    · rfl
  show ((s.settleHeld 0).settleHeld 1).reg a = s.reg a
  rw [one, one]

/-- A settled slice stays as it is. -/
theorem Slice.settle_ahead (s : Slice) : s.settle.ahead = [] := rfl

/-- Every command acts on the slice alone: the queue is left as it is. -/
theorem act_eq (f : Slice → Slice) (s : State) : act f s = .next ⟨(f { s.slice with ahead := s.pending.filterMap s.slice.comingOf }).settle, s.pending⟩ := rfl

/-- A message is ignored while the fast outputs are clamped (R400), stops the machine when its sender held no credit (R403), and else spends one. -/
theorem actMsg_cases (c : Cls) (a : Arr) (f : Slice → Slice) (s : State) :
    (s.slice.clamped = true ∧ actMsg c a f s = act id s) ∨ (s.slice.clamped = false ∧ s.slice.rxHeld a.port c = 0 ∧ actMsg c a f s = .fault .uncreditedMessage)
      ∨ (s.slice.clamped = false ∧ 0 < s.slice.rxHeld a.port c ∧ actMsg c a f s = act (fun t => f (t.spendRx a.port c)) s) := by
  unfold actMsg
  by_cases hc : s.slice.clamped = true
  · simp [hc]
  · have hc' : s.slice.clamped = false := by simpa using hc
    by_cases h : s.slice.rxHeld a.port c = 0
    · simp [hc', h]
    · exact .inr (.inr ⟨hc', by omega, by simp [hc', h]⟩)

end Sys2Proof.Machine
end

