-- ==== Sys2Proof/Laws/Arrays.lean ====
section
/-! SUPPORT. The arrays of the slice, its home map and its registers are tables in canonical form (spec 14_error_protection.md R327, 00_scope.md
R5): every primitive operation on them keeps the form, and a read after a write gives what was written. -/

namespace Sys2Proof.Machine

/-! ### Updates of fields that are no table -/

/-- A slice whose tables are those of a canonical one is canonical. -/
theorem Slice.canonical_of_tables {s t : Slice} (h : s.canonical) (h1 : t.regs = s.regs) (h2 : t.homeMap = s.homeMap) (h3 : t.frames = s.frames)
    (h4 : t.repl = s.repl) (h5 : t.victims = s.victims) (h6 : t.ledger = s.ledger) (h7 : t.flips = s.flips) : t.canonical := by
  unfold Slice.canonical
  rw [h1, h2, h3, h4, h5, h6, h7]
  exact h

theorem LogStep.canonical {s t : Slice} (h : LogStep s t) (hs : s.canonical) : t.canonical := by
  have hw := h.wf hs.1
  rw [h.eq] at hw ⊢
  exact ⟨hw, hs.2⟩

theorem RegStep.canonical {s t : Slice} (h : RegStep s t) (hs : s.canonical) : t.canonical := h.log.canonical hs

theorem Slice.canonical_logErr {s : Slice} (h : s.canonical) (t : Nat) (log1 : Word) (pid : Nat) : (s.logErr t log1 pid).canonical :=
  (s.logErr_logStep t log1 pid).canonical h

theorem Slice.canonical_tevt {s : Slice} (h : s.canonical) (bit : Nat) : (s.tevt bit).canonical := (s.tevt_logStep bit).canonical h

theorem Slice.canonical_settle {s : Slice} (h : s.canonical) : s.settle.canonical := by
  obtain ⟨u, hu, he⟩ := s.settle_frame
  rw [he]
  exact hu.canonical h

theorem Slice.canonical_grant {s : Slice} (h : s.canonical) (bk at' slots code : Nat) (i : Option Nat) (pid : Nat) (o : Occ) :
    (s.grant bk at' slots code i pid o).2.canonical := by
  obtain ⟨a, b, hr, _⟩ := s.grant_frame bk at' slots code i pid o
  exact hr.canonical h

theorem Slice.canonical_noteViol {s : Slice} (h : s.canonical) (code src addr pid : Nat) : (s.noteViol code src addr pid).canonical :=
  (s.noteViol_logStep code src addr pid).canonical h

/-- A fold of operations that keep the form keeps it. -/
theorem Slice.canonical_foldl {β : Type} (f : Slice → β → Slice) (hf : ∀ t b, t.canonical → (f t b).canonical) (l : List β) (s : Slice)
    (h : s.canonical) : (l.foldl f s).canonical := by
  induction l generalizing s with
  | nil => exact h
  | cons b l ih => exact ih (f s b) (hf s b h)

/-! ### Words of the arrays -/

theorem Slice.canonical_putWord {s : Slice} (h : s.canonical) (arr idx word : Nat) (v : Word) : (s.putWord arr idx word v).canonical := by
  obtain ⟨h1, h2, h3, h4, h5, h6, h7⟩ := h
  unfold Slice.putWord
  dsimp only
  split
  · exact ⟨h1, h2, Tbl.wf_put _ _ _ _ h3, h4, h5, h6, h7⟩
  · exact ⟨h1, h2, Tbl.wf_put _ _ _ _ h3, h4, h5, h6, h7⟩
  · exact ⟨h1, h2, Tbl.wf_put _ _ _ _ h3, h4, h5, h6, h7⟩
  · exact ⟨h1, h2, h3, Tbl.wf_put _ _ _ _ h4, h5, h6, h7⟩
  · exact ⟨h1, h2, h3, h4, Tbl.wf_put _ _ _ _ h5, h6, h7⟩
  · exact ⟨h1, h2, h3, h4, h5, Tbl.wf_put _ _ _ _ h6, h7⟩

theorem Slice.canonical_clearFlip {s : Slice} (h : s.canonical) (arr idx word : Nat) : (s.clearFlip arr idx word).canonical := by
  obtain ⟨h1, h2, h3, h4, h5, h6, h7⟩ := h
  have hf := Tbl.wf_put 0 s.flips (cwOf arr idx word) 0 h7
  unfold Slice.clearFlip
  dsimp only
  split <;> exact ⟨h1, h2, h3, h4, h5, h6, hf⟩

theorem Slice.canonical_setFrame {s : Slice} (h : s.canonical) (key : Nat) (f : Frame) :
    ({ s with frames := Tbl.put Frame.zero s.frames key f } : Slice).canonical := by
  obtain ⟨h1, h2, h3, h4, h5, h6, h7⟩ := h
  exact ⟨h1, h2, Tbl.wf_put _ _ _ _ h3, h4, h5, h6, h7⟩

theorem Slice.canonical_dropFlips {s : Slice} (h : s.canonical) (p : Nat → Bool) : ({ s with flips := Tbl.drop s.flips p } : Slice).canonical := by
  obtain ⟨h1, h2, h3, h4, h5, h6, h7⟩ := h
  exact ⟨h1, h2, h3, h4, h5, h6, Tbl.wf_drop _ _ _ h7⟩

theorem Slice.canonical_setVict {s : Slice} (h : s.canonical) (e : Nat) (v : Victim) : (s.setVict e v).canonical := by
  obtain ⟨h1, h2, h3, h4, h5, h6, h7⟩ := h
  exact ⟨h1, h2, h3, h4, Tbl.wf_put _ _ _ _ h5, h6, h7⟩

/-- A victim slot reads back what was put into it, and every other one as before. -/
theorem Slice.vict_setVict (s : Slice) (e : Nat) (v : Victim) (i : Nat) : (s.setVict e v).vict i = if i = e then v else s.vict i :=
  Tbl.at_put Victim.none s.victims e v i

/-- With no error in the arrays a frame is what its table holds. -/
theorem Slice.frame_eq (s : Slice) (h : s.flips = []) (key : Nat) : s.frame key = Tbl.at Frame.zero s.frames key := by
  unfold Slice.frame; rw [if_pos h]

/-- With no error in the arrays and none armed a frame is written as it is given. -/
theorem Slice.putFrame_eq (s : Slice) (h : s.flips = []) (ha : s.flag EC_FLIP_CTRL EC_FLIP_CTRL_ARMED = false) (key : Nat) (f : Frame) :
    s.putFrame key f = { s with frames := Tbl.put Frame.zero s.frames key f } := by
  unfold Slice.putFrame
  rw [if_pos]
  have hs : s.sound = true := by unfold Slice.sound; rw [h, ha]; rfl
  exact hs

/-- A frame reads back what was written to it, and every other one as before. -/
theorem Slice.frame_putFrame (s : Slice) (h : s.flips = []) (ha : s.flag EC_FLIP_CTRL EC_FLIP_CTRL_ARMED = false) (key : Nat) (f : Frame) (k : Nat) :
    (s.putFrame key f).frame k = if k = key then f else s.frame k := by
  rw [s.putFrame_eq h ha key f, Slice.frame_eq _ (by exact h), s.frame_eq h]
  exact Tbl.at_put Frame.zero s.frames key f k

/-! ### Errors found and written over (R331, R332, R339) -/

theorem Slice.canonical_bucketIn {s : Slice} (h : s.canonical) : s.bucketIn.canonical := by
  unfold Slice.bucketIn
  dsimp only
  split
  · exact (s.regStep_raise _ _).canonical h
  · exact (s.regStep_setFld _ _ _).canonical h

theorem Slice.canonical_queueRepair {s : Slice} (h : s.canonical) (arr idx : Nat) : (s.queueRepair arr idx).canonical := by
  unfold Slice.queueRepair
  dsimp only
  repeat' split
  all_goals first
    | exact h
    | exact (s.regStep_bump _ _ _).canonical h

theorem Slice.canonical_noteCe {s : Slice} (h : s.canonical) (arr idx word bit src : Nat) : (s.noteCe arr idx word bit src).canonical := by
  unfold Slice.noteCe
  dsimp only
  have h1 : (s.bump EC_CNT EC_CNT_CE 1).canonical := (s.regStep_bump _ _ _).canonical h
  generalize s.bump EC_CNT EC_CNT_CE 1 = u at h1 ⊢
  have h2 : (if arr ≤ 3 then u.bump (EC_BANK_CNT (bankCntOf arr idx)) EC_BANK_CNT_CE 1 else u).canonical := by
    split
    · exact (u.regStep_bump _ _ _).canonical h1
    · exact h1
  generalize (if arr ≤ 3 then u.bump (EC_BANK_CNT (bankCntOf arr idx)) EC_BANK_CNT_CE 1 else u) = w at h2 ⊢
  split
  · exact Slice.canonical_queueRepair (Slice.canonical_logErr ((Slice.pcEv_regStep _ _ _ _).canonical (Slice.canonical_bucketIn h2)) _ _ _) _ _
  · exact Slice.canonical_logErr ((Slice.pcEv_regStep _ _ _ _).canonical (Slice.canonical_bucketIn h2)) _ _ _

theorem Slice.canonical_wrote {s : Slice} (h : s.canonical) (arr idx word : Nat) : (s.wrote arr idx word).canonical := by
  unfold Slice.wrote
  dsimp only
  have h1 := Slice.canonical_clearFlip h arr idx word
  generalize s.clearFlip arr idx word = u at h1 ⊢
  split
  · have h2 := ((u.clearF EC_FLIP_CTRL EC_FLIP_CTRL_ARMED).regStep_raise EC_FLIP_CTRL EC_FLIP_CTRL_HIT).canonical ((u.regStep_clearF _ _).canonical h1)
    generalize (u.clearF EC_FLIP_CTRL EC_FLIP_CTRL_ARMED).raise EC_FLIP_CTRL EC_FLIP_CTRL_HIT = w at h2 ⊢
    obtain ⟨g1, g2, g3, g4, g5, g6, g7⟩ := Slice.canonical_logErr h2 0x04 (w.log1Word arr idx word 0x7F 0 0) (w.targetPid arr idx)
    exact ⟨g1, g2, g3, g4, g5, g6, Tbl.wf_put _ _ _ _ g7⟩
  · exact h1

theorem Slice.canonical_wroteWords {s : Slice} (h : s.canonical) (arr idx : Nat) (p : Nat → Bool) : (s.wroteWords arr idx p).canonical := by
  unfold Slice.wroteWords
  refine Slice.canonical_foldl _ (fun t w ht => ?_) _ s h
  split
  · exact Slice.canonical_wrote ht _ _ _
  · exact ht

theorem Slice.canonical_rtAlloc {s : Slice} (h : s.canonical) (key : Nat) : (s.rtAlloc key).canonical := by
  unfold Slice.rtAlloc
  split
  · exact h
  · split
    · exact (s.regStep_setReg _ _).canonical h
    · exact Slice.canonical_logErr ((s.regStep_raise _ _).canonical h) _ _ _

theorem Slice.canonical_quarantineFrame {s : Slice} (h : s.canonical) (key : Nat) : (s.quarantineFrame key).canonical := by
  unfold Slice.quarantineFrame
  split
  · split <;> exact h
  · exact Slice.canonical_rtAlloc h key

theorem Slice.canonical_rtLateAlloc {s : Slice} (h : s.canonical) : s.rtLateAlloc.canonical :=
  Slice.canonical_foldl _ (fun _ k ht => Slice.canonical_rtAlloc ht k) _ _ h

/-- What an uncorrectable error does after its counts and its log entry (R332). -/
theorem Slice.canonical_afterUe {x : Slice} (h : x.canonical) (arr idx src : Nat) :
    (if arr ≤ 2 then
      if x.outsideCache (keyWay idx) then x.quarantineFrame idx
      else if arr = 1 then
        { (x.quarantineFrame idx).raise EC_STATUS EC_STATUS_TAG_LOST with
          frames := Tbl.put Frame.zero ((x.quarantineFrame idx).raise EC_STATUS EC_STATUS_TAG_LOST).frames idx Frame.zero,
          flips := Tbl.drop ((x.quarantineFrame idx).raise EC_STATUS EC_STATUS_TAG_LOST).flips
            (fun k => k / 32 = targetOf 0 idx || k / 32 = targetOf 1 idx || k / 32 = targetOf 2 idx) }
      else if x.quarantine.contains idx then x
      else if (x.rtFind idx).isSome then x
      else { x.quarantineFrame idx with quarantine := x.quarantine ++ [idx] }
    else if arr = 3 then ({ x with repl := Tbl.put 0 x.repl idx 0 }).wrote 3 idx 0
    else if arr = 5 && src != 0 then (x.putWord 5 idx 0 (BitVec.allOnes 64)).wrote 5 idx 0
    else x).canonical := by
  have hq := Slice.canonical_quarantineFrame h idx
  split
  · split
    · exact hq
    · split
      · have hu := ((x.quarantineFrame idx).regStep_raise EC_STATUS EC_STATUS_TAG_LOST).canonical hq
        generalize (x.quarantineFrame idx).raise EC_STATUS EC_STATUS_TAG_LOST = u at hu ⊢
        obtain ⟨h1, h2, h3, h4, h5, h6, h7⟩ := hu
        have h8 := Tbl.wf_put Frame.zero u.frames idx Frame.zero h3
        have h9 := Tbl.wf_drop 0 u.flips (fun k => decide (k / 32 = targetOf 0 idx) || decide (k / 32 = targetOf 1 idx) || decide (k / 32 = targetOf 2 idx)) h7
        generalize Tbl.put Frame.zero u.frames idx Frame.zero = fr at h8 ⊢
        exact ⟨h1, h2, h8, h4, h5, h6, h9⟩
      · split
        · exact h
        · split
          · exact h
          · exact hq
  · split
    · refine Slice.canonical_wrote ?_ 3 idx 0
      obtain ⟨h1, h2, h3, h4, h5, h6, h7⟩ := h
      exact ⟨h1, h2, h3, Tbl.wf_put 0 x.repl idx 0 h4, h5, h6, h7⟩
    · split
      · exact Slice.canonical_wrote (Slice.canonical_putWord h 5 idx 0 (BitVec.allOnes 64)) 5 idx 0
      · exact h

theorem Slice.canonical_noteUe {s : Slice} (h : s.canonical) (arr idx word src : Nat) : (s.noteUe arr idx word src).canonical := by
  unfold Slice.noteUe
  refine Slice.canonical_afterUe (Slice.canonical_logErr ((Slice.pcEv_regStep _ _ _ _).canonical ((Slice.regStep_raise _ _ _).canonical ?_)) _ _ _) arr idx src
  split
  · exact (Slice.regStep_bump _ _ _ _).canonical ((s.regStep_bump _ _ _).canonical h)
  · exact (s.regStep_bump _ _ _).canonical h

theorem Slice.canonical_noteRead {s : Slice} (h : s.canonical) (arr idx src w : Nat) : (s.noteRead arr idx src w).canonical := by
  unfold Slice.noteRead
  split
  · exact h
  · exact Slice.canonical_noteCe h _ _ _ _ _
  · exact Slice.canonical_noteUe h _ _ _ _

/-- Reading words keeps the arrays canonical, whatever errors they hold. -/
theorem Slice.canonical_noteReads {s : Slice} (h : s.canonical) (arr idx src : Nat) (p : Nat → Bool) : (s.noteReads arr idx src p).canonical := by
  unfold Slice.noteReads
  refine Slice.canonical_foldl _ (fun t w ht => ?_) _ s h
  split
  · exact Slice.canonical_noteRead ht _ _ _ _
  · exact ht

theorem Slice.canonical_writeBack {s : Slice} (h : s.canonical) (arr idx : Nat) : (s.writeBack arr idx).canonical := by
  unfold Slice.writeBack
  refine Slice.canonical_foldl _ (fun t w ht => ?_) _ s h
  split
  · exact Slice.canonical_wrote (Slice.canonical_putWord ht _ _ _ _) _ _ _
  · exact ht

/-! ### Frames -/

/-- Writing a frame keeps the arrays canonical. -/
theorem Slice.canonical_putFrame {s : Slice} (h : s.canonical) (key : Nat) (f : Frame) : (s.putFrame key f).canonical := by
  have h1 := Slice.canonical_setFrame h key f
  unfold Slice.putFrame
  dsimp only
  split
  · exact h1
  · exact Slice.canonical_wrote (Slice.canonical_wrote (Slice.canonical_wroteWords h1 _ _ _) _ _ _) _ _ _

theorem Slice.canonical_putTags {s : Slice} (h : s.canonical) (key : Nat) (w0 w1 : Word) : (s.putTags key w0 w1).canonical := by
  have h1 := Slice.canonical_setFrame h key { Tbl.at Frame.zero s.frames key with w0 := w0, w1 := w1 }
  unfold Slice.putTags
  dsimp only
  split
  · exact h1
  · exact Slice.canonical_wrote (Slice.canonical_wrote h1 _ _ _) _ _ _

theorem Slice.canonical_putW0 {s : Slice} (h : s.canonical) (key : Nat) (w0 : Word) : (s.putW0 key w0).canonical := by
  have h1 := Slice.canonical_setFrame h key { Tbl.at Frame.zero s.frames key with w0 := w0 }
  unfold Slice.putW0
  dsimp only
  split
  · exact h1
  · exact Slice.canonical_wrote h1 _ _ _

theorem Slice.canonical_putW1 {s : Slice} (h : s.canonical) (key : Nat) (w1 : Word) : (s.putW1 key w1).canonical := by
  have h1 := Slice.canonical_setFrame h key { Tbl.at Frame.zero s.frames key with w1 := w1 }
  unfold Slice.putW1
  dsimp only
  split
  · exact h1
  · exact Slice.canonical_wrote h1 _ _ _

theorem Slice.canonical_unlost {s : Slice} (h : s.canonical) (key : Nat) : (s.unlost key).canonical := by
  unfold Slice.unlost
  have h1 : (if s.lostKeys.contains key = true then { s with lostKeys := s.lostKeys.filter (fun k => k != key) } else s).canonical := by
    split <;> exact h
  dsimp only
  generalize (if s.lostKeys.contains key = true then { s with lostKeys := s.lostKeys.filter (fun k => k != key) } else s) = u at h1 ⊢
  split
  · split
    · exact (u.regStep_clearF _ _).canonical h1
    · exact h1
  · exact h1

theorem Slice.canonical_voidFrame {s : Slice} (h : s.canonical) (key : Nat) : (s.voidFrame key).canonical := by
  unfold Slice.voidFrame
  have hu := Slice.canonical_unlost h key
  have hf := Tbl.wf_put Frame.zero s.frames key Frame.zero h.2.2.1
  generalize s.unlost key = v at hu ⊢
  generalize Tbl.put Frame.zero s.frames key Frame.zero = fr at hf ⊢
  have h1 : ({ v with frames := fr } : Slice).canonical := ⟨hu.1, hu.2.1, hf, hu.2.2.2⟩
  generalize ({ v with frames := fr } : Slice) = u at h1 ⊢
  dsimp only
  split
  · exact h1
  · exact Slice.canonical_wrote (Slice.canonical_dropFlips h1 _) _ _ _

theorem Slice.canonical_putLedger {s : Slice} (h : s.canonical) (k : Nat) (v : Word) : (s.putLedger k v).canonical := by
  have h1 := Slice.canonical_putWord h 5 k 0 v
  unfold Slice.putLedger
  dsimp only
  split
  · exact h1
  · exact Slice.canonical_wrote h1 _ _ _

theorem Slice.canonical_putBytes {s : Slice} (h : s.canonical) (key : Nat) (m : BitVec 128) (d : Line) : (s.putBytes key m d).1.canonical := by
  unfold Slice.putBytes
  dsimp only
  split
  · exact Slice.canonical_setFrame h key _
  · exact Slice.canonical_wroteWords (Slice.canonical_setFrame (Slice.canonical_noteReads h _ _ _ _) key _) _ _ _

/-- Touching a way keeps the arrays canonical (R77). -/
theorem Slice.canonical_touch {s : Slice} (h : s.canonical) (x w : Nat) : (s.touch x w).canonical := by
  unfold Slice.touch
  dsimp only
  have h1 := Slice.canonical_noteReads h 3 (s.replKey x) 0 (fun _ => true)
  generalize s.noteReads 3 (s.replKey x) 0 (fun _ => true) = u at h1 ⊢
  have h2 : ({ u with repl := Tbl.put 0 u.repl (u.replKey x) (touchBits (u.replBits x) w) } : Slice).canonical := by
    obtain ⟨h1, h2, h3, h4, h5, h6, h7⟩ := h1
    exact ⟨h1, h2, h3, Tbl.wf_put _ _ _ _ h4, h5, h6, h7⟩
  split
  · exact h2
  · exact Slice.canonical_wrote h2 _ _ _

end Sys2Proof.Machine
end

