-- ==== Sys2Proof/Tests/Slice0.lean ====
section
/-! SUPPORT. Tests: small states, one step each. A test named wit_ shows a state and operands that meet the hypotheses of a statement (one clause of
it), with what the command does there. Expected values are worked out from the rules that a test names. -/

namespace Sys2Proof.Tests

open Sys2Proof Sys2Proof.Machine

set_option Elab.async false

/-- A slice that runs: start-up done, PID 0 ACTIVE, 256 cores from node 0 on, its own nodes 2000 to 2003, 8 credits of every channel; PID 0 has
the pinned ways 12 to 15. -/
def running : Slice :=
  { Slice.reset with
    start := { Startup.init with aonReset := false, sliceReset := false, rails := true, powered := true, staged := true, aligned := true,
                                 loaded := true, flueOpen := true, rosterSeen := true },
    rxCred := (List.range 16).map (fun k => (k, 8)), txCred := (List.range 16).map (fun k => (k, 8)),
    regs := [(ID_REV, 0x0A470D7500000300), (ID_GEOM, 0x000000200C100182), (ID_NODE, 2000 + 2001 * 2 ^ 11 + 2002 * 2 ^ 22 + 2003 * 2 ^ 33),
             (ID_STATUS, 1), (PT_CTRL 0, 0x100), (PT_WAYS 0, 0xF0000FFF), (PT_STATUS 0, 2), (CO_NODEMAP, 0x1000000),
             (CZ_CTRL, 0x180000000000), (PG_PHASE_HINT, 0xFFFF), (EC_CTRL, 0x2F), (NV_STATUS, 8)] }

/-- The slice that a command leaves. -/
def after (c : Instr) (s : Slice) : Option Slice :=
  match exec c ⟨s, []⟩ with
  | .next t => some t.slice
  | _ => none

/-- A message on a port. -/
def msg (port : Port) (src addr : Nat) (ext0 ext1 : Nat) (pl : Payload) : Arr :=
  ⟨port, BitVec.ofNat 11 src, 2000, 0, 5, false, 0, BitVec.ofNat 15 ext0, BitVec.ofNat 48 addr, BitVec.ofNat 16 ext1, pl⟩

/-- A property of the slice that a command leaves. -/
def leaves (c : Instr) (s : Slice) (p : Slice → Bool) : Bool :=
  match after c s with
  | some t => p t
  | none => false

/-! ### The block -/

/-- R403: no credit. -/
theorem wit_uncredited : (after (.rdS (msg 0 7 0x1000 0 0 0)) { running with rxCred := [] }).isNone = true := by decide +kernel

/-- R400. -/
theorem wit_clamped : let s := { running with start := { running.start with rails := false }, rxCred := [] }
    s.clamped = true ∧ leaves (.rdS (msg 0 7 0x1000 0 0 0)) s (fun t => t.egress = [] && t.regs = s.regs) = true := by decide +kernel

theorem wit_settled : running.settle.settled := by
  refine ⟨by decide +kernel, by decide +kernel, by decide +kernel, by decide +kernel, ?_, by decide +kernel⟩
  intro h hh; interval_cases h <;> decide +kernel

/-! ### The register window -/

/-- R12: ID_CTRL is RW. -/
theorem wit_write_rw : running.ready = true ∧ (regAt ID_CTRL).map (fun x => plainBase x.1.base) = some true
    ∧ leaves (.registerWrite 7 (BitVec.ofNat 16 ID_CTRL) 0xFFFF) running (fun t => t.reg ID_CTRL = 3 ) = true := by decide +kernel

/-- R12, R14: MISROUTE of ID_STATUS is RW1C, but for an event of the same fc. -/
theorem wit_write_rw1c : let s := running.setFld ID_STATUS ID_STATUS_MISROUTE 1
    leaves (.registerWrite 7 (BitVec.ofNat 16 ID_STATUS) 0xFFFF) s (fun t => t.reg ID_STATUS = 1) = true
    ∧ leaves (.registerWrite 7 (BitVec.ofNat 16 ID_STATUS) 0xFFFF) (running.raise ID_STATUS ID_STATUS_MISROUTE)
        (fun t => t.flag ID_STATUS ID_STATUS_MISROUTE) = true := by decide +kernel

/-- R13: CORE_COUNT is locked while PID 1 is active. -/
theorem wit_write_locked : let s := running.setFld (PT_STATUS 1) PT_STATUS_STATE 2
    leaves (.registerWrite 7 (BitVec.ofNat 16 CO_NODEMAP) 0x20000) s (fun t => t.reg CO_NODEMAP = 0x1000000
      && getF (Tbl.at ⟨0, 0, 0⟩ t.errLog 0).log2 ⟨56, 5⟩ = 9) = true := by decide +kernel

/-- R390, R387, R248, R396: counters, lanes and TAP_LOCK. -/
theorem wit_write_counter : leaves (.pcCfgWrite 3 7 0x3) running (fun t => t.reg (PC_CFG 3) = 0x3) = true
    ∧ leaves (.pcCfgWrite 3 7 0x3) running (fun t => t.pcCfg 3 PC_CFG_EVENT = 0 && t.fld (PC_CFG 3) PC_CFG_EVENT = 3) = true
    ∧ leaves (.pcValWrite 3 7 99) running (fun t => t.fld (PC_VAL 3) PC_VAL_VALUE = 99) = true
    ∧ leaves (.dgLaneWrite 2 1 7 0x1234) running (fun t => t.reg (DG_LANE 2 1) = 0x1234) = true
    ∧ leaves (.tapLock 7 0) running (fun t => t.fld TD_CTRL TD_CTRL_TAP_LOCK = 1) = true := by decide +kernel

/-- R11. -/
theorem wit_no_register : regAt 0x3FF8 = none ∧ leaves (.registerWrite 7 0x3FF8 5) running (fun t => t = running.noted.settle) = true := by decide +kernel

/-- R41: CLEAR of the misroute count; R305: of an energy counter with its residue. -/
theorem wit_clear : leaves (.idMisrouteCntClear 7 0) (running.setReg ID_MISROUTE_CNT 77) (fun t => t.reg ID_MISROUTE_CNT = 0) = true
    ∧ leaves (.pgEnergyClear false 3 7 0) { running.setReg (PG_ENERGY 3) 5 with gov := { running.gov with residue := [(3, 9), (4, 1)] } }
        (fun t => t.reg (PG_ENERGY 3) = 0 && t.gov.residue = [(4, 1)]) = true
    ∧ leaves (.pgGstatClear 2 7 0) (running.setReg (PG_GSTAT 2) 0x4000000000000012) (fun t => t.reg (PG_GSTAT 2) = 0) = true
    ∧ leaves (.epPcntClear 0 7 0) running (fun t => t = { running.noted with wroteRegs := t.wroteRegs }.settle) = true := by decide +kernel

/-- A register access of the running slice. -/
def cfgMsg (off : Nat) (v : Payload) : Arr := msg 0 7 off 0 0 v

/-- R9. -/
theorem wit_bad_size : running.cfgAt 12 = .own 8
    ∧ leaves (.cfgWr (cfgMsg 12 5) true) running (fun t => t.egress = [running.outRsp 0 20 (cfgMsg 12 5) RS_COMP 0]) = true
    ∧ leaves (.cfgRd (cfgMsg 12 0) true) running (fun t => t.egress = [running.outDat 0 24 (cfgMsg 12 0) DT_CFG_DATA 0 0]) = true := by decide +kernel

/-- R12, R129. -/
theorem wit_register_access : running.cfgAt 0x18 = .own 0x18
    ∧ leaves (.cfgRd (cfgMsg 0x18 0) true) running (fun t => t.egress = [running.outDat 0 24 (cfgMsg 0x18 0) DT_CFG_DATA 0 ((running.reg ID_NODE).setWidth 1152)]) = true
    ∧ leaves (.cfgWr (cfgMsg 0x20 3) true) running (fun t => t.egress = [running.outRsp 0 20 (cfgMsg 0x20 3) RS_COMP 0] && t.reg ID_CTRL = 3) = true := by
  decide +kernel

/-- R31, R32: an access that crosses from H1, and one that meets another, wait for the arbiter. -/
theorem wit_register_waits : (running.regEnters { cfgMsg 0x20 3 with port := 2 } 0x20
      ∧ leaves (.cfgWr { cfgMsg 0x20 3 with port := 2 } true) running (fun t => t.regWait.length = 1) = true)
    ∧ leaves (.cfgRd (cfgMsg 0x20 3) true) { running with regWait := [⟨OP_CFG_RD, cfgMsg 0x20 0, 0, false, false, 0⟩] } (fun t => t.regWait.length = 2) = true := by
  decide +kernel

/-! ### The check stage -/

/-- R39: the opcode is tested first; the other half's port adds 2 fc. -/
theorem wit_undefined : reqDefined 0x07 = false
    ∧ leaves (.undefinedReq 0x07 (msg 2 7 0x0 0 0 0)) running (fun t => t.egress = [running.outRsp 0 12 (msg 2 7 0x0 0 0 0) RS_UNSUPPORTED 0]
        && getF (Tbl.at ⟨0, 0, 0⟩ t.errLog 0).log2 ⟨56, 5⟩ = 0xC) = true := by decide +kernel

/-- R25: an address of slice 5. -/
theorem wit_misrouted : let s := { running with homeMap := [(8, 5)] }
    s.homeOf 0x1000 = 5
    ∧ leaves (.rdNc (msg 0 7 0x1000 0 0 0)) s (fun t => t.egress = [s.outRsp 0 10 (msg 0 7 0x1000 0 0 0) RS_MISROUTED 0]
        && t.reg ID_MISROUTE_CNT = 1 && t.fld ID_MISROUTE_ADDR ID_MISROUTE_ADDR_ADDR = 0x1000 && t.fld ID_MISROUTE_ADDR ID_MISROUTE_ADDR_SRC = 7) = true := by
  decide +kernel

/-- R25: an RSP to another node. -/
theorem wit_misrouted_rsp : leaves (.misrouted .rsp RS_INV_ACK { msg 0 7 0x1000 0 0 0 with dst := 5 }) running
    (fun t => t.reg ID_MISROUTE_CNT = 1 && t.reg ID_MISROUTE_ADDR = 7 <<< 48 && t.egress = []) = true := by decide +kernel

/-- R51, R52: PID 3 is not ACTIVE; the owner is another; the range is read-only; the offset is past the buffer. -/
theorem wit_denied_pid : let a := { msg 0 7 0x1000 0 0 0 with pid := 3 }
    leaves (.rdNc a) running (fun t => t.egress = [running.outRsp 0 10 a RS_ACCESS_DENIED 0] && t.reg (PT_DENY_CNT 3) = 1
      && t.reg (PT_DENY 3) = 0x8007000000001000) = true := by decide +kernel
theorem wit_denied_owner : let s := (running.setReg (RM_HI 0) (setF (setF 0 RM_HI_VALID 1) RM_HI_PID 4))
    s.owner 0x1000 = 4 ∧ leaves (.rdNc (msg 0 7 0x1000 0 0 0)) s (fun t => t.egress = [s.outRsp 0 10 (msg 0 7 0x1000 0 0 0) RS_ACCESS_DENIED 0]) = true := by
  decide +kernel
theorem wit_denied_rdonly : let s := (running.setReg (RM_HI 0) (setF (setF 0 RM_HI_VALID 1) RM_HI_RDONLY 1))
    s.rdonly 0x1000 = true ∧ leaves (.zeroLine (msg 0 7 0x1000 0 0 0)) s (fun t => t.egress = [s.outRsp 0 10 (msg 0 7 0x1000 0 0 0) RS_ACCESS_DENIED 0]) = true := by
  decide +kernel
theorem wit_denied_buffer : running.bufBytes 0 = 0x200000
    ∧ leaves (.pinRd (msg 0 7 0x200000 0 0 0)) running (fun t => t.egress = [running.outRsp 0 10 (msg 0 7 0x200000 0 0 0) RS_ACCESS_DENIED 0]) = true := by
  decide +kernel

/-! ### Partitions -/

/-- PID 1 in a state and phase. -/
def part (st ph : Nat) : Slice := (running.setFld (PT_STATUS 1) PT_STATUS_STATE st).setFld (PT_STATUS 1) PT_STATUS_PHASE ph

/-- R45, R47: the ways of R46's example: OK with a pass, OK without one, WAY_IN_USE, and BAD_WRITE. -/
theorem wit_activate : leaves (.ptActivate 1 7 8) (running.setReg (PT_WAYS 1) 0x00000001) (fun t => t.ptState 1 = 1 && t.fld (PT_STATUS 1) PT_STATUS_CMD_RESULT = 1
        && t.sealed 1 && t.walks = []) = true
    ∧ leaves (.ptActivate 1 7 0) (running.setReg (PT_WAYS 1) 0x00030010) (fun t => t.ptState 1 = 1 && (t.walks.map Walk.kind) = [.activate 1 3]) = true
    ∧ leaves (.ptActivate 1 7 0) (running.setReg (PT_WAYS 1) 0x10000010) (fun t => t.ptState 1 = 0 && t.fld (PT_STATUS 1) PT_STATUS_CMD_RESULT = 4) = true
    ∧ leaves (.ptActivate 1 7 2) running (fun t => t.ptState 1 = 0 && t.fld (PT_STATUS 1) PT_STATUS_CMD_RESULT = 7) = true := by decide +kernel

/-- R59, R60: the four cases of RELEASE. -/
theorem wit_release : leaves (.ptRelease 0 7 0) running (fun t => t.fld (PT_STATUS 0) PT_STATUS_CMD_RESULT = 8 && t.ptState 0 = 2) = true
    ∧ leaves (.ptRelease 1 7 4) (part 1 0) (fun t => t.ptState 1 = 1 && Tbl.at false t.relWait 1 && Tbl.at false t.relFlush 1) = true
    ∧ leaves (.ptRelease 1 7 4) { part 2 0 with count := 9 } (fun t => t.ptState 1 = 3 && t.reg (PT_SWEEP_START 1) = 9
        && t.fld (PT_SWEEP_REC 1) PT_SWEEP_REC_FLUSHED = 1) = true
    ∧ leaves (.ptRelease 1 7 4) (part 3 1) (fun t => t.reg (PT_STATUS 1) = (part 3 1).reg (PT_STATUS 1)) = true := by decide +kernel

/-- A walk that has visited every row and entry. -/
def ended (k : WalkKind) : Walk := ⟨0, k, (List.range 16).map (fun b => (b, 4096)), 32⟩

/-- R56. -/
theorem wit_seal : leaves (.ptSeal 1 7 0) (part 2 0) (fun t => t.sealed 1) = true ∧ leaves (.ptSeal 1 7 0) running (fun t => !(t.sealed 1)) = true
    ∧ leaves (.ptSeal 0 7 0) running (fun t => !(t.sealed 0)) = true := by decide +kernel

/-- R47, R59: ACTIVE, or RELEASING where a release waits. -/
theorem wit_activation_done : leaves (.activationDone 1) (part 1 0) (fun t => t.ptState 1 = 2 && t.flag (PT_CTRL 1) PT_CTRL_ACTIVE) = true
    ∧ leaves (.activationDone 1) { part 1 0 with relWait := [(1, true)] } (fun t => t.ptState 1 = 3) = true := by decide +kernel

/-- A frame of PID 1 in way 0 of set 0, valid and dirty. -/
def frame1 : Frame := ⟨rawW0 1 0 15 15 false, 0, 5⟩

/-- R60: the walk of the recall has every row to visit. -/
theorem wit_sweep_recall : leaves (.sweepRecall 1) { part 3 0 with frames := [(0, frame1)] }
      (fun t => t.walks = [⟨0, .sweep 1 false, [], 0⟩] && t.fld (PT_STATUS 1) PT_STATUS_PHASE = 1) = true
    ∧ leaves (.sweepRecall 1) (part 2 0) (fun t => t = (part 2 0).settle) = true := by decide +kernel

/-- R60, R61: the recall over, the walk of phase ZERO visits a row: the line of PID 1 goes, that of PID 0 stays. -/
theorem wit_sweep_zero : let s := { part 3 1 with frames := [(0, frame1), (1, ⟨rawW0 0 4 15 15 false, 0, 7⟩)], walks := [ended (.sweep 1 false)] }
    s.walkOver (ended (.sweep 1 false)) = true
    ∧ leaves (.sweepZero 1) s (fun t => t.walks = [⟨0, .zero 1, [], 0⟩] && t.fld (PT_STATUS 1) PT_STATUS_PHASE = 2) = true
    ∧ (s.walkVisit ⟨0, .zero 1, [], 0⟩ 0 3).frames = [(1, ⟨rawW0 0 4 15 15 false, 0, 7⟩)] := by decide +kernel

/-- R62. -/
theorem wit_sweep_done : leaves (.sweepDone 1) { (part 3 2).raise (PT_CTRL 1) PT_CTRL_SWEEP_IRQ_EN with count := 50 } (fun t => t.ptState 1 = 0
    && t.fld (PT_SWEEP_REC 1) PT_SWEEP_REC_DONE = 1 && t.fld (PT_SWEEP_REC 1) PT_SWEEP_REC_DURATION = 50 && t.pins.mgmtMore) = true := by decide +kernel

/-! ### Region map, home map, maintenance walks -/

/-- R50: a base; a base of a valid entry; a limit below the base; a range that meets another; a range of its own. -/
theorem wit_rm : leaves (.rmLoWrite 3 7 0x400) running (fun t => t.fld (RM_LO 3) RM_LO_BASE = getF (0x400 : Word) RM_LO_BASE) = true
    ∧ leaves (.rmLoWrite 3 7 0x400) (running.setFld (RM_HI 3) RM_HI_VALID 1) (fun t => t.flag RM_STATUS RM_STATUS_BAD_RANGE && t.fld RM_STATUS RM_STATUS_INDEX = 3
        && t.reg (RM_LO 3) = 0) = true
    ∧ leaves (.rmHiWrite 3 7 (setF (setF 0 RM_HI_VALID 1) RM_HI_LIMIT 4)) (running.setFld (RM_LO 3) RM_LO_BASE 5)
        (fun t => t.flag RM_STATUS RM_STATUS_BAD_RANGE && t.reg (RM_HI 3) = 0) = true
    ∧ leaves (.rmHiWrite 3 7 (setF (setF 0 RM_HI_VALID 1) RM_HI_LIMIT 6)) (((running.setFld (RM_LO 3) RM_LO_BASE 5).setFld (RM_LO 9) RM_LO_BASE 6).setReg (RM_HI 9)
        (setF (setF 0 RM_HI_VALID 1) RM_HI_LIMIT 6)) (fun t => t.flag RM_STATUS RM_STATUS_OVERLAP && t.reg (RM_HI 3) = 0) = true
    ∧ leaves (.rmHiWrite 3 7 (setF (setF 0 RM_HI_VALID 1) RM_HI_LIMIT 5)) (((running.setFld (RM_LO 3) RM_LO_BASE 5).setFld (RM_LO 9) RM_LO_BASE 6).setReg (RM_HI 9)
        (setF (setF 0 RM_HI_VALID 1) RM_HI_LIMIT 6)) (fun t => t.fld (RM_HI 3) RM_HI_LIMIT = 5 && t.flag (RM_HI 3) RM_HI_VALID) = true := by decide +kernel

/-- R24, R41: entries 8 to 15, with AUTOINC; slice 5 is not on the roster. -/
theorem wit_home_map : let s := (running.setReg ID_HM_INDEX 0x101).setReg RG_ROSTER 1
    s.anyActive = false ∧ leaves (.idHmDataWrite 7 0x0500) s (fun t => t.homeMap = [(9, 5)] && t.fld ID_HM_INDEX ID_HM_INDEX_GROUP = 2
      && t.flag ID_STATUS ID_STATUS_MAP_BAD) = true := by decide +kernel

/-- R93: every line of PID 1; an ignored START; the end. -/
theorem wit_maint : let v := setF (setF 0 CZ_MAINT_CTRL_SCOPE 1) CZ_MAINT_CTRL_PID 1
    leaves (.maintClean 7 v) { running with frames := [(0, frame1)] } (fun t => t.walks = [⟨0, .maint 1 1 1 0 0, [], 0⟩] && t.flag CZ_MAINT_STATUS CZ_MAINT_STATUS_BUSY) = true
    ∧ leaves (.maintFlush 7 0) { running with frames := [(0, frame1)] } (fun t => t.walks = [⟨0, .maint 2 0 0 0 0, [], 0⟩]) = true
    ∧ leaves (.maintInval 7 0) (running.raise CZ_MAINT_STATUS CZ_MAINT_STATUS_BUSY) (fun t => t.walks = []) = true
    ∧ leaves .maintWalkDone { (running.raise CZ_MAINT_STATUS CZ_MAINT_STATUS_BUSY).raise CZ_MAINT_CTRL CZ_MAINT_CTRL_IRQ_EN with walks := [ended (.maint 2 0 0 0 0)] }
        (fun t => t.reg CZ_MAINT_STATUS = 0x8000000000000000 && t.pins.mgmtMore && t.walks = []) = true
    ∧ leaves .maintWalkDone { running with walks := [⟨0, .maint 2 0 0 0 0, [], 0⟩] } (fun t => t.walks = [⟨0, .maint 2 0 0 0 0, [], 0⟩]) = true := by decide +kernel

/-! ### Cache and coherence home -/

/-- The request is admitted and granted at once. -/
def opens (s : Slice) (op : BitVec 6) (a : Arr) (lp : Nat) : Bool := decide (s.opens [] op a lp false)

/-- The frame of line 0x20 (address 0x1000) in way 0. -/
def key1 : Nat := running.fkey (lineSet 0x20) 0

/-- The running slice with line 0x20 in a raw frame: dirty sectors, word 1 and data given. -/
def holds (sd : Nat) (w1 : Word) (d : Line) : Slice := { running with frames := [(key1, ⟨rawW0 0 0x20 15 sd false, w1, d⟩)] }

/-- A request for line 0x20 from core 7. -/
def reqA (ext0 : Nat) (pl : Payload) : Arr := msg 0 7 0x1000 ext0 0 pl

/-- R136: E for a class C line that nobody holds; then FWDPTR names core 7 in X. -/
theorem wit_read_hit_s : let s := holds 0 0 0xAB
    opens s OP_RD_S (reqA 0 0) 0 = true ∧ s.rawAt 0 0x20 key1 0 ∧ s.freeHte (firstBank OP_RD_S (reqA 0 0)) = some 0 ∧ s.holder ⟨OP_RD_S, reqA 0 0, 0, false, false, 0⟩ = some 7
    ∧ leaves (.rdS (reqA 0 0)) s (fun t => t.egress = [s.outDat 0 22 (reqA 0 0) DT_DATA 3 0xAB] && t.frame key1 = ⟨rawW0 0 0x20 15 0 false, setOwner 0 7, 0xAB⟩
        && (t.hte (firstBank OP_RD_S (reqA 0 0)) 0).st = .wAck) = true := by decide +kernel
theorem wit_read_hit_x : leaves (.rdX (reqA 0 0)) (holds 0 0 0xAB) (fun t => t.egress = [running.outDat 0 22 (reqA 0 0) DT_DATA 4 0xAB]) = true
    ∧ leaves (.upg (reqA 0 0)) (holds 0 0 0xAB) (fun t => t.egress = [running.outDat 0 22 (reqA 0 0) DT_DATA 4 0xAB]) = true
    ∧ leaves (.rdNc (reqA 0 0)) (holds 0 0 0xAB) (fun t => t.egress = [running.outDat 0 22 (reqA 0 0) DT_DATA 0 0xAB] && t.frames = (holds 0 0 0xAB).frames) = true := by
  decide +kernel

/-- R137: MEM_RD under TXN 0x100 from port 0. -/
theorem wit_read_miss : let s := running
    opens s OP_RD_X (reqA 0 0) 0 = true ∧ s.locate 0 0x20 = .absent ∧ s.alloc 0x20 0 0 ≠ .wait .way ∧ s.freeFill 0 0 = some 0 ∧ s.fillLimited = false
    ∧ leaves (.rdX (reqA 0 0)) s (fun t => t.egress.map (fun o => (o.due, o.msg.op, o.msg.txn, o.msg.addr)) = [(14, OP_MEM_RD, 0x100, 0x1000)]
        && (t.hte (firstBank OP_RD_X (reqA 0 0)) 0).st = .wMem && t.frames = []) = true := by decide +kernel

/-- A payload of WR_NC: a byte mask, then data. -/
def wr (m : BitVec 128) (d : Line) : Payload := m.setWidth 1152 ||| (d.setWidth 1152 <<< 128)

/-- R72: byte 1 of a valid sector. -/
theorem wit_write_hit : let s := holds 0 0 0xABCD
    opens s OP_WR_NC (reqA 0 (wr 2 0x1200)) 0 = true ∧ s.rawAt 0 0x20 key1 0
    ∧ leaves (.wrNc (reqA 0 (wr 2 0x1200))) s (fun t => t.egress = [s.outRsp 0 20 (reqA 0 (wr 2 0x1200)) RS_COMP 0]
        && t.frame key1 = ⟨rawW0 0 0x20 15 1 false, 0, 0x12CD⟩) = true
    ∧ leaves (.stash (reqA 0 (wr 2 0x1200))) s (fun t => (t.frame key1).data = 0x12CD) = true := by decide +kernel

/-- R139: the owner's data is written, any other node's is not. -/
theorem wit_wb : leaves (.wb (reqA 1 0x77)) (holds 0 (setOwner 0 7) 0) (fun t => t.frame key1 = ⟨rawW0 0 0x20 15 1 false, 0, 0x77⟩) = true
    ∧ leaves (.wb (reqA 1 0x77)) (holds 0 (setOwner 0 8) 0) (fun t => t.frame key1 = ⟨rawW0 0 0x20 15 0 false, setOwner 0 8, 0⟩
        && t.egress = [running.outRsp 0 20 (reqA 1 0x77) RS_COMP 0]) = true := by decide +kernel

/-- R90, R91. -/
theorem wit_zero_line : leaves (.zeroLine (reqA 0 0)) (holds 0 0 0xAB) (fun t => t.frame key1 = ⟨rawW0 0 0x20 15 15 false, 0, 0⟩
      && t.egress = [running.outRsp 0 20 (reqA 0 0) RS_COMP 0]) = true ∧ opens (holds 0 0 0xAB) OP_ZERO_LINE (reqA 0 0) 0 = true := by decide +kernel
theorem wit_clean_line : leaves (.cleanLine (reqA 0 0)) (holds 3 0 0xAB) (fun t => t.egress.map (fun o => (o.due, o.msg.op, o.msg.ext0, o.msg.pl)) = [(14, OP_MEM_WR, 3, 0xAB)]
      && t.frames = (holds 3 0 0xAB).frames) = true
    ∧ leaves (.cleanLine (reqA 0 0)) (holds 0 0 0xAB) (fun t => t.egress = [running.outRsp 0 20 (reqA 0 0) RS_COMP 0] && t.frames = (holds 0 0 0xAB).frames) = true := by
  decide +kernel
theorem wit_flush_line : leaves (.flushLine (reqA 0 0)) (holds 3 0 0xAB) (fun t => t.egress.map (fun o => o.msg.op) = [OP_MEM_WR]) = true
    ∧ leaves (.flushLine (reqA 0 0)) (holds 0 0 0xAB) (fun t => t.frames = [] && t.egress = [running.outRsp 0 20 (reqA 0 0) RS_COMP 0]) = true
    ∧ leaves (.flushLine (reqA 0 0)) running (fun t => t.frames = [] && t.egress = [running.outRsp 0 20 (reqA 0 0) RS_COMP 0]) = true := by decide +kernel
theorem wit_inval_line : leaves (.invalLine (reqA 0 0)) (holds 3 0 0xAB) (fun t => t.frames = [] && t.egress = [running.outRsp 0 20 (reqA 0 0) RS_COMP 0]) = true := by
  decide +kernel


/-! ### Answers -/

/-- The bank of line 0x20. -/
def bk1 : Nat := bankKey (lineSet 0x20)

/-- The bank of line 0x20 has an HTE, its entry 3. -/
def waits (e : Hte) (s : Slice) : Slice := s.setHte bk1 3 e

/-- An answer of core 7 under the TXN of that HTE. -/
def ans (ext0 : Nat) (pl : Payload) : Arr := { msg 0 7 0 ext0 0 pl with txn := BitVec.ofNat 10 (bk1 * 16 + 3) }

/-- R123: an entry for line 0x20 in a state with answers owed; core 7 asked. -/
def entry (st : HteState) (pend : Nat) (fin : Bool) : Hte :=
  { Hte.none with st := st, line := 0x20, pend := pend, rnode := 7, rtxn := BitVec.ofNat 10 (bk1 * 16 + 3), grant := 3, needAck := fin, fin := fin, peer := 9 }

/-- R131: the last answer frees the entry. -/
theorem wit_comp_ack : let s := waits (entry .wAck 0 true) (holds 0 0 0)
    s.answers (ans 0 0) .rsp bk1 ∧ s.ackHte (ans 0 0) = some (bk1, 3) ∧ s.lastWait bk1 3
    ∧ leaves (.compAck (ans 0 0)) s (fun t => t.hte bk1 3 = Hte.none && t.frames = s.frames) = true := by
  refine ⟨⟨by decide +kernel, by decide +kernel, by decide +kernel, by decide +kernel⟩, by decide +kernel, by decide +kernel, by decide +kernel⟩

/-- R127, R137: the last but one INV_ACK, and the last. -/
theorem wit_inv_ack : (let s := waits (entry .wInv 2 false) (holds 0 0 0)
      s.answers (ans 0 0) .rsp bk1 ∧ leaves (.invAck (ans 0 0)) s (fun t => (t.hte bk1 3).pend = 1 && (t.bank bk1).conts = []) = true)
    ∧ leaves (.invAck (ans 0 0)) (waits (entry .wRecall 1 false) (holds 0 0 0)) (fun t => (t.bank bk1).conts = [⟨3, none, .hte 3⟩]) = true := by
  decide +kernel

/-- R137: FWD_ACK of a forwarded read, and of a FWD_CLEAN; NACK_GONE. -/
theorem wit_fwd_ack : leaves (.fwdAck (ans 0 0)) (waits (entry .wFwd 0 true) (holds 0 0 0)) (fun t => (t.hte bk1 3).gotAns && (t.bank bk1).conts = []) = true
    ∧ leaves (.fwdAck (ans 0 0)) (waits (entry .wFwd 0 false) (holds 0 0 0)) (fun t => (t.hte bk1 3).gotAns && (t.bank bk1).conts = [⟨3, none, .hte 3⟩]) = true
    ∧ leaves (.nackGone (ans 0 0)) (waits (entry .wFwd 0 false) (holds 0 0 0)) (fun t => (t.hte bk1 3).gone && (t.bank bk1).conts = [⟨3, none, .hte 3⟩]
        && t.fld CO_NACK_CNT CO_NACK_CNT_COUNT = 1) = true := by decide +kernel

/-- R137: the dirty sector 1. -/
theorem wit_snp_data : let s := waits (entry .wInv 1 false) (holds 0 0 0)
    s.answers (ans 2 (0x55 <<< 256)) .dat bk1 ∧ s.locate 0 0x20 = .frame key1 ∧ (ans 2 0).smask = 2
    ∧ leaves (.snpData (ans 2 (0x55 <<< 256))) s (fun t => t.frame key1 = ⟨rawW0 0 0x20 15 2 false, 0, 0x55 <<< 256⟩ && (t.bank bk1).conts = [⟨3, none, .hte 3⟩]) = true := by
  refine ⟨?_, ?_⟩ <;> decide +kernel

/-- R137: PUSH_ACK and PUSH_DECLINE. -/
theorem wit_push_ack : let s := waits (entry .wPush 0 false) (holds 0 (setOwner 0 9) 0)
    s.lastWait bk1 3 ∧ leaves (.pushAck (ans 0 0)) s (fun t => t.hte bk1 3 = Hte.none && t.frame key1 = ⟨rawW0 0 0x20 15 0 false, setOwner 0 9, 0⟩
        && t.fld CO_PUSH_CNT CO_PUSH_CNT_ACCEPTED = 1) = true
    ∧ leaves (.pushDecline (ans 0 0)) s (fun t => t.hte bk1 3 = Hte.none && t.frame key1 = ⟨rawW0 0 0x20 15 0 false, 0, 0⟩
        && t.fld CO_PUSH_CNT CO_PUSH_CNT_DECLINED = 1) = true := by decide +kernel

/-- R84: the data of a non-caching read's fill; the answer at T' + 12, the line clean in the way of R76. -/
theorem wit_mem_data : let k := 32 * (bk1 / 8)
    let r : Req := ⟨OP_RD_NC, reqA 0 0, 0, false, false, 0⟩
    let f : Fill := ⟨0x20, 0, 0, 5, .hte (bk1 * 16 + 3), false, 0, false⟩
    let s := { waits (r.hte 0x20 .wMem 0 false) running with fills := [(k, f)] }
    let a : Arr := { msg 0 2047 0 0 0 0x77 with txn := BitVec.ofNat 10 (0x100 + k) }
    s.answers a .dat bk1 ∧ s.alloc 0x20 0 0 = .way 0 ∧ s.pidComp 0 = false
    ∧ leaves (.memData a) s (fun t => t.fills = [] && t.hte bk1 3 = Hte.none && t.frame key1 = ⟨rawW0 0 0x20 15 0 false, 0, 0x77⟩
        && t.egress = [s.outDat r.port (12 + 2 * (bk1 / 8)) r.a DT_DATA 0 0x77]) = true := by decide +kernel

/-- R82, R91: MEM_ACK of a CLEAN_LINE and of a FLUSH_LINE. -/
theorem wit_mem_ack : let s := fun op => { waits { entry .wMemAck 0 false with op := op } (holds 3 0 0xAB) with txns := [(0x140, .wbHte bk1 3)] }
    let a : Arr := { ans 0 0 with txn := 0x140 }
    (s OP_CLEAN_LINE).answers a .rsp bk1
    ∧ leaves (.memAck a) (s OP_CLEAN_LINE) (fun t => t.txns = [] && t.frame key1 = ⟨rawW0 0 0x20 15 0 false, 0, 0xAB⟩ && (t.bank bk1).conts = [⟨3, none, .hte 3⟩]) = true
    ∧ leaves (.memAck a) (s OP_FLUSH_LINE) (fun t => t.txns = [] && t.frames = [] && (t.bank bk1).conts = [⟨3, none, .hte 3⟩]) = true := by decide +kernel

/-- R133: a FWD; an INV_ACK that W_PUSH does not expect; a SNP_DATA in W_ACK; an error RSP that names nothing (R39). -/
theorem wit_unexpected : leaves (.unmatched .fwd 0 (reqA 0 0)) running (fun t => t.fld CO_VIOL_CNT CO_VIOL_CNT_COUNT = 1 && t.fld CO_VIOL CO_VIOL_CODE = 0
      && t.fld CO_VIOL CO_VIOL_ADDR = 0x1000 && getF (Tbl.at ⟨0, 0, 0⟩ t.errLog 0).log2 ⟨56, 5⟩ = 0xD) = true
    ∧ leaves (.invAck (ans 0 0)) (waits (entry .wPush 0 false) running) (fun t => t.fld CO_VIOL CO_VIOL_CODE = 1 && t.fld CO_VIOL CO_VIOL_ADDR = 0x1000
      && t.fld CO_VIOL CO_VIOL_SRC = 7) = true
    ∧ leaves (.invAck (ans 0 0)) (waits (entry .wInv 0 false) running) (fun t => t.fld CO_VIOL CO_VIOL_CODE = 1) = true
    ∧ leaves (.fwdAck (ans 0 0)) (waits { entry .wFwd 0 true with gotAns := true } running) (fun t => t.fld CO_VIOL CO_VIOL_CODE = 1) = true
    ∧ leaves (.snpData (ans 2 0)) (waits { entry .wFwd 0 true with gotAns := true } running) (fun t => t.fld CO_VIOL CO_VIOL_CODE = 1) = true
    ∧ leaves (.snpData (ans 2 0)) (waits (entry .wAck 0 true) running) (fun t => t.fld CO_VIOL_CNT CO_VIOL_CNT_COUNT = 1 && t.hte bk1 3 = entry .wAck 0 true) = true
    ∧ isErrorRsp RS_MISROUTED = true ∧ running.hteByTxn 5 = none
    ∧ leaves (.unmatched .rsp RS_MISROUTED (reqA 0 0)) running (fun t => t.fld CO_VIOL_CNT CO_VIOL_CNT_COUNT = 0
      && getF (Tbl.at ⟨0, 0, 0⟩ t.errLog 0).log2 ⟨56, 5⟩ = 0xD) = true := by decide +kernel

/-- A victim-buffer entry that holds line 0x20 with dirty sectors. -/
def vict1 (sd : Nat) : Victim := ⟨⟨rawW0 0 0x20 15 sd false, 0, 0xAB⟩, lineSet 0x20, 1, none, false, 0, false, false⟩

/-- R80: above VB_HIGH (24 at reset; here 0). -/
theorem wit_departure : let s := fun sd => { running.setReg CZ_CTRL 0 with victims := [(0, vict1 sd)] }
    oldestVict (s 3).mayDepart = some 0 ∧ (s 3).departing < 4 ∧ (s 3).freeTxn = some 0x140
    ∧ leaves .victimDeparture (s 0) (fun t => t.victims = []) = true
    ∧ leaves .victimDeparture (s 3) (fun t => t.egress.map (fun o => (o.due, o.msg.op, o.msg.ext0, o.msg.txn, o.msg.pl)) = [(0, OP_MEM_WR, 3, 0x140, 0xAB)]
        && ((t.vict 0).depart.map Depart.writing) = some true) = true
    ∧ leaves .victimDeparture { running with victims := [(0, vict1 3)] } (fun t => t.victims = [(0, vict1 3)]) = true := by decide +kernel

/-- R80, R81: an entry frees; one with its MEM_WR out does not; a recalled frame goes back. -/
theorem wit_victim_free : let s := fun d => { running with victims := [(0, { vict1 0 with depart := some d })] }
    let d := fun w => (⟨0x140, 0, false, 0, w, false, []⟩ : Depart)
    leaves (.victimEntryFree 0) (s (d false)) (fun t => t.victims = []) = true
    ∧ leaves (.victimEntryFree 0) (s (d true)) (fun t => t.victims = (s (d true)).victims) = true
    ∧ leaves (.recallReinstate 0) { running with victims := [(0, { vict1 3 with recalling := true })] }
        (fun t => t.victims = [] && t.frame key1 = (vict1 3).frame) = true := by decide +kernel

/-- R125: a held read that is ready, and an empty hold queue; R127: a writeback's continuation sends the kept answer. -/
theorem wit_replay : let half := decide (bk1 / 8 = 1)
    let b : Fin 8 := ⟨bk1 % 8, by decide⟩
    let h : HoldEntry := ⟨⟨OP_RD_NC, reqA 0 0, 0, false, false, 0⟩, 0x20, .hte, 0, 0⟩
    let s := (holds 0 0 0xAB).modBank bk1 (fun b => { b with holdq := [h] })
    b2n half * 8 + b.val = bk1 ∧ s.holdReady bk1 h = true
    ∧ leaves (.holdQueueReplay half b) s (fun t => (t.bank bk1).holdq = [] && t.egress = [s.outDat h.req.port 22 h.req.a DT_DATA 0 0xAB]) = true
    ∧ leaves (.holdQueueReplay half b) (holds 0 0 0xAB) (fun t => t.egress = []) = true
    ∧ leaves (.continuationGrant half b) (holds 0 0 0xAB) (fun t => t.egress = []) = true := by decide +kernel
/-- R20, R29: a read that waits at its input is the one candidate of its bank. -/
theorem wit_waiting_read : let r : Req := ⟨OP_RD_NC, reqA 0 0, 0, false, false, 0⟩
    let s := { holds 0 0 0xAB with inputs := [r] }
    s.headsIn s.inputs bk1 = [r] ∧ s.innerAt bk1 = none ∧ (s.bank bk1).slotFree s.slotFc = true
    ∧ (s.arbitrate bk1).egress = [s.outDat 0 22 r.a DT_DATA 0 0xAB] ∧ (s.arbitrate bk1).inputs = [] := by decide +kernel
theorem wit_continuation : let half := decide (bk1 / 8 = 1)
    let b : Fin 8 := ⟨bk1 % 8, by decide⟩
    let x : Answer := ⟨0, answerTo (reqA 0 0) .rsp RS_COMP 0 0, 17, 5, false⟩
    let s := (waits { entry .wMemAck 0 false with ans := [x] } (holds 0 0 0xAB)).modBank bk1 (fun b => { b with conts := [⟨3, none, .hte 3⟩] })
    leaves (.continuationGrant half b) s (fun t => t.hte bk1 3 = Hte.none && (t.bank bk1).conts = []
        && t.egress = [⟨0, 20, 0, 5, false, { x.msg with src := 2000 }, none⟩]) = true := by decide +kernel

/-! ### Pinned buffer -/

/-- The frame of buffer offset 0x80 of PID 0 holds data or is dead. -/
def pinned (f : Frame) : Slice := { running with frames := [(running.bufKey 0 0x80, f)] }

/-- A pinned access at an offset, on a port of its half. -/
def pinA (addr ext0 : Nat) (pl : Payload) : Arr := msg (if halfOfSet (bufSet addr) = 1 then 2 else 0) 7 addr ext0 0 pl

/-- R101, R106: offset 0x80 is in half 1. -/
theorem wit_pin_rd : opens (pinned ⟨0, 0, 0xAB⟩) OP_PIN_RD (pinA 0x80 0 0) 0 = true
    ∧ leaves (.pinRd (pinA 0x80 0 0)) (pinned ⟨0, 0, 0xAB⟩) (fun t => t.egress = [running.outDat 2 18 (pinA 0x80 0 0) DT_PIN_DATA 0 0xAB]) = true
    ∧ leaves (.pinRd (pinA 0x80 0 0)) (pinned ⟨1, 0, 0⟩) (fun t => t.fld CZ_DEADREAD ⟨0, 1⟩ = 1 && t.fld (CZ_DEAD_CNT 0) CZ_DEAD_CNT_COUNT = 1) = true := by decide +kernel

/-- R108: a scheduled read finds its bank's slot taken. -/
theorem wit_pin_conflict : let a := pinA 0 0x4000 0
    let r : Req := ⟨OP_PIN_RD, a, 0, false, false, 0⟩
    let s := { (pinned ⟨0, 0, 0xAB⟩).modBank (firstBank OP_PIN_RD a) (fun b => { b with taken := [(3, 1)] }) with inputs := [r] }
    s.headsIn s.inputs 0 = [r] ∧ r.scheduled = true ∧ (s.bank 0).slotFree s.slotFc = false
    ∧ (s.arbitrate 0).fld CZ_CONFLICT_CNT CZ_CONFLICT_CNT_COUNT = 1 ∧ (s.arbitrate 0).flag CZ_CONFLICT CZ_CONFLICT_VALID = true := by decide +kernel

/-- R102: a copy and a drop start likewise. -/
theorem wit_pin_starts : leaves (.pinCopy { pinA 0x80 0 0x880 with ext1 := 2 }) running (fun t => t.pinOps.length = 1) = true
    ∧ leaves (.pinDrop { pinA 0x80 0 0 with ext1 := 2 }) running (fun t => t.pinOps.length = 1) = true := by decide +kernel

/-- R101: SMASK 0 writes nothing; a write of sector 1 clears DEAD. -/
theorem wit_pin_wr : leaves (.pinWr (pinA 0x80 0 0x1)) (pinned ⟨1, 0, 0⟩) (fun t => t.frame (running.bufKey 0 0x80) = ⟨1, 0, 0⟩) = true
    ∧ leaves (.pinWr (pinA 0x80 2 (0x55 <<< 256))) (pinned ⟨1, 0, 0⟩) (fun t => t.frame (running.bufKey 0 0x80) = ⟨0, 0, 0x55 <<< 256⟩) = true := by decide +kernel

/-- R102: a fill of two frames from offset 0x80, which its step generators take up. -/
theorem wit_pin_fill : let a := { pinA 0x80 0 0x11 with ext1 := 2 }
    opens running OP_PIN_FILL a 0 = true
    ∧ leaves (.pinFill a) running (fun t => t.pinOps = [⟨⟨OP_PIN_FILL, a, 0, false, false, 0⟩, 3, 2, [], [], false, 3⟩]) = true := by
  decide +kernel

/-- An operation under way: a copy, fill or drop of frames from offset 0x80. -/
def pinOp (op : BitVec 6) (left : Nat) (pl : Payload) : PinOp := ⟨⟨op, { pinA 0x80 0 pl with ext1 := 2 }, 0, false, false, 0⟩, 3, left, [], [], false, 3⟩

/-- The running slice with frame 1 of PID 0's buffer (offset 0x80) and frame 0x11 (offset 0x880), and an operation. -/
def copying (o : PinOp) : Slice := { pinned ⟨0, 0, 0xAB⟩ with pinOps := [o] }

/-- R102 to R105: offset 0x80 lies in H1, bank 0; its step of a fill, of a drop, and of a copy from offset 0x880, which is dead and flagged. -/
theorem wit_pin_step : let f := pinOp OP_PIN_FILL 2 0x11
    bankKey (bufSet 0x80) = 8 ∧ f.hasStep 8 = true ∧ f.hasStep 3 = false
    ∧ leaves (.pinStep true 0) (copying f) (fun t => t.frame (running.bufKey 0 0x80) = ⟨0, 0, fillPattern 0x11⟩ && t.pinOps.map (fun o => (o.left, o.last)) = [(1, 3)]
        && t.egress = []) = true
    ∧ leaves (.pinStep true 0) (copying (pinOp OP_PIN_DROP 1 0)) (fun t => t.frame (running.bufKey 0 0x80) = ⟨1, 0, 0⟩ && t.pinOps = []
        && t.egress = [running.outRsp 2 16 (pinOp OP_PIN_DROP 1 0).req.a RS_COMP 0]) = true
    ∧ leaves (.pinStep false 3) (copying f) (fun t => t.pinOps = [f]) = true := by decide +kernel
theorem wit_pin_copy : let o := pinOp OP_PIN_COPY 1 0x880
    let s := { copying o with frames := [(running.bufKey 0 0x80, ⟨0, 0, 0xAB⟩), (running.bufKey 0 0x880, ⟨1, 0, 0⟩)] }
    leaves (.pinStep true 0) s (fun t => t.frame (running.bufKey 0 0x80) = Frame.zero && t.fld CZ_DEADREAD ⟨0, 1⟩ = 1
      && t.egress = [running.outRsp 2 17 o.req.a RS_COMP 0]) = true := by decide +kernel

/-- R105, R157: a drop with AS = 1 of line 0x20 in an accumulation region. -/
theorem wit_pin_drop_line : let s := ((holds 0 0 0xAB).setReg (AX_BASE 0) 0).setReg (AX_LIMIT 0) 0x7FFFFFFFFE00 |>.setReg (AX_CFG 0) (setF 0 AX_CFG_VALID 1)
    let a := reqA 1 0
    a.as = true ∧ opens s OP_PIN_DROP a 0 = true
    ∧ leaves (.pinDrop a) s (fun t => t.frame key1 = ⟨rawW0 0 0x20 15 15 true, 0, deadLine (s.accFmt 0 0x20)⟩
        && t.egress = [s.outRsp 0 20 a RS_COMP 0]) = true := by decide +kernel

/-! ### Fan-out -/

/-- Fan-out entry 0 of PID 0 names cores 0 and 1; FO_CREDIT_INIT is given. -/
def fanned (init : Nat) : Slice :=
  (((pinned ⟨0, 0, 0xAB⟩).setReg (CZ_FO_TGT 0) (setF (setF 0 CZ_FO_TGT_ROW_MASK 1) CZ_FO_TGT_COL_MASK 3)).setReg (CZ_FO_CFG 0) (setF 0 CZ_FO_CFG_VALID 1)).setFld
    CZ_PIN_CTRL CZ_PIN_CTRL_FO_CREDIT_INIT init

/-- A fan-out of offset 0x80 through entry 0. -/
def fanA : Arr := pinA 0x80 0 0

/-- R113: with credits the targets are reserved; without, they wait. -/
theorem wit_fanout : opens (fanned 1) OP_PIN_FANOUT fanA 0 = true ∧ (fanned 1).foTargets 0 = [0, 1] ∧ (fanned 1).mapped 1 = true
    ∧ leaves (.pinFanout fanA) (fanned 1) (fun t => t.fanTx 0 = ⟨⟨OP_PIN_FANOUT, fanA, 0, false, false, 0⟩, 0xAB, [1024, 1025], 10, true, 18, []⟩
        && t.foCredits 0 = 0 && t.foCredits 1 = 0 && t.fanBusy 0 && t.fld (CZ_FO_CFG 0) CZ_FO_CFG_PENDING = 2) = true
    ∧ leaves (.pinFanout fanA) (fanned 0) (fun t => t.fanTx 0 = ⟨⟨OP_PIN_FANOUT, fanA, 0, false, false, 0⟩, 0xAB, [0, 1], 10, false, 0, []⟩) = true := by decide +kernel

/-- Entry 0 has targets to serve. -/
def serving (init : Nat) (pend : List Nat) (on : Bool) : Slice :=
  ({ fanned init with fan := [(0, ⟨⟨OP_PIN_FANOUT, fanA, 0, false, false, 0⟩, 0xAB, pend, 12, on, if on then 20 else 0, []⟩)] }).setFld (CZ_FO_CFG 0) CZ_FO_CFG_BUSY 1

/-- R113: the window's expiry; and of an idle entry. -/
theorem wit_expiry : leaves (.fanoutWindowExpiry 0) { (serving 0 [0, 1] false).setFoCredits 1 2 with fc := 268 } (fun t => (t.fanTx 0).pend = [0, 1025] && (t.fanTx 0).next = 276
      && t.foCredits 1 = 1) = true
    ∧ leaves (.fanoutWindowExpiry 3) (serving 0 [0] false) (fun t => t.fan = (serving 0 [0] false).fan) = true := by decide +kernel

/-- R113, R114: a reserved target; one with a credit; the last. -/
theorem wit_fo_data : leaves (.foData 0) (serving 0 [1025, 0] true) (fun t => t.egress.map (fun o => (o.due, o.msg.op, o.msg.pl)) = [(20, DT_FO_DATA, 0xAB)]
      && (t.fanTx 0).pend = [0] && (t.fanTx 0).next = 21) = true
    ∧ leaves (.foData 0) (serving 3 [0, 1] true) (fun t => t.foCredits 0 = 2 && t.foCredits 1 = 3 && (t.fanTx 0).pend = [1]) = true
    ∧ leaves (.foData 0) (serving 0 [1025] true) (fun t => t.egress.map (fun o => (o.due, o.msg.op)) = [(20, DT_FO_DATA), (21, RS_COMP)] && t.fanBusy 0
        && !({ t with fc := 21 }.foFree.fanBusy 0)) = true := by decide +kernel

/-- R112: credits of node 7 (core 7): 2 more; past 7; from no core. -/
theorem wit_fo_credit : (fanned 1).coreOf 7 = some 7
    ∧ leaves (.foCredit (msg 0 7 0 2 0 0)) (fanned 1) (fun t => t.foCredits 7 = 3 && t.fld CZ_FO_VIOL CZ_FO_VIOL_COUNT = 0) = true
    ∧ leaves (.foCredit (msg 0 7 0 7 0 0)) (fanned 1) (fun t => t.foCredits 7 = 7 && t.fld CZ_FO_VIOL CZ_FO_VIOL_COUNT = 1) = true
    ∧ leaves (.foCredit (msg 0 2001 0 7 0 0)) (fanned 1) (fun t => t.foCred = [] && t.fld CZ_FO_VIOL CZ_FO_VIOL_COUNT = 1) = true := by decide +kernel

/-- R112, R115. -/
theorem wit_fo_registers : (running.setFld (PT_STATUS 0) PT_STATUS_STATE 0).anyActive = false
    ∧ leaves (.foCreditInitWrite 7 5) { running.setFld CZ_PIN_CTRL CZ_PIN_CTRL_FO_CREDIT_INIT 1 with foCred := [(3, 1)] } (fun t => t.foCredits 3 = 5 && t.foCredits 0 = 5) = true
    ∧ leaves (.foCredValWrite 7 6) (running.setFld CZ_FO_CRED_SEL CZ_FO_CRED_SEL_CORE 9) (fun t => t.foCredits 9 = 6 && t.foCredits 8 = 0) = true
    ∧ leaves (.foAbort 0 7 0) (serving 0 [0, 1] false) (fun t => t.fanTx 0 = FanTx.none && !(t.fanBusy 0) && t.fld (CZ_FO_CFG 0) CZ_FO_CFG_DROPPED = 2
        && t.egress.map (fun o => o.msg.op) = [RS_BAD_TARGET]) = true
    ∧ leaves (.foAbort 1 7 0) running (fun t => t.egress = []) = true := by decide +kernel

/-! ### Exact accumulation -/

/-- Descriptor 0: a pinned region of PID 0 over the whole buffer, AXA64, ANCHOR 0. -/
def region (s : Slice) : Slice := ((s.setReg (AX_BASE 0) 0).setReg (AX_LIMIT 0) 0x7FFE00).setReg (AX_CFG 0) (setF (setF (0 : Word) AX_CFG_VALID 1) AX_CFG_KIND 1)

/-- The frames of a request on the buffer from offset 0. -/
def buf (j : Nat) : Nat := running.bufKey 0 (128 * j)

/-- R160: 32 FP32 contributions to two lines, of which the first is 1.0 (2^46 quanta); R167: the finalize of a run of 32 elements, of which the first is 1.0. -/
theorem wit_acc_add : let s := region running
    let a := msg 0 7 0 0x20 0 0x3F800000
    opens s OP_ACC_ADD a 0 = true ∧ spanFrames OP_ACC_ADD a = 2 ∧ s.spanDesc OP_ACC_ADD a = some 0
    ∧ leaves (.accAdd a) s (fun t => elAt axa64 (t.frame (buf 0)).data 0 = ⟨2 ^ 46, 1⟩ && elAt axa64 (t.frame (buf 1)).data 0 = ⟨0, 0⟩
        && t.egress = [s.outRsp (ansPort OP_ACC_ADD a) (s.lastGrant OP_ACC_ADD a + 17) a RS_COMP 0] && t.reg (AX_STATUS 0) = 0) = true := by decide +kernel
theorem wit_acc_flags : let s := region running
    let a := msg 0 7 0 0x20 0 0x7F800000
    leaves (.accAdd a) s (fun t => elAt axa64 (t.frame (buf 0)).data 0 = El.nfEl axa64 && t.flag (AX_STATUS 0) AX_STATUS_NF) = true
    ∧ leaves (.accAdd { a with pl := 0x7F000000 }) s (fun t => t.flag (AX_STATUS 0) AX_STATUS_SAT && t.fld (AX_STATUS 0) AX_STATUS_SAT_CNT = 1) = true
    ∧ leaves (.accAdd a) { s with frames := [(buf 0, ⟨1, 0, 0⟩)] } (fun t => t.fld CZ_DEADREAD ⟨0, 1⟩ = 1) = true := by decide +kernel
theorem wit_acc_merge : let s := region running
    let a := msg 0 7 0 0x20 0 (BitVec.ofNat 1152 ((⟨5, 2⟩ : El).bits axa64))
    spanFrames OP_ACC_MERGE a = 1
    ∧ leaves (.accMerge a) { s with frames := [(buf 0, ⟨0, 0, BitVec.ofNat 1024 ((⟨3, 1⟩ : El).bits axa64)⟩)] } (fun t =>
        elAt axa64 (t.frame (buf 0)).data 0 = ⟨8, 3⟩) = true := by decide +kernel
theorem wit_acc_fin : let s := { region running with frames := [(buf 0, ⟨0, 0, BitVec.ofNat 1024 ((⟨2 ^ 46, 1⟩ : El).bits axa64)⟩)] }
    let a := fun z => msg 0 7 0 (0x20 + z) 0 0
    opens s OP_ACC_FIN (a 0) 0 = true
    ∧ leaves (.accFin (a 0)) s (fun t => t.egress.map (fun o => (o.msg.op, o.msg.pl.extractLsb' 0 64)) = [(DT_ACC_DATA, 0x3F800000)] && t.frames = s.frames) = true
    ∧ leaves (.accFin (a 8)) s (fun t => t.frames = [] && t.egress.map (fun o => o.msg.pl.extractLsb' 0 64) = [0x3F800000]) = true
    ∧ leaves (.accFinFuse { a 0 with pl := 0x40000000 }) s (fun t => t.egress.map (fun o => o.msg.pl.extractLsb' 0 32) = [0x40400000]) = true := by decide +kernel

/-- R166: the exponent of 4.0, 2, over a word of −5. -/
theorem wit_expmax : let s := { running with frames := [(buf 0, ⟨0, 0, 0xFFFFFFFB⟩)] }
    let a := msg 0 7 0 0x20 0 0x40800000
    opens s OP_EXPMAX a 0 = true ∧ leaves (.expmax a) s (fun t => bytesAt (t.frame (buf 0)).data 0 4 = 2) = true := by decide +kernel

/-- R165, R176, R177. -/
theorem wit_descriptors : leaves (.accAnchor (msg 0 7 0 0 0x155 0)) (region running) (fun t => t.fld (AX_CFG 0) AX_CFG_ANCHOR = 0x155 && t.flag (AX_CFG 0) AX_CFG_VALID
      && t.egress = [running.outRsp 0 20 (msg 0 7 0 0 0x155 0) RS_COMP 0]) = true
    ∧ (running.setFld (PT_STATUS 0) PT_STATUS_STATE 0).axBad 3 (setF (setF 0 AX_CFG_VALID 1) AX_CFG_KIND 1) = none
    ∧ leaves (.axCfgWrite 3 7 (setF (setF 0 AX_CFG_VALID 1) AX_CFG_KIND 1)) (running.setFld (PT_STATUS 0) PT_STATUS_STATE 0) (fun t => t.flag (AX_CFG 3) AX_CFG_VALID) = true
    ∧ leaves (.axRangeWrite 3 true 7 0x400) running (fun t => t.reg (AX_LIMIT 3) = 0x400) = true
    ∧ leaves (.axRangeWrite 0 true 7 0x400) (region running) (fun t => t.reg (AX_LIMIT 0) = 0x7FFE00 && t.fld AX_VIOL AX_VIOL_CAUSE = 7) = true
    ∧ leaves (.axStatusSatClear 0 7 1) (running.setReg (AX_STATUS 0) (setF (setF (setF 0 AX_STATUS_SAT 1) AX_STATUS_SAT_CNT 9) AX_STATUS_NF 1)) (fun t =>
        t.fld (AX_STATUS 0) AX_STATUS_SAT = 0 && t.fld (AX_STATUS 0) AX_STATUS_SAT_CNT = 0 && t.flag (AX_STATUS 0) AX_STATUS_NF) = true := by decide +kernel
theorem wit_descriptor_locked : (region running).axBad 0 (setF (0 : Word) AX_CFG_ANCHOR 5) = none
    ∧ leaves (.axCfgWrite 0 7 (setF (0 : Word) AX_CFG_ANCHOR 5)) (region (part 2 0)) (fun t => t.fld (AX_CFG 0) AX_CFG_ANCHOR = 5
        && t.flag (AX_CFG 0) AX_CFG_VALID) = true
    ∧ (((region running).setFld (AX_CFG 0) AX_CFG_PID 1).raise (PT_CTRL 1) PT_CTRL_SEAL).axSealed (AX_CFG 0) 0 = true := by decide +kernel

/-- R151, R152: no element is non-finite, dead or at its ceiling. -/
theorem wit_order : let e : El := ⟨7, 2⟩
    e.cls axa64 = .exact ∧ (e.update axa64 5 1 false).cls axa64 = .exact ∧ ((⟨0, 0⟩ : El).update axa64 5 1 false).cls axa64 = .exact
    ∧ (((⟨0, 0⟩ : El).update axa64 5 1 false).update axa64 (-9) 1 false).partialNf = false ∧ e.c + 1 + 1 < axa64.cmax := by decide +kernel

/-! ### Line operations -/

/-- R181: ADD of 1 to every 4-byte element. -/
theorem wit_line_op : let a := msg 0 7 0 0x20 0 (0x1 ||| (0x2 <<< 32))
    opens running OP_LINE_OP a 0 = true
    ∧ leaves (.lineOp a) { running with frames := [(buf 0, ⟨0, 0, 0xFFFFFFFF⟩)] } (fun t => (t.frame (buf 0)).data = 0x2 <<< 32
        && t.egress = [running.outRsp 0 20 a RS_COMP 0]) = true := by decide +kernel
/-- R183: a fetch of 5, a swap, and a CAS that meets and one that fails. -/
theorem wit_atomics : let s := { running with frames := [(buf 0, ⟨0, 0, 0x5⟩)] }
    let a := fun pl => msg 0 7 0 0x20 0 pl
    leaves (.fetchOp (a 3)) s (fun t => (t.frame (buf 0)).data = 8 && t.egress.map (fun o => (o.due, o.msg.op, o.msg.pl)) = [(24, DT_ATOM_DATA, 5)]) = true
    ∧ leaves (.swap (a 3)) s (fun t => (t.frame (buf 0)).data = 3) = true
    ∧ leaves (.cas (a (9 ||| (5 <<< 64)))) s (fun t => (t.frame (buf 0)).data = 9 && t.egress.map (fun o => o.msg.ext0) = [1]) = true
    ∧ leaves (.cas (a (9 ||| (6 <<< 64)))) s (fun t => t.frames = s.frames && t.egress.map (fun o => o.msg.ext0) = [0]) = true
    ∧ opens s OP_CAS (a 0) 0 = true ∧ opAllowed 8 2 = true ∧ opAllowed 9 1 = false := by decide +kernel

/-- R190: a LINE_OP on the same line is held while a FETCH_OP is granted. -/
theorem wit_order_decision : let a := reqA 0 1
    let e : HoldEntry := ⟨⟨OP_LINE_OP, { reqA 0 1 with txn := 6, port := 1 }, 0, false, false, 0⟩, 0x21, .fill, 0, 0⟩
    let s := (holds 0 0 5).modBank (firstBank OP_FETCH_OP a) (fun b => { b with holdq := [e] })
    opens s OP_FETCH_OP a 0 = true
    ∧ leaves (.fetchOp a) s (fun t => t.fld (SY_ODC 0) SY_ODC_COUNT = 1 && t.flag SY_ODC_REF SY_ODC_REF_VALID && t.fld SY_ODC_REF SY_ODC_REF_LINE = 0x20) = true := by
  decide +kernel

/-! ### Synchronisation objects -/

/-- An object of PID 0: TYPE, VALUE, GEN, PCOUNT, WAITERS and DRAIN. -/
def obj (ty v gen pc w dr : Nat) : SyObj := setF (setF (setF (setF (setF (setF (0 : SyObj) SO_TYPE ty) SO_VALUE v) SO_GEN gen) SO_PCOUNT pc) SO_WAITERS w) SO_DRAIN dr

/-- Object 0 of the buffer. -/
def withObj (o : SyObj) : Slice := { running with frames := [(buf 0, ⟨0, 0, setObj 0 0 o⟩)] }

/-- A sync request on object 0 of the buffer: WAIT and CMP; ARG, ARG1 and ITYPE. -/
def syA (wait : Bool) (cmp arg arg1 ty : Nat) : Arr :=
  msg 0 7 0 (0x20 + 0x40 * b2n wait + 0x80 * cmp) 0 (BitVec.ofNat 1152 (arg + 2 ^ 32 * arg1 + 2 ^ 48 * ty))

/-- The status answered, if there is one answer, and object 0 after it. -/
def syncs (c : Instr) (s : Slice) (status : Option Nat) (o : SyObj) : Bool :=
  leaves c s (fun t => t.egress.map (fun m => getF m.msg.pl ⟨16, 4⟩) = status.toList && objAt (t.frame (buf 0)).data 0 = o)

/-- R203: OK, OWNER, BUSY, BADARG; R202: UNINIT, TYPE, BADARG; R204. -/
theorem wit_sync_objects : opens running OP_SY_INIT (syA false 0 5 0 1) 0 = true
    ∧ syncs (.syInit (syA false 0 5 0 1)) running (some ST_OK) (setF (obj 1 5 0 0 0 0) SO_LAST 7) = true
    ∧ syncs (.syInit (syA false 0 5 0 1)) (withObj (setF (obj 1 0 0 0 0 0) SO_PID 3)) (some ST_OWNER) (setF (obj 1 0 0 0 0 0) SO_PID 3) = true
    ∧ syncs (.syInit (syA false 0 5 0 1)) (withObj (obj 3 0 0 2 1 0)) (some ST_BUSY) (obj 3 0 0 2 1 0) = true
    ∧ syncs (.syInit (syA false 0 0 0 3)) running (some ST_BADARG) 0 = true
    ∧ syncs (.syArrive (syA false 0 0 0 0)) running (some ST_UNINIT) 0 = true
    ∧ syncs (.syAdd (syA false 0 1 0 0)) (withObj (obj 3 0 0 2 0 0)) (some ST_TYPE) (obj 3 0 0 2 0 0) = true
    ∧ syncs (.syAdd (syA false 0 0 0 0)) (withObj (obj 2 1 0 0 0 0)) (some ST_BADARG) (obj 2 1 0 0 0 0) = true
    ∧ syncs (.syAdd (syA false 0 0xFFFFFFFF 0 0)) (withObj (obj 1 5 0 0 0 0)) (some ST_OK) (setF (obj 1 4 0 0 0 0) SO_LAST 7) = true := by decide +kernel
theorem wit_sync_read : leaves (.syRead (syA false 0 0 0 0)) (withObj (obj 2 9 0 0 0 0)) (fun t => t.egress.map (fun o => (o.msg.op, o.msg.pl)) =
      [(DT_SYNC_OBJ, (obj 2 9 0 0 0 0).setWidth 1152)] && t.frames = (withObj (obj 2 9 0 0 0 0)).frames) = true := by decide +kernel

/-- R206: an acquire that VALUE allows; one that fails, parks, or finds the table full. -/
theorem wit_acquire : syncs (.syAcq (syA true 0 3 0 0)) (withObj (obj 2 3 0 0 0 0)) (some ST_RELEASED) (setF (obj 2 0 0 0 0 0) SO_LAST 7) = true
    ∧ syncs (.syAcq (syA false 0 4 0 0)) (withObj (obj 2 3 0 0 0 0)) (some ST_FAILED) (obj 2 3 0 0 0 0) = true
    ∧ syncs (.syAcq (syA true 0 4 0 0)) (withObj (obj 2 3 0 0 0 0)) none (obj 2 3 0 0 1 0) = true
    ∧ leaves (.syAcq (syA true 0 4 0 0)) (withObj (obj 2 3 0 0 0 0)) (fun t => (t.waiter 0).arg = 4 && (t.waiter 0).src = 7) = true
    ∧ (let s := { withObj (obj 2 3 0 0 0 0) with waiters := (List.range 64).map (fun i => (i, { Waiter.none with obj := 9, arg := 1 })) }
       s.freeWaiter = none ∧ syncs (.syAcq (syA true 0 4 0 0)) s (some ST_WT_FULL) (obj 2 3 0 0 0 0) = true
       ∧ leaves (.syAcq (syA true 0 4 0 0)) s (fun t => t.flag SY_STATUS SY_STATUS_WTFULL && t.fld (SY_PCNT 0) SY_PCNT_WTFULL = 1) = true) := by decide +kernel

/-- R205, R209: waits on a counter, and on a generation that has ended and on the present one. -/
theorem wit_wait : syncs (.syWait (syA true 0 3 0 0)) (withObj (obj 1 3 0 0 0 0)) (some ST_RELEASED) (obj 1 3 0 0 0 0) = true
    ∧ syncs (.syWait (syA false 0 4 0 0)) (withObj (obj 1 3 0 0 0 0)) (some ST_FAILED) (obj 1 3 0 0 0 0) = true
    ∧ syncs (.syWait (syA true 0 4 0 0)) (withObj (obj 1 3 0 0 0 0)) none (obj 1 3 0 0 1 0) = true
    ∧ syncs (.syWait (syA true 0 0 4 0)) (withObj (obj 3 0 5 2 0 0)) (some ST_RELEASED) (obj 3 0 5 2 0 0) = true
    ∧ syncs (.syWait (syA true 0 0 5 0)) (withObj (obj 3 0 5 2 0 0)) none (obj 3 0 5 2 1 0) = true
    ∧ syncs (.syWait (syA true 0 0 4 0)) (withObj (obj 3 0 5 2 0 1)) none (obj 3 0 5 2 1 1) = true := by decide +kernel

/-- R207, R208: misuse; an early arrival; an arrival short of the last, answered or parked; the last. -/
theorem wit_arrive : syncs (.syArrive (syA false 0 0 9 0)) (withObj (obj 3 0 5 2 0 0)) (some ST_MISUSE) (setF (obj 3 0 5 2 0 0) SO_MISUSE 1) = true
    ∧ syncs (.syArrive (syA false 0 0 5 0)) (withObj (obj 3 0 5 2 0 1)) none (setF (obj 3 0 5 2 1 1) SO_EARLY 1) = true
    ∧ syncs (.syArrive (syA false 0 0 5 0)) (withObj (obj 3 0 5 2 0 0)) (some ST_OK) (setF (obj 3 1 5 2 0 0) SO_LAST 7) = true
    ∧ syncs (.syArrive (syA true 0 0 5 0)) (withObj (obj 3 0 5 2 0 0)) none (setF (obj 3 1 5 2 1 0) SO_LAST 7) = true
    ∧ syncs (.syArrive (syA false 0 0 5 0)) (withObj (obj 3 1 5 2 0 0)) (some ST_RELEASED) (setF (obj 3 0 6 2 0 1) SO_LAST 7) = true
    ∧ leaves (.syArrive (syA false 0 0 5 0)) (withObj (obj 3 1 5 2 0 0)) (fun t => (Tbl.at Drain.none t.drains 0).gen = 5) = true := by decide +kernel

/-- A waiter on object 0 of the buffer. -/
def waiting (kind arg : Nat) : Waiter := { Waiter.none with pin := true, kind := kind, arg := arg, src := 9, ord := 1 }

/-- R205, R206: an addition releases a waiter of a counter, and of a semaphore. -/
theorem wit_release_waiter : let s := fun ty k => { withObj (obj ty 1 0 0 1 0) with waiters := [(0, waiting k 3)] }
    (s 1 2).waitersOn true 0 0 = [(0, waiting 2 3)]
    ∧ leaves (.syAdd (syA false 0 2 0 0)) (s 1 2) (fun t => t.releases.map (fun r => (r.due, r.slot, r.msg.dst)) = [(25, 0, 9)]
        && objAt (t.frame (buf 0)).data 0 = setF (obj 1 3 0 0 0 0) SO_LAST 7) = true
    ∧ leaves (.syAdd (syA false 0 2 0 0)) (s 2 0) (fun t => t.releases.map Release.slot = [0] && objAt (t.frame (buf 0)).data 0 = setF (obj 2 0 0 0 0 0) SO_LAST 7) = true := by
  decide +kernel

/-- R212, R208: a release goes to egress; a drain ends, and one with releases left does not. -/
theorem wit_releases : let x : Release := ⟨0, 25, 5, answerTo (reqA 0 0) .dat DT_SYNC_DATA 0 0, 0, none, 0⟩
    leaves .syncReleaseSend { running with releases := [x] } (fun t => t.releases = [] && t.egress.map (fun o => (o.due, o.rel)) = [(25, some (0, none, 0))]) = true
    ∧ leaves .syncReleaseSend running (fun t => t.egress = []) = true := by decide +kernel
theorem wit_drain_end : let s := fun left => { withObj (obj 3 0 6 2 0 1) with drains := [(0, ⟨0, true, 0, 5, 0, left, true, 0⟩)] }
    (s 0).drainWaits 0 = false
    ∧ leaves (.barrierDrainEnd 0) (s 0) (fun t => t.drains = [] && objAt (t.frame (buf 0)).data 0 = obj 3 0 6 2 0 0) = true
    ∧ leaves (.barrierDrainEnd 0) (s 1) (fun t => t.drains = (s 1).drains) = true := by decide +kernel

/-- SY_DBG_ADDR names object 0 of PID 0's buffer. -/
def debug (o : SyObj) : Slice := (withObj o).setReg SY_DBG_ADDR (setF 0 SY_DBG_ADDR_PIN 1)

/-- R216, R217: what the actions leave; NOT_HOME, SEALED, UNINIT. -/
theorem wit_debug : let val := setF (0 : Word) SY_DBG_CMD_VALUE 77
    let res := fun (t : Slice) => t.fld SY_DBG_CMD SY_DBG_CMD_RESULT
    leaves (.dbgRead 7 0) (debug (obj 1 5 0 0 0 0)) (fun t => res t = 0 && t.reg SY_DBG_OBJ0 = 5) = true
    ∧ leaves (.setValue 7 val) (debug (obj 1 5 0 0 0 0)) (fun t => res t = 0 && objAt (t.frame (buf 0)).data 0 = setF (setF (obj 1 77 0 0 0 0) SO_MANUAL 1) SO_LAST 0x7FF) = true
    ∧ leaves (.releaseAll 7 0) { debug (obj 1 5 0 0 1 0) with waiters := [(0, waiting 2 9)] } (fun t => res t = 0 && t.releases.map (fun x => getF x.msg.pl ⟨16, 4⟩) = [ST_FORCED]
        && objAt (t.frame (buf 0)).data 0 = setF (setF (obj 1 5 0 0 0 0) SO_MANUAL 1) SO_LAST 0x7FF) = true
    ∧ leaves (.setValue 7 val) (debug 0) (fun t => res t = 3) = true
    ∧ leaves (.dbgRead 7 0) (running.setReg SY_DBG_ADDR (setF (setF 0 SY_DBG_ADDR_PIN 1) SY_DBG_ADDR_PID 3)) (fun t => res t = 4) = true
    ∧ leaves (.dbgRead 7 0) ((debug 0).raise (PT_CTRL 0) PT_CTRL_SEAL) (fun t => res t = 1 && getF (Tbl.at ⟨0, 0, 0⟩ t.errLog 0).log2 ⟨56, 5⟩ != 0) = true := by decide +kernel

/-- R219: DENIED; an empty save; one entry written; the answer that ends it. -/
theorem wit_save : let s := { running with waiters := [(4, waiting 2 9)] }
    let v := setF (0 : Word) SY_SAVE_CTRL_PID 3
    let res := fun (t : Slice) => t.fld SY_SAVE_CTRL SY_SAVE_CTRL_RESULT
    (running.setReg (RM_HI 0) (setF (setF 0 RM_HI_VALID 1) RM_HI_PID 4)).saveArea 0 0 = false
    ∧ leaves (.sySave 7 0) (running.setReg (RM_HI 0) (setF (setF 0 RM_HI_VALID 1) RM_HI_PID 4)) (fun t => res t = 2 && t.save = none) = true
    ∧ leaves (.syRestore 7 v) (running.setReg (RM_HI 0) (setF (setF 0 RM_HI_VALID 1) RM_HI_PID 4)) (fun t => res t = 2) = true
    ∧ leaves (.sySave 7 0) running (fun t => res t = 0 && t.flag SY_SAVE_CTRL SY_SAVE_CTRL_DONE && t.egress = []) = true
    ∧ leaves (.sySave 7 0) s (fun t => t.waiters = [] && t.egress.map (fun o => (o.msg.op, o.msg.txn)) = [(OP_WR_NC, 0x140)]
        && t.save = some ⟨false, 0, 0, 0, 1, 1, false, 0⟩) = true := by decide +kernel
theorem wit_save_end : let s := fun left => { running with txns := [(0x140, .saveWrite)], save := some ⟨false, 0, 0, 0, 1, left, false, 0⟩ }
    let a := { msg 0 7 0 0 0 0 with txn := 0x140 }
    leaves (.comp a) (s 1) (fun t => t.txns = [] && t.save = none && t.flag SY_SAVE_CTRL SY_SAVE_CTRL_DONE && t.fld SY_SAVE_CTRL SY_SAVE_CTRL_COUNT = 1) = true
    ∧ leaves (.comp a) (s 2) (fun t => t.save = some ⟨false, 0, 0, 0, 1, 1, false, 0⟩) = true
    ∧ leaves (.comp a) { running with txns := [(0x140, .damper)] } (fun t => t.txns = []) = true
    ∧ leaves (.comp a) { running with txns := [(0x140, .router)] } (fun t => t.flag NV_STATUS NV_STATUS_ROUTER_DONE) = true
    ∧ leaves (.comp a) { running with txns := [(0x140, .router), (0x141, .router)] } (fun t => !(t.flag NV_STATUS NV_STATUS_ROUTER_DONE) && t.txns = [(0x141, .router)]) = true := by
  decide +kernel
theorem wit_restore : let v := setF (0 : Word) SY_SAVE_CTRL_COUNT 1
    let s := { running with txns := [(0x140, .restoreRead 0)], save := some ⟨true, 0, 0, 1, 0, 0, false, 0⟩ }
    let a := fun (w : Waiter) => { msg 0 7 0 0 0 ((w.view0.setWidth 1152) ||| (w.view1.setWidth 1152 <<< 64)) with txn := 0x140 }
    leaves (.syRestore 7 0) running (fun t => t.flag SY_SAVE_CTRL SY_SAVE_CTRL_DONE && t.egress = []) = true
    ∧ leaves (.syRestore 7 v) running (fun t => t.egress.map (fun o => (o.msg.op, o.msg.txn)) = [(OP_RD_NC, 0x140)] && t.flag SY_SAVE_CTRL SY_SAVE_CTRL_BUSY) = true
    ∧ leaves (.data (a (waiting 2 9))) s (fun t => (t.waiter 0).arg = 9 && t.save = none && t.fld SY_SAVE_CTRL SY_SAVE_CTRL_COUNT = 1
        && (t.bank (objBank true 0)).conts.map ContEntry.what = [.restored 0]) = true
    ∧ leaves (.data (a { waiting 2 9 with pid := 3 })) s (fun t => t.waiters = [] && t.fld SY_SAVE_CTRL SY_SAVE_CTRL_RESULT = 2) = true := by decide +kernel

/-! ### Determinism and digests -/

/-- R234: ARM with a tick ahead, and one past; an ARM of an armed slot; CANCEL. -/
theorem wit_launch_arm : leaves (.dgLaunchArm 7 (setF (0 : Word) DG_LAUNCH_CAPTURE 1)) (running.setReg DG_LAUNCH_TICK 100) (fun t => t.flag DG_LAUNCH DG_LAUNCH_ARMED
      && t.flag DG_LAUNCH DG_LAUNCH_CAPTURE && !(t.flag DG_DET_STATUS DG_DET_STATUS_LAUNCH_LATE)) = true
    ∧ leaves (.dgLaunchArm 7 0) running (fun t => t.flag DG_LAUNCH DG_LAUNCH_ARMED && t.flag DG_DET_STATUS DG_DET_STATUS_LAUNCH_LATE) = true
    ∧ leaves (.dgLaunchArm 7 (setF (0 : Word) DG_LAUNCH_CAPTURE 1)) (running.raise DG_LAUNCH DG_LAUNCH_ARMED) (fun t => !(t.flag DG_LAUNCH DG_LAUNCH_CAPTURE)) = true
    ∧ leaves (.dgLaunchCancel 7 0) ((running.raise DG_LAUNCH DG_LAUNCH_ARMED).setReg DG_LAUNCH_TICK 100) (fun t => !(t.flag DG_LAUNCH DG_LAUNCH_ARMED)) = true := by decide +kernel

/-- R235, R228, R245: the count has come, with each field set; with a capture under way; the ends of the two walks. -/
theorem wit_launch : let s := fun f => (running.setReg DG_LAUNCH (setF (setF (0 : Word) DG_LAUNCH_ARMED 1) f 1)).setReg DG_TEVT 3
    leaves .launch (s DG_LAUNCH_TEVT_CLEAR) (fun t => t.reg DG_TEVT = 0 && !(t.flag DG_LAUNCH DG_LAUNCH_ARMED)) = true
    ∧ leaves .launch { s DG_LAUNCH_TIME_BASE with winFc := 9 } (fun t => t.walks.map Walk.kind = [.timeBase] && t.timeBase = some 0 && t.winFc = 0 && t.reg DG_TEVT = 3) = true
    ∧ leaves .launch (s DG_LAUNCH_CAPTURE) (fun t => t.capture = some ⟨0, 0, 0, none⟩ && t.flag DG_CAP_STATUS DG_CAP_STATUS_BUSY) = true
    ∧ leaves .launch { (s DG_LAUNCH_CAPTURE).raise DG_CAP_STATUS DG_CAP_STATUS_BUSY with capture := some ⟨0, 3, 1, none⟩ } (fun t => t.capture = some ⟨0, 3, 1, none⟩
        && t.flag DG_CAP_STATUS DG_CAP_STATUS_MISSED) = true
    ∧ leaves .launch ((s DG_LAUNCH_CAPTURE).setReg DG_LAUNCH_TICK 5) (fun t => t.flag DG_LAUNCH DG_LAUNCH_ARMED) = true
    ∧ leaves .timeBaseWalkEnd { running with timeBase := some 0, regPtr := 3, fc := 256 } (fun t => t.timeBase = none && t.regPtr = 0) = true
    ∧ leaves .timeBaseWalkEnd { running with regPtr := 3 } (fun t => t.regPtr = 3) = true
    ∧ leaves .captureWalkDone { running with capture := some ⟨0, 16, 0, none⟩ } (fun t => t.capture = none && t.flag DG_CAP_STATUS DG_CAP_STATUS_DONE) = true
    ∧ leaves .captureWalkDone { running with capture := some ⟨0, 15, 9, none⟩ } (fun t => t.capture = some ⟨0, 15, 9, none⟩) = true
    ∧ leaves (.dgLaneWrite 1 2 7 0x1FFFFFFFFFFFFFFF) running (fun t => t.fld (DG_LANE 1 2) DG_LANE_VALUE = 0) = true := by decide +kernel

/-! ### Epochs -/

/-- PID 1 ACTIVE with epochs: PIN way 8, its drain area the granule of region-map entry 0. -/
def epoch : Slice :=
  ((((part 2 0).setReg (PT_WAYS 1) 0x01000F00).setReg (EP_PCTRL 1) (setF 0 EP_PCTRL_EN 1)).setReg (EP_PDRAIN 1) (setF (setF 0 EP_PDRAIN_SIZE 1) EP_PDRAIN_BASE 4)).setReg
    (RM_LO 0) (setF 0 RM_LO_BASE 4) |>.setReg (RM_HI 0) (setF (setF (setF 0 RM_HI_VALID 1) RM_HI_PID 1) RM_HI_LIMIT 5) |>.setFld ID_SLICE ID_SLICE_GROUP_SIZE 1

/-- EP_PSTATUS of PID 1 with bits set and a PHASE. -/
def stat (s : Slice) (l : List Fld) (ph : Nat) : Slice := (l.foldl (fun s f => s.setFld (EP_PSTATUS 1) f 1) s).setFld (EP_PSTATUS 1) EP_PSTATUS_PHASE ph

/-- R253, R265, R266: ARM, CANCEL, RELEASE, ABORT of PID 1; an ARM while armed; PID 0. -/
theorem wit_epoch_control : let st := EP_PSTATUS 1
    let en := setF (0 : Word) EP_PCTRL_EN 1
    leaves (.epArm 1 7 en) (epoch.setReg (EP_PCLOSE 1) 9) (fun t => t.flag st EP_PSTATUS_ARMED && !(t.flag st EP_PSTATUS_LATE)) = true
    ∧ leaves (.epArm 1 7 en) epoch (fun t => t.flag st EP_PSTATUS_LATE && t.errLog = []) = true
    ∧ leaves (.epArm 1 7 0) epoch (fun t => t.flag (EP_PCTRL 1) EP_PCTRL_EN && t.errLog != []) = true
    ∧ leaves (.epArm 1 7 (setF en EP_PCTRL_DONE_IRQ_EN 1)) (stat epoch [EP_PSTATUS_ARMED] 0) (fun t => t.reg (EP_PCTRL 1) = en) = true
    ∧ leaves (.epCancel 1 7 en) ((stat epoch [EP_PSTATUS_ARMED] 0).setReg (EP_PCLOSE 1) 9) (fun t => !(t.flag st EP_PSTATUS_ARMED)) = true
    ∧ leaves (.epHarvestRelease 1 7 en) (stat epoch [EP_PSTATUS_HARVEST, EP_PSTATUS_LEDGER_DONE] 2) (fun t => t.fld st EP_PSTATUS_PHASE = 3 && (t.harvest 1).final) = true
    ∧ leaves (.epHarvestRelease 1 7 en) (stat epoch [EP_PSTATUS_HARVEST] 2) (fun t => t.fld st EP_PSTATUS_PHASE = 2) = true
    ∧ leaves (.epHarvestAbort 1 7 en) (stat epoch [EP_PSTATUS_HARVEST] 2) (fun t => t.fld st EP_PSTATUS_PHASE = 4 && (t.harvest 1).aborted) = true
    ∧ leaves (.epArm 0 7 0) running (fun t => t.regs = running.settle.regs) = true := by decide +kernel

/-- R254, R255: skipped for each cause; a close; one whose count is ahead. -/
theorem wit_close : let st := EP_PSTATUS 1
    let s := stat epoch [EP_PSTATUS_ARMED] 0
    leaves (.epochClose 1) (stat epoch [EP_PSTATUS_ARMED, EP_PSTATUS_HARVEST] 0) (fun t => t.flag st EP_PSTATUS_SKIP && t.fld st EP_PSTATUS_SKIP_CAUSE = 0) = true
    ∧ leaves (.epochClose 1) (s.setReg (EP_PDRAIN 1) 0) (fun t => t.flag st EP_PSTATUS_SKIP && t.fld st EP_PSTATUS_SKIP_CAUSE = 1) = true
    ∧ leaves (.epochClose 1) (s.setReg (RM_HI 0) 0) (fun t => t.flag st EP_PSTATUS_SKIP && t.fld st EP_PSTATUS_SKIP_CAUSE = 1) = true
    ∧ leaves (.epochClose 1) (s.setFld (PT_STATUS 1) PT_STATUS_STATE 3) (fun t => t.flag st EP_PSTATUS_SKIP && t.fld st EP_PSTATUS_SKIP_CAUSE = 2) = true
    ∧ leaves (.epochClose 1) { s with frames := [(key1, ⟨rawW0 1 0x20 15 15 false, setOwner 0 7, 1⟩)] } (fun t => t.flag st EP_PSTATUS_HARVEST
        && t.fld st EP_PSTATUS_PAR = 1 && t.fld st EP_PSTATUS_OPEN_BANK = 1 && t.fld st EP_PSTATUS_PHASE = 1 && t.fld (EP_PREC1 1) EP_PREC1_EPOCH = 1
        && t.walks = [⟨0, .close 1, [], 0⟩]) = true
    ∧ leaves (.epochClose 1) (s.setReg (EP_PCLOSE 1) 9) (fun t => t.flag st EP_PSTATUS_ARMED) = true := by decide +kernel

/-- R256, R265, R250: the recall is over, and is not; a harvest ends. -/
theorem wit_harvest_end : let st := EP_PSTATUS 1
    let s := stat epoch [EP_PSTATUS_HARVEST] 1
    leaves (.closeRecallDone 1) { s with walks := [ended (.close 1)] } (fun t => t.fld st EP_PSTATUS_PHASE = 2 && t.walks = []) = true
    ∧ leaves (.closeRecallDone 1) { s with walks := [⟨0, .close 1, [], 0⟩] } (fun t => t.fld st EP_PSTATUS_PHASE = 1) = true
    ∧ leaves (.harvestDone 1) (stat epoch [EP_PSTATUS_HARVEST] 2) (fun t => t.flag st EP_PSTATUS_HARVEST) = true := by decide +kernel
theorem wit_harvest_done : let st := EP_PSTATUS 1
    let s := { (stat (epoch.setReg (PT_WAYS 1) 0x00000F00) [EP_PSTATUS_HARVEST] 4) with
      harvests := [(1, { Harvest.idle with valid := true, summary := true })], frames := [(key1, ⟨rawW0 1 0x20 15 15 false, setF (0 : Word) T1_EPST 0, 1⟩)],
      ledger := [(4096, 0x30)] }
    (stat epoch [] 4).epochs 1 = true ∧ s.maskBit 1 4 = true
    ∧ leaves (.harvestDone 1) s (fun t => !(t.flag st EP_PSTATUS_HARVEST) && t.flag st EP_PSTATUS_DONE && t.fld st EP_PSTATUS_PHASE = 0
        && getF (t.frame key1).w1 T1_EPST = 1 && t.ledger = []) = true := by decide +kernel

/-- A harvest of PID 1 in phase DRAIN with the drain engine at a point. -/
def draining (h : Harvest) (ph : Nat) : Slice := { stat epoch [EP_PSTATUS_HARVEST] ph with harvests := [(1, { h with valid := true })] }

/-- R261 to R264: a full block, a ledger line, the last one, the summary of an abort; nothing while 16 lines are owed. -/
theorem wit_drain_write : let op := fun (t : Slice) => t.egress.map (fun o => (o.msg.op, o.msg.addr))
    leaves .drainWrite (draining { Harvest.idle with index := List.replicate 15 1 } 2) (fun t => op t = [(OP_MEM_WR, 0x808800)] && (t.harvest 1).block = 1
        && (t.harvest 1).index = []) = true
    ∧ leaves .drainWrite { draining Harvest.idle 2 with ledger := [(4096, 0xF0)] } (fun t => op t = [(OP_MEM_WR, 0x800000)] && (t.harvest 1).ledger = 1
        && t.egress.map (fun o => o.msg.pl) = [0x30]) = true
    ∧ leaves .drainWrite (draining { Harvest.idle with ledger := 255 } 2) (fun t => t.flag (EP_PSTATUS 1) EP_PSTATUS_LEDGER_DONE) = true
    ∧ leaves .drainWrite (draining { Harvest.idle with aborted := true } 4) (fun t => op t = [(OP_MEM_WR, 0x808000)] && (t.harvest 1).summary) = true
    ∧ leaves .drainWrite (draining { Harvest.idle with ledger := 256, final := true } 3) (fun t => (t.harvest 1).summary && t.fld (EP_PSTATUS 1) EP_PSTATUS_PHASE = 4) = true
    ∧ leaves .drainWrite { draining Harvest.idle 2 with txns := (List.range 16).map (fun i => (0x140 + i, .drain 1 0)) } (fun t => t.egress = []) = true
    ∧ leaves .drainWrite running (fun t => t.egress = []) = true := by decide +kernel
/-- R257, R263: a shelf frame becomes a record and is freed; a FROZEN line becomes CAPTURED; an area too small stops the engine. -/
theorem wit_drain_record : let s := (draining Harvest.idle 2).setReg EP_CTRL (setF 0 EP_CTRL_SHELF_WAYS 1)
    let way := ((List.range 16).find? (fun w => s.shelfWays.getLsbD w)).getD 0
    let key := s.fkey (lineSet 0x20) way
    let sh : Tbl Frame := [(key, ⟨shelfW0 1 false false 0x20 0 0, 0, 0x77⟩)]
    s.awake (keyHalf key) = true ∧ s.oldestShelf 1 = none ∧ s.blockFits 1 0 = true
    ∧ leaves .drainWrite { s with frames := sh } (fun t => t.frames = [] && t.fld (EP_PREC1 1) EP_PREC1_RECORDS = 1 && t.egress.map (fun o => o.msg.pl) = [0x77]) = true
    ∧ leaves .drainWrite ({ s with frames := sh }.setFld (EP_PDRAIN 1) EP_PDRAIN_SIZE 0) (fun t => t.flag (EP_PSTATUS 1) EP_PSTATUS_AREA_FULL && t.egress = []) = true
    ∧ leaves .drainWrite { draining { Harvest.idle with ledger := 256 } 2 with frames := [(key1, ⟨rawW0 1 0x20 15 15 false, setF 0 T1_EPST (running.epstFrozen 1), 0x77⟩)] }
        (fun t => t.egress.map (fun o => o.msg.pl) = [0x77] && getF (t.frame key1).w1 T1_EPST = running.epstCaptured 1
          && t.flag (EP_PSTATUS 1) EP_PSTATUS_FROZEN_DONE) = true := by decide +kernel

/-- R258, R260: refused; two ways taken; the pass ends; locked. -/
theorem wit_shelf_ways : let w := fun n => setF (0 : Word) EP_CTRL_SHELF_WAYS n
    let s := running.setFld (PT_STATUS 1) PT_STATUS_STATE 0
    leaves (.shelfWaysWrite 7 (w 3)) s (fun t => t.flag EP_SHELF EP_SHELF_REFUSED && t.fld EP_CTRL EP_CTRL_SHELF_WAYS = 0) = true
    ∧ leaves (.shelfWaysWrite 7 (w 1)) (s.setReg (PT_WAYS 0) 0x00000FFF) (fun t => t.fld EP_CTRL EP_CTRL_SHELF_WAYS = 1 && t.flag EP_SHELF EP_SHELF_BUSY
        && t.walks.map Walk.kind = [.shelf 0x8000]) = true
    ∧ leaves (.shelfWaysWrite 7 0) ((s.setReg (PT_WAYS 0) 0x00000FFF).setReg EP_CTRL (w 1)) (fun t => t.fld EP_CTRL EP_CTRL_SHELF_WAYS = 0 && t.walks = []) = true
    ∧ leaves (.shelfWaysWrite 7 (w 1)) (part 2 0) (fun t => t.fld EP_CTRL EP_CTRL_SHELF_WAYS = 0 && t.errLog != []) = true
    ∧ leaves .shelfPassDone { s.raise EP_SHELF EP_SHELF_BUSY with walks := [ended (.shelf 0x8000)] } (fun t => !(t.flag EP_SHELF EP_SHELF_BUSY) && t.walks = []) = true
    ∧ leaves .shelfPassDone { s.raise EP_SHELF EP_SHELF_BUSY with walks := [⟨0, .shelf 0x8000, [], 0⟩] } (fun t => t.flag EP_SHELF EP_SHELF_BUSY) = true := by decide +kernel

/-- R257, R95: a write over a FROZEN pinned frame of PID 1 copies it to the shelf first. -/
theorem wit_pin_capture : let s0 := (stat epoch [EP_PSTATUS_HARVEST] 1).setReg EP_CTRL (setF 0 EP_CTRL_SHELF_WAYS 1)
    let key := s0.bufKey 1 0
    let s := { s0 with frames := [(key, ⟨0, setF 0 T1_EPST (s0.epstFrozen 1), 0x77⟩)] }
    let a := { msg 0 7 0 1 0 0x55 with pid := 1 }
    opens s OP_PIN_WR a 1 = true ∧ s.capturing 1 = true ∧ (s.freeShelf 0).isSome = true
    ∧ leaves (.pinWr a) s (fun t => (t.frame key).data = 0x55 && (t.frame (s.fkey 0 ((s.freeShelf 0).getD 0))).data = 0x77
        && getF (t.frame key).w1 T1_EPST = s.epstWritten 1 && t.egress.map (fun o => o.due) = [18] && t.shelfSeq = 1) = true := by decide +kernel

/-! ### Bandwidth -/

/-- R278: taken; beyond 224; locked. -/
theorem wit_bw_min : let s := running.setFld (PT_STATUS 1) PT_STATUS_STATE 0
    leaves (.bwMinWrite 1 7 0xE0) s (fun t => t.reg (BW_MIN 1) = 0xE0) = true
    ∧ s.minSumWith 1 0xE1 = 225 ∧ s.anyActive = false
    ∧ leaves (.bwMinWrite 1 7 0xE0) (part 2 0) (fun t => t.reg (BW_MIN 1) = 0 && t.errLog != [] && !(t.flag BW_STATUS BW_STATUS_REFUSED)) = true := by decide +kernel

/-- R275, R279, R280: no limit; full allowances; a short window of half 0. -/
theorem wit_window_start : let s := (running.setFld BW_CTRL BW_CTRL_REG_EN 1).setReg (BW_MIN 0) 0x40
    leaves .regWindowStart { running with winFc := 256 } (fun t => t.fillReg 0 = ⟨List.replicate 32 0, 0, 0, false⟩ && (Tbl.at Egress.init t.eports 3).g = List.replicate 32 0) = true
    ∧ leaves .regWindowStart { s with winFc := 256 } (fun t => t.winFc = 0 && (Tbl.at Egress.init t.eports 0).g = 0x40 :: List.replicate 31 0) = true
    ∧ (let u := s.setFld BW_MEM BW_MEM_LINES 64
       u.fillLimited = true ∧ u.fillSum = 16
       ∧ leaves .regWindowStart { u with winFc := 256 } (fun t => t.fillReg 0 = ⟨16 :: List.replicate 31 0, 48, 0, false⟩) = true
       ∧ leaves .regWindowStart { u with winFc := 256, fillRegs := [(0, ⟨List.replicate 32 0, 0, 8, true⟩)] } (fun t => t.fillReg 0 = ⟨8 :: List.replicate 31 0, 0, 0, false⟩
           && t.fld BW_SHORT BW_SHORT_SHORTFALL = 8 && t.fld BW_SHORT BW_SHORT_WINDOWS = 1) = true) := by decide +kernel

/-- R294, R403, R400. -/
theorem wit_period : leaves .damperPeriodStart ({ running with damperDue := true }.modBank 3 (fun b => { b with grants := [(1, 5)], grantsAll := 5 })) (fun t => (t.bank 3).grants = [] && (t.bank 3).grantsAll = 0) = true
    ∧ leaves (.meshEgressCredit 2 .rsp) running (fun t => t.txHeld 2 .rsp = 9 && t.txHeld 2 .dat = 8) = true
    ∧ leaves (.meshEgressCredit 2 .rsp) { running with start := { running.start with rails := false } } (fun t => t.txHeld 2 .rsp = 8) = true := by decide +kernel

/-! ### Rail governor -/

/-- The lead slice with the governor on, ring credits, and rail 0: idle 100, limit 1,000. -/
def governed : Slice :=
  { ((((running.setFld ID_SLICE ID_SLICE_LEAD 1).setReg PG_CTRL (setF (setF 0 PG_CTRL_GOV_EN 1) PG_CTRL_REL_PCT 255)).setReg (PG_RAIL_CFG 0)
      (setF (setF (setF 0 PG_RAIL_CFG_VALID 1) PG_RAIL_CFG_I_IDLE 100) PG_RAIL_CFG_I_LIMIT 1000)).setFld RG_STATUS RG_STATUS_MODE 1) with ring := { Ring.init with credits := 8 } }

/-- A frame of one record of rail 0 (R286). -/
def telFrame (temp current : Nat) : List Byte :=
  let b := leBytes 8 (0xA5 + temp * 2 ^ 8 + 1 * 2 ^ 16) ++ leBytes 8 (current * 2 ^ 8 + 900 * 2 ^ 24)
  b ++ leBytes 4 (crc32 b).toNat

/-- R287 to R291: 1,900 over a limit of 1,000 from level 0 (16 − ⌊16·900/1800⌋ = 8); a release; a bad frame; a missed window. -/
theorem wit_telemetry : governed.frameGood (telFrame 40 1900) = true ∧ governed.govRuns = true
    ∧ leaves (.telemetryFrame (telFrame 40 1900)) governed (fun t => t.lFb = 8 && t.railCurrent 0 = 1900 && t.fld PG_STATUS PG_STATUS_TEMP = 40
        && t.planAt 250 = 8 && t.ring.out.map RingPkt.typ = [RG_LEVELS]) = true
    ∧ leaves (.telemetryFrame (telFrame 40 500)) (governed.setFld PG_STATUS PG_STATUS_L_FB 3) (fun t => t.lFb = 2) = true
    ∧ leaves (.telemetryFrame (telFrame 90 500)) (governed.setFld PG_CTRL PG_CTRL_T_LIMIT 90) (fun t => t.lTh = 1) = true
    ∧ leaves (.telemetryFrame ((telFrame 40 1900).drop 1)) governed (fun t => t.regs = governed.settle.regs) = true := by decide +kernel
theorem wit_missed : leaves .missedWindow governed (fun t => t.gov.missRun = 1 && t.flag PG_STATUS PG_STATUS_TEL_FAIL) = true
    ∧ leaves .missedWindow ((governed.setFld PG_CTRL PG_CTRL_TEL_MISS_MAX 2).setFld PG_CTRL PG_CTRL_FAILSAFE_LEVEL 9) (fun t => t.gov.missRun = 1
        && !(t.flag PG_STATUS PG_STATUS_TEL_FAIL) && t.lFb = 0 && t.fld PG_TEL_CNT PG_TEL_CNT_BAD = 1) = true
    ∧ leaves .missedWindow { governed.setFld PG_CTRL PG_CTRL_FAILSAFE_LEVEL 9 with gov := { Gov.init with missRun := 1 } } (fun t => t.lFb = 9 && t.planAt 250 = 9) = true
    ∧ leaves .missedWindow running (fun t => t.gov = running.gov) = true := by decide +kernel

/-- R291, R292: LEVELS at an OPEN position; a write to core 1; to no core. -/
theorem wit_levels : let s := running.setReg PG_CORES (setF (setF 0 PG_CORES_CORE_LO 1) PG_CORES_CORE_HI 1)
    s.isOpen = true ∧ s.ringUp = true ∧ s.dampCores = [1]
    ∧ leaves (.levels 0x30 100) s (fun t => t.gov.damperQ = [(1, damperWord 3 1 false 100)] && t.ring.timed = [.levels 0x30 100] && t.gov.heard = 0x30
        && t.ring.out.map RingPkt.typ = [RG_LEVELS]) = true
    ∧ leaves (.levels 0x30 0) s (fun t => t.flag RG_STATUS RG_STATUS_LATE) = true
    ∧ leaves .damperWriteSend { s with gov := { s.gov with damperQ := [(1, 5)] } } (fun t => t.gov.damperQ = [] && t.egress.map (fun o => (o.msg.op, o.msg.dst)) = [(OP_CFG_WR, 1)]
        && t.txns = [(0x140, .damper)]) = true
    ∧ leaves .damperWriteSend { s with gov := { s.gov with damperQ := [(300, 5)] } } (fun t => t.gov.damperQ = [] && t.egress = []) = true := by decide +kernel

/-- R295, R296, R304, R300, R285. -/
theorem wit_droop : let s := running.setReg PG_DROOP (setF (setF 0 PG_DROOP_THRESH 1) PG_DROOP_LEVEL 4)
    leaves .droopTrip s (fun t => t.gov.clamp && t.gov.droopLevel = 4 && t.fld PG_DROOP PG_DROOP_COUNT = 1 && t.gov.damperQ.map Prod.snd = [damperWord 4 0 true 0]) = true
    ∧ leaves .droopTrip running (fun t => !(t.gov.clamp)) = true
    ∧ leaves .droopClampEnd { s with gov := { s.gov with clamp := true } } (fun t => !(t.gov.clamp)) = true
    ∧ leaves .droopClampEnd s (fun t => t.gov = s.gov) = true
    ∧ leaves (.pgPhaseHintWrite 7 (setF (setF 0 PG_PHASE_HINT_PID 2) PG_PHASE_HINT_PHASE 77)) governed (fun t => t.gov.hints = [(2, 77)]) = true
    ∧ leaves (.pgActReportWrite 7 (setF (setF 0 PG_ACT_REPORT_PID 2) PG_ACT_REPORT_MACT 5)) (running.setFld PG_ACT_WT PG_ACT_WT_W_MACT 3) (fun t =>
        Tbl.at 0 t.gov.activity (16 * K_LOGIC + 2) = 15) = true
    ∧ leaves (.freqChange true) running (fun t => t.freqHi && t.flag PG_STATUS PG_STATUS_BOOST) = true
    ∧ leaves (.freqChange false) running (fun t => t = running.settle) = true
    ∧ leaves .telSync governed (fun t => t.pins.telSync = 1) = true ∧ leaves .telSync { governed with count := 7 } (fun t => t.pins.telSync = 0) = true := by decide +kernel

/-- The lead with rope group 0 of PID 1: hosts 0 and 3, a period of 100 ticks, GLEAD 20. -/
def grouped : Slice :=
  { governed.setReg (PG_GROUP 0) (setF (setF (setF (setF (setF 0 PG_GROUP_VALID 1) PG_GROUP_PID 1) PG_GROUP_HOSTS 9) PG_GROUP_GPERIOD 100) PG_GROUP_GLEAD 20) with count := 200 }

/-- R301: a boundary with host 3's proposal missing, and in; R303: the deadline; R301: the level applies. -/
theorem wit_group : grouped.groupOf 1 = some 0 ∧ grouped.members 0 = [0, 3]
    ∧ leaves (.groupBoundary 0) (grouped.setFld PG_STATUS PG_STATUS_L_FB 5) (fun t => (t.group 0).boundary = 200 && (t.group 0).waiting && Tbl.at (0, 0) (t.group 0).props 0 = (6, 200)) = true
    ∧ leaves (.groupBoundary 0) { grouped with gov := { grouped.gov with groups := [(0, { Group.idle with props := [(3, (9, 200))] })] } } (fun t =>
        !((t.group 0).waiting) && (t.group 0).next = 9) = true
    ∧ leaves (.groupBoundary 0) { grouped with count := 201 } (fun t => t.gov = grouped.gov) = true
    ∧ (let w := fun n => { grouped with count := 218, gov := { grouped.gov with groups := [(0, { Group.idle with boundary := n, waiting := true, missed := [3], props := [(0, (6, n))] })] } }
       (w 200).missing 0 = [3]
       ∧ leaves (.proposalDeadline 0) (w 200) (fun t => t.fld (PG_GSTAT 0) PG_GSTAT_MISS = 1 && t.flag (PG_GSTAT 0) PG_GSTAT_LOST && (t.group 0).next = 6) = true
       ∧ leaves (.proposalDeadline 0) (w 201) (fun t => (t.group 0).waiting) = true)
    ∧ (let w := fun n => { grouped with count := 220, gov := { grouped.gov with groups := [(0, { Group.idle with boundary := n, next := 6 })] } }
       leaves (.groupApply 0) (w 200) (fun t => t.fld (PG_GSTAT 0) PG_GSTAT_L_GRP = 5 && (t.group 0).next = 0) = true
       ∧ leaves (.groupApply 0) (w 201) (fun t => (t.group 0).next = 6) = true) := by decide +kernel

/-- R305: tokens at a position that is not the lead, and back at the lead. -/
theorem wit_tokens : let act := { Gov.init with windowActivity := [(2, 7)], window := 4 }
    let here := { running with gov := act }
    let lead := { governed with gov := { act with energy := [(0, 1100, 900)], energyWin := 4 }, ring := { Ring.init with credits := 64 } }
    leaves (.actSum ⟨4, false⟩ 1 2 3) here (fun t => t.ring.out = [⟨RG_ACT_SUM, RG_ALL, 4, flits2 8 ++ flits2 2 ++ flits2 3⟩]) = true
    ∧ leaves (.actSum ⟨5, false⟩ 1 2 3) here (fun t => t.ring.out = [⟨RG_ACT_SUM, RG_ALL, 5, flits2 1 ++ flits2 2 ++ flits2 3⟩]) = true
    ∧ leaves (.actSum ⟨4, false⟩ 3 0 0) lead (fun t => t.ring.out.map (fun p => (p.typ, p.arg)) = [(RG_KAPPA, 4)]) = true
    ∧ leaves (.actSum ⟨5, false⟩ 3 0 0) lead (fun t => t.ring.out = []) = true
    ∧ leaves (.kappa 4 0x10000) lead (fun t => Tbl.at 0 t.gov.residue 2 = 7 && t.gov.attributed = 7 && t.ring.out.map RingPkt.typ = [RG_ATTR_SUM]) = true
    ∧ leaves (.kappa 4 0x10000) here (fun t => t.ring.out.map RingPkt.typ = [RG_KAPPA] && t.gov.residue = []) = true
    ∧ leaves (.attrSum 4 100) lead (fun t => t.fld PG_ENERGY_UNATTR PG_ENERGY_UJ = (1100 * 900 - 100) / 10000 && t.gov.energy = []) = true
    ∧ leaves (.attrSum 4 100) { here with gov := { act with attributed := 5 } } (fun t => t.ring.out = [⟨RG_ATTR_SUM, RG_ALL, 4, flits2 105⟩]) = true := by decide +kernel

/-! ### Sleep states -/

/-- Half 0 in a power state with a goal. -/
def slept (p : Power) (g : Option Power) (w : Bool) : Slice := { running with half0 := ⟨p, g, w, false⟩ }

/-- R312 to R314. -/
theorem wit_sleep : let s := running.setFld AG_CTRL AG_CTRL_GATE_EN 1
    leaves (.halfRetentionCommit false) s (fun t => t.half0.goal = some .retention) = true
    ∧ leaves (.halfRetentionCommit false) running (fun t => t.half0.goal = none) = true
    ∧ leaves (.halfStateReached false) (slept .awake (some .retention) false) (fun t => t.half0 = ⟨.retention, none, false, false⟩) = true
    ∧ leaves (.halfStateReached false) { slept .awake (some .off) true with frames := [(0, frame1), (40000, frame1)], repl := [(0, 1), (2304, 1)] } (fun t =>
        t.half0 = ⟨.waking, none, false, true⟩ && t.frames.map Prod.fst = [40000] && t.repl.map Prod.fst = [2304]) = true
    ∧ leaves (.halfStateReached false) running (fun t => t.half0 = running.half0) = true
    ∧ leaves (.halfWake false) (slept .retention none false) (fun t => t.half0.power = .waking) = true
    ∧ leaves (.halfWake false) (slept .off none false) (fun t => t.half0 = ⟨.waking, none, false, true⟩) = true
    ∧ leaves (.halfWake false) (slept .awake (some .off) false) (fun t => t.half0.wakePending) = true
    ∧ leaves (.halfWakeDone false) { slept .waking none false with half0 := ⟨.waking, none, false, true⟩ } (fun t => t.half0.power = .awake
        && t.fld AG_WAKE_CNT (wakeField 0) = 1) = true
    ∧ leaves (.halfWakeDone false) running (fun t => t.fld AG_WAKE_CNT (wakeField 0) = 0) = true := by decide +kernel
theorem wit_off : let s := ((slept .retention none false).setFld AG_CTRL AG_CTRL_OFF_EN 1).setReg (PT_WAYS 0) 0x00000FFF
    let w := ({ running.raise AG_PSTATE (flushField 0) with walks := [{ ended (.flush false) with id := 5 }] })
    s.anyActive = false ∧ leaves (.halfOffStart false) s (fun t => t.half0.power = .waking && t.flag AG_PSTATE (flushField 0)) = true
    ∧ leaves (.halfOffStart false) (slept .retention none false) (fun t => t.half0.power = .retention) = true
    ∧ leaves (.halfFlushDone false) w (fun t => t.half0.goal = some .off && !(t.flag AG_PSTATE (flushField 0)) && t.walks = []) = true
    ∧ leaves (.halfFlushDone false) (w.setFld (EC_RT 0) EC_RT_LOST 1) (fun t => t.half0.goal = none && t.flag AG_PSTATE (heldField 0)) = true
    ∧ leaves (.halfFlushDone false) { w with walks := [⟨5, .flush false, [], 0⟩] } (fun t => t.flag AG_PSTATE (flushField 0)) = true
    ∧ leaves (.halfFlushDone false) running (fun t => t.half0 = running.half0) = true := by decide +kernel

/-! ### Ageing -/

/-- Eight monitor counts: seven of a, the reference b. -/
def eight (a b : Nat) : BitVec 192 := BitVec.ofNat 192 ((List.range 7).foldl (fun x i => x + a * 2 ^ (24 * i)) (b * 2 ^ 168))

/-- A slice with the monitors on, in a set that started at fc 0. -/
def measuring : Slice := { running.setFld AG_CTRL AG_CTRL_MEAS_EN 1 with fc := 320, age := { running.age with measuring := true } }

/-- R317: the start; a sleeping half; the end of a set of 900 over 1,000 (⌊900 · 32768 / 1000⌋ = 29,491) with no baseline, and with one (R318, R319). -/
theorem wit_measure : let m := running.setFld AG_CTRL AG_CTRL_MEAS_EN 1
    leaves .measSetStart m (fun t => t.age.measuring) = true ∧ leaves .measSetStart running (fun t => !t.age.measuring) = true
    ∧ leaves .measSetStart { m with half1 := { m.half1 with power := .retention } } (fun t => !t.age.measuring && t.fld AG_MEAS_STATUS AG_MEAS_STATUS_SKIPPED = 1) = true
    ∧ leaves (.measSetEnd (eight 900 1000)) running (fun t => t.age = running.age) = true
    ∧ leaves (.measSetEnd (eight 900 1000)) { measuring with age := { measuring.age with broken := true } } (fun t => !t.age.measuring
        && t.fld AG_MEAS_STATUS AG_MEAS_STATUS_SKIPPED = 1) = true
    ∧ leaves (.measSetEnd (eight 900 1000)) { measuring with grantsTotal := 2560 } (fun t => Tbl.at 0 t.age.ratios 2 = 29491 && t.age.base = []
        && t.flag AG_MEAS_STATUS AG_MEAS_STATUS_PROV && t.fld AG_MEAS_STATUS AG_MEAS_STATUS_ACT = 128 && t.flag AG_PLAN AG_PLAN_GUARD) = true
    ∧ leaves (.measSetEnd (eight 900 1000)) { measuring with grantsTotal := 3072 } (fun t => Tbl.at 0 t.age.base 6 = 29491 && t.age.present && t.age.fullExists
        && !(t.flag AG_PLAN AG_PLAN_GUARD)) = true
    ∧ leaves (.measSetEnd (eight 900 1000)) { measuring with age := { measuring.age with present := true, base := [(0, 29499), (1, 29491), (2, 40000)] } }
        (fun t => Tbl.at 0 t.age.slows 0 = 1 && Tbl.at 0 t.age.slows 1 = 0 && Tbl.at 0 t.age.slows 2 = 255) = true := by decide +kernel

/-- R319, R321. -/
theorem wit_plan : let s := running.setFld AG_PLAN AG_PLAN_ASSIST 3
    leaves (.assistPause false) s (fun t => t.fld AG_PLAN (appliedField 0) = 3 && t.fld AG_PLAN (appliedField 1) = 0 && (t.bank 7).free = 7 && (t.bank 8).free = 0) = true
    ∧ leaves (.assistPause false) running (fun t => t = running.settle) = true
    ∧ leaves (.voffMax 5) (governed.setFld AG_CTRL AG_CTRL_PLAN_IRQ_EN 1) (fun t => t.fld AG_PLAN AG_PLAN_GROUP_VOFF = 5 && t.pins.mgmtCount = 0 && t.pins.mgmtMore) = true
    ∧ leaves (.voffMax 2) (running.setFld AG_PLAN AG_PLAN_VOFF 6) (fun t => t.ring.out = [⟨RG_VOFF_MAX, RG_ALL, 0, [6]⟩] && t.fld AG_PLAN AG_PLAN_GROUP_VOFF = 0) = true
    ∧ leaves (.voffMax 2) (running.raise RG_STATUS RG_STATUS_RING_DOWN) (fun t => t.ring.out = []) = true := by decide +kernel

/-- R323: 86,400 s after the last write; early; RUN (too soon after the last, and spaced); the ends of the write. -/
theorem wit_record : let g := governed.setReg RG_ROSTER 3
    let busy := g.raise AG_REC_CTRL AG_REC_CTRL_BUSY
    governed.others = [] ∧ g.others = [1]
    ∧ leaves .pohSecond (g.setFld AG_POH AG_POH_NOW 86399) (fun t => t.fld AG_POH AG_POH_NOW = 86400 && t.age.collecting && t.age.waiting = [1]
        && t.ring.out.map (fun p => (p.typ, p.dst)) = [(RG_AGE_COLLECT, 1)]) = true
    ∧ leaves .pohSecond g (fun t => t.fld AG_POH AG_POH_NOW = 1 && !(t.flag AG_REC_CTRL AG_REC_CTRL_BUSY)) = true
    ∧ leaves .pohSecond running (fun t => t.fld AG_POH AG_POH_NOW = 0) = true
    ∧ g.recSpaced = false ∧ leaves (.agRecWrite 7 1) g (fun t => t.fld AG_REC_CTRL AG_REC_CTRL_RESULT = 1 && t.flag AG_REC_CTRL AG_REC_CTRL_DONE) = true
    ∧ leaves (.agRecWrite 7 1) (governed.setFld AG_POH AG_POH_NOW 86400) (fun t => t.age.programming && t.flag AG_REC_CTRL AG_REC_CTRL_BUSY) = true
    ∧ leaves (.agRecWrite 7 1) busy (fun t => t.age = busy.age && t.flag AG_REC_CTRL AG_REC_CTRL_BUSY) = true
    ∧ leaves (.agRecWrite 7 1) running (fun t => t.reg AG_REC_CTRL = 0) = true
    ∧ (let w := { busy.setFld AG_POH AG_POH_NOW 99 with age := { busy.age with programming := true, collect := [(0, 5)] } }
       leaves (.ageingRecordDone .ok) w (fun t => !(t.flag AG_REC_CTRL AG_REC_CTRL_BUSY) && t.age.stored = [(0, 5)] && t.fld AG_POH AG_POH_LAST_WRITE = 99
         && t.fld AG_REC_CTRL AG_REC_CTRL_SEQ = seqNext 0) = true
       ∧ leaves (.ageingRecordDone .verify) w (fun t => t.fld AG_REC_CTRL AG_REC_CTRL_RESULT = 3 && t.age.stored = [] && !t.age.programming) = true)
    ∧ leaves (.ageingRecordDone .ok) g (fun t => t.reg AG_REC_CTRL = 0) = true := by decide +kernel

/-! ### Error protection -/

/-- One wrong bit in the data word 0 of way 0 of row 0 of bank 0, half 0. -/
def wrong : Slice := { running with frames := [(0, frame1)], flips := [(0, 4)] }

/-- R331: a queued repair of that word. -/
theorem wit_repair : let s := { wrong with repairs0 := [0, 16] }
    leaves (.repairGrant false) s (fun t => t.flips = [] && t.repairs0 = [16] && t.fld EC_CNT EC_CNT_CE = 1 && (t.bank 0).free = 5) = true
    ∧ leaves (.repairGrant false) (s.setFld EC_CTRL EC_CTRL_REPAIR_EN 0) (fun t => t.repairs0 = [0, 16]) = true
    ∧ leaves (.repairGrant false) { s with half0 := { s.half0 with power := .retention } } (fun t => t.half0.power = .waking && t.repairs0 = [0, 16]) = true
    ∧ leaves (.repairGrant true) s (fun t => t.repairs0 = [0, 16]) = true := by decide +kernel

/-- R340, R341: step 0 reads row 0, way 0 of every bank; a half that sleeps; the deferred step. -/
theorem wit_patrol : let s := wrong.setFld EC_PATROL EC_PATROL_EN 1
    let asleep := { s with half0 := { s.half0 with power := .retention } }
    leaves .patrolStep s (fun t => t.flips = [] && t.fld EC_PATROL_STATUS EC_PATROL_STATUS_STEP = 1 && (t.bank 15).free = 5) = true
    ∧ leaves .patrolStep (s.setFld EC_PATROL_STATUS EC_PATROL_STATUS_STEP 4095) (fun t => t.flips = [(0, 4)] && t.fld EC_PATROL_STATUS EC_PATROL_STATUS_STEP = 0
        && t.fld EC_PATROL_STATUS EC_PATROL_STATUS_PASSES = 1) = true
    ∧ leaves .patrolStep asleep (fun t => t.flips = [(0, 4)] && t.fld EC_PATROL_STATUS (deferField 0) = 1 && t.half0.power = .retention) = true
    ∧ leaves .patrolStep (asleep.setFld EC_PATROL EC_PATROL_BATCH 1) (fun t => t.half0.power = .waking) = true
    ∧ leaves .patrolStep wrong (fun t => t.flips = [(0, 4)]) = true
    ∧ (let d := { (s.setFld EC_PATROL_STATUS (deferField 0) 1).setFld EC_PATROL_STATUS EC_PATROL_STATUS_STEP 1 with defers := [(0, [(0, 1)])] }
       leaves (.patrolDeferredStep false) d (fun t => t.flips = [] && t.fld EC_PATROL_STATUS (deferField 0) = 0) = true)
    ∧ leaves (.patrolDeferredStep false) s (fun t => t.flips = [(0, 4)]) = true := by decide +kernel
theorem wit_bucket : let s := (running.setFld EC_BUCKET EC_BUCKET_LEVEL 9).setFld EC_BUCKET EC_BUCKET_LEAK_SHIFT 3
    leaves .bucketLeak { s with count := 16 } (fun t => t.fld EC_BUCKET EC_BUCKET_LEVEL = 8) = true
    ∧ leaves .bucketLeak { s with count := 17 } (fun t => t.fld EC_BUCKET EC_BUCKET_LEVEL = 9) = true := by decide +kernel

/-- A quarantined frame: way 0 of set 0, half 0. -/
def quarantined (f : Frame) : Slice := { running.setReg (EC_RT 0) (setF 0 EC_RT_VALID 1) with frames := [(0, f)], quarantine := [0, 7] }

/-- A frame that is dirty or not. -/
def tagged (dirty : Nat) : Frame := { frame1 with w0 := setF frame1.w0 T0_SD dirty }

/-- R332: clean; no longer held; dirty (written back, then W_MEMACK); with a copy at a core (recalled). -/
theorem wit_quarantine : let clean := tagged 0
    running.rtFind 0 = none ∧ (quarantined clean).rtFind 0 = some 0 ∧ (quarantined clean).frameDirty 0 = 0 ∧ (quarantined clean).copies clean.w1 = []
    ∧ leaves .quarantineWork (quarantined clean) (fun t => t.frames = [] && t.quarantine = [7]) = true
    ∧ leaves .quarantineWork { quarantined clean with frames := [] } (fun t => t.quarantine = [7] && t.egress = []) = true := by decide +kernel
theorem wit_quarantine_dirty : let f := tagged 15
    leaves .quarantineWork (quarantined f) (fun t => t.frames = [] && t.egress.map (fun o => o.msg.op) = [OP_MEM_WR] && (t.hte 0 0).st = .wMemAck) = true := by
  decide +kernel
theorem wit_quarantine_shared : leaves .quarantineWork (quarantined { tagged 0 with w1 := setOwner 0 3 }) (fun t => (t.hte 0 0).st = .wRecall && (t.hte 0 0).pend = 1
    && t.egress.map (fun o => (o.msg.op, o.msg.dst)) = [(FW_BINV, 3)] && t.quarantine = [7]) = true := by decide +kernel
theorem wit_flip_arm : leaves (.ecFlipArm 7 (setF (setF 0 EC_FLIP_CTRL_ARRAY 2) EC_FLIP_CTRL_BANK 5)) running (fun t => t.flag EC_FLIP_CTRL EC_FLIP_CTRL_ARMED
      && t.fld EC_FLIP_CTRL EC_FLIP_CTRL_BANK = 5) = true
    ∧ leaves (.ecFlipArm 7 (setF 0 EC_FLIP_CTRL_ARRAY 6)) running (fun t => !(t.flag EC_FLIP_CTRL EC_FLIP_CTRL_ARMED)) = true := by decide +kernel

/-- R335: a frame enters and its line is evicted; it stands in another entry; a lost line stays. -/
theorem wit_rt : let v : Word := setF (setF 0 EC_RT_VALID 1) EC_RT_STATE 2
    leaves (.ecRtWrite 3 7 v) { running with frames := [(0, frame1)] } (fun t => t.flag (EC_RT 3) EC_RT_BUSY && t.walks = [⟨0, .retire 0, [], 0⟩]) = true
    ∧ leaves (.ecRtWrite 3 7 v) running (fun t => t.flag (EC_RT 3) EC_RT_VALID && t.walks = []) = true
    ∧ leaves (.ecRtWrite 3 7 v) (running.setReg (EC_RT 1) v) (fun t => !(t.flag (EC_RT 3) EC_RT_VALID)) = true
    ∧ leaves (.ecRtWrite 3 7 0) (running.setReg (EC_RT 3) (setF v EC_RT_LOST 1)) (fun t => t.flag (EC_RT 3) EC_RT_VALID) = true := by decide +kernel

/-- R342, R13. -/
theorem wit_spare : let v : Word := setF (setF 0 EC_SPARE_H0_VALID 1) EC_SPARE_H0_BANK 3
    let s := (running.setFld (PT_STATUS 0) PT_STATUS_STATE 0).setFld ID_CTRL ID_CTRL_QUIESCE 1
    s.anyActive = false ∧ s.quiesced = true
    ∧ leaves (.ecSpareWrite 7 v) s (fun t => t.flag EC_SPARE EC_SPARE_BUSY && t.fld EC_SPARE EC_SPARE_H0_BANK = 3 && t.sparing = [(false, 3)]) = true
    ∧ leaves (.ecSpareWrite 7 v) (s.setFld ID_CTRL ID_CTRL_QUIESCE 0) (fun t => t.flag EC_SPARE EC_SPARE_REFUSED && t.sparing = []) = true
    ∧ leaves (.ecSpareWrite 7 v) (part 2 0) (fun t => t.errLog != [] && !(t.flag EC_SPARE EC_SPARE_H0_VALID)) = true
    ∧ (let c := { s.setReg EC_SPARE (setF v EC_SPARE_BUSY 1) with sparing := [(false, 3)], frames := [(3 * 4096, frame1), (8 * 4096, Frame.zero)], repl := [] }
       leaves .spareCopyDone { c with frames := [(3 * 4096, frame1)] } (fun t => t.physBank 0 3 = 8 && t.frame (8 * 4096) = frame1 && !(t.flag EC_SPARE EC_SPARE_BUSY)
         && t.flag EC_SPARE EC_SPARE_DONE) = true)
    ∧ leaves .spareCopyDone s (fun t => t = s.settle) = true := by decide +kernel


/-! ### The control ring -/

/-- R353: applied at an OPEN, READY position and passed on; back at the lead, its writer is answered 16 fc later; with the ring down, nothing. -/
theorem wit_cfg_broadcast : let a := cfgMsg (0x400000 + ID_CTRL) 3
    governed.cfgAt a.addr.toNat = .broadcast ID_CTRL ∧ leaves (.cfgWr a true) governed (fun t => t.ring.bcasts = [a]) = true := by decide +kernel
theorem wit_bcast : let off := BitVec.ofNat 16 ID_CTRL
    let a := cfgMsg (0x10000 + ID_CTRL) 3
    leaves (.bcastWr off 3) running (fun t => t.reg ID_CTRL = 3 && t.ring.out.map (fun p => (p.typ, p.flits.length)) = [(RG_BCAST_WR, 3)]) = true
    ∧ leaves (.bcastWr off 3) { running with start := { running.start with flueOpen := false } } (fun t => t.reg ID_CTRL = 0 && t.ring.out.length = 1) = true
    ∧ bcastOff a = ID_CTRL
    ∧ leaves (.bcastWr off 3) { governed with ring := { governed.ring with bcasts := [a] } } (fun t => t.ring.bcasts = [] && t.ring.out = []
        && t.egress.map (fun o => (o.msg.op, o.due)) = [(RS_COMP, 16)]) = true
    ∧ leaves (.bcastWr off 3) (running.raise RG_STATUS RG_STATUS_RING_DOWN) (fun t => t.reg ID_CTRL = 0 && t.ring.out = []) = true := by decide +kernel

/-- R355, R354, R350, R351. -/
theorem wit_ring_packets : let down := running.raise RG_STATUS RG_STATUS_RING_DOWN
    leaves (.countSet 90 500) running (fun t => t.ring.timed = [.countSet 90 500] && t.ring.out = [⟨RG_COUNT_SET, RG_ALL, 0, flits2 90 ++ flits2 500⟩]
      && !(t.flag RG_STATUS RG_STATUS_LATE)) = true
    ∧ leaves (.countSet 90 500) { running with count := 90 } (fun t => t.flag RG_STATUS RG_STATUS_LATE) = true
    ∧ leaves (.countSet 90 500) down (fun t => t.ring.timed = []) = true
    ∧ leaves (.roster 6) running (fun t => t.ring.out = [⟨RG_ROSTER_PKT, RG_ALL, 0, flits2 7⟩]) = true
    ∧ leaves (.roster 6) governed (fun t => t.ring.out = [⟨RG_ROSTER_SET, RG_ALL, 0, flits2 7⟩]) = true
    ∧ leaves (.mode true) running (fun t => t.flag RG_STATUS RG_STATUS_MODE && t.ring.out.length = 1) = true
    ∧ leaves (.mode false) { governed with ring := { governed.ring with modeWait := true } } (fun t => !t.ring.modeWait && t.ring.out = []
        && !(t.flag RG_STATUS RG_STATUS_MODE)) = true
    ∧ leaves .ping running (fun t => t.ring.out = [⟨RG_PING, RG_ALL, 0, []⟩]) = true := by decide +kernel

/-- R354, R24: stored, and the home map names slice 0 alone; an absent slice; a position in step 7 becomes READY. -/
theorem wit_roster_set : leaves (.rosterSet 5) running (fun t => t.reg RG_ROSTER = 5 && t.fld RG_STATUS RG_STATUS_PRESENT = 2 && !(t.flag ID_STATUS ID_STATUS_MAP_BAD)) = true
    ∧ leaves (.rosterSet 5) { running with homeMap := [(9, 1)] } (fun t => t.flag ID_STATUS ID_STATUS_MAP_BAD && t.pins.mgmtMore) = true
    ∧ leaves (.rosterSet 5) { running with start := { running.start with aonReset := true } } (fun t => t.reg RG_ROSTER = 0) = true
    ∧ (let s := (running.setFld ID_STATUS ID_STATUS_READY 0).setFld NV_STATUS NV_STATUS_STEP 7
       s.ready = false ∧ leaves (.rosterSet 5) s (fun t => t.ready && t.fld NV_STATUS NV_STATUS_STEP = 8) = true) := by decide +kernel

/-- R349, R348: the first and the eighth failure; a credit lets the packet go; a whole packet's credits at the lead. -/
theorem wit_ring_link : let p : RingPkt := ⟨RG_PING, RG_ALL, 0, []⟩
    let w := fun (n : Nat) => { running with ring := { Ring.init with queue := [p], credits := n } }
    leaves .ringParityError running (fun t => t.fld RG_RETRY RG_RETRY_RING = 1 && t.ring.failures = 1 && t.ringUp) = true
    ∧ leaves .ringParityError { running with ring := { running.ring with failures := 7 } } (fun t => !t.ringUp && t.pins.mgmtMore) = true
    ∧ leaves .ringParityError (running.raise RG_STATUS RG_STATUS_RING_DOWN) (fun t => t.fld RG_RETRY RG_RETRY_RING = 0) = true
    ∧ leaves .ringCredit (w 0) (fun t => t.ring.out = [p] && t.ring.queue = [] && t.ring.credits = 0) = true
    ∧ leaves .ringCredit { w 0 with ring := { (w 0).ring with owed := 2 } } (fun t => t.ring.out = [] && t.ring.owed = 1) = true := by decide +kernel

/-! ### Image data and ages -/

/-- A position in step 1. -/
def staging : Slice :=
  { (running.setFld ID_STATUS ID_STATUS_READY 0).setFld NV_STATUS NV_STATUS_STEP 1 with
    start := { Startup.init with aonReset := false, sliceReset := false, rails := true } }

/-- An image of a header and END, with its CRC. -/
def emptyImage : List Byte :=
  let b := leBytes 8 0x31444E49304C4953 ++ leBytes 4 0 ++ leBytes 4 40 ++ List.replicate 16 0 ++ leBytes 8 0xFF
  b ++ leBytes 4 (crc32 b).toNat

/-- R374: the first packet of 28 bytes; the last, with which the stream is whole; one out of order; not in step 1. -/
theorem wit_img_data : let first := emptyImage.take 28
    let half := { staging with start := { staging.start with image := first, packets := 1 } }
    let last := BitVec.ofNat 15 (imgArg 1)
    leaves (.imgData 0 first) staging (fun t => t.start.image = first && t.start.packets = 1 && !t.start.staged && t.ring.out.map RingPkt.typ = [RG_IMG_DATA]) = true
    ∧ leaves (.imgData last (emptyImage.drop 28)) half (fun t => t.start.staged && !(t.flag NV_STATUS NV_STATUS_REC_BAD)) = true
    ∧ leaves (.imgData last (List.replicate 16 0)) half (fun t => t.start.stageBad && !t.start.staged) = true
    ∧ leaves (.imgData last first) staging (fun t => t.flag NV_STATUS NV_STATUS_STAGE_ERR && t.fld NV_STATUS NV_STATUS_STEP = 15) = true
    ∧ leaves (.imgData 0 first) running (fun t => t.start.image = []) = true := by decide +kernel

/-- R374, R323: the entry of this position, with the image staged, bad, and of another position. -/
theorem wit_age_entry : leaves (.ageEntry 0 9) { staging with start := { staging.start with staged := true } } (fun t => t.start.ageEntry = 9
      && t.fld NV_STATUS NV_STATUS_STEP = 2) = true
    ∧ leaves (.ageEntry 0 9) { staging with start := { staging.start with stageBad := true } } (fun t => t.fld NV_STATUS NV_STATUS_STEP = 15) = true
    ∧ leaves (.ageEntry 3 9) staging (fun t => t.start.ageEntry = 0 && t.ring.out.length = 1) = true
    ∧ leaves (.ageCollect 0 9) running (fun t => t.ring.out = [⟨RG_AGE_COLLECT, 0, 0, flits8 running.ageNow⟩]) = true
    ∧ leaves (.ageCollect 3 9) { governed.raise AG_REC_CTRL AG_REC_CTRL_BUSY with age := { governed.age with waiting := [3], forced := true, collecting := true } }
        (fun t => t.age.waiting = [] && t.age.programming && Tbl.at 0 t.age.collect 3 = 9) = true := by decide +kernel

/-- R363, R358, R13. -/
theorem wit_rg_ctrl : let off := governed.setFld (PT_STATUS 0) PT_STATUS_STATE 0
    leaves (.rgRosterCmd 7 0) governed (fun t => t.ring.out = [⟨RG_ROSTER_PKT, RG_ALL, 0, flits2 0⟩]) = true
    ∧ leaves (.rgEmber 7 0) governed (fun t => t.ring.out = [⟨RG_MODE, RG_ALL, 0, [0]⟩]) = true
    ∧ leaves (.rgEmber 7 0) running (fun t => t.ring.out = []) = true
    ∧ off.anyActive = false ∧ leaves (.brTrain 7 (setF 0 RG_CTRL_BR_EN 1)) off (fun t => t.board.training && t.board.ctl = [⟨true, 3, 0, 0⟩]) = true
    ∧ leaves (.brTrain 7 0) off (fun t => !t.board.training) = true
    ∧ leaves (.brTrain 7 (setF 0 RG_CTRL_BR_EN 1)) (governed.setFld (PT_STATUS 1) PT_STATUS_STATE 2) (fun t => !(t.flag RG_CTRL RG_CTRL_BR_EN) && t.errLog != []) = true := by
  decide +kernel

/-! ### The board ring -/

/-- The lead of host 2 of 3, its board ring on, with no partition but PID 0. -/
def board (host : Nat) : Slice :=
  (governed.setReg RG_BR_CFG (setF (setF 0 RG_BR_CFG_NHOSTS 3) RG_BR_CFG_HOST_ID host)).raise RG_CTRL RG_CTRL_BR_EN

/-- R360: 5,000 + ⌊(2·100 + 12) / 25⌋ = 5,008 against a count of 5,000; with a partition active; the originator; the master. -/
theorem wit_board_count : let s := { board 2 with count := 5000 }
    s.hostId = 2 ∧ s.boardOn = true ∧ s.anyActive = false
    ∧ leaves (.boardCount 0 4 5000 100 0) s (fun t => t.reg RG_BR_OFFSET = 8 && t.board.upWait && t.board.ctl = [⟨false, 1, 4, 0⟩] && t.board.rxSeq = 5
        && t.board.fwd = [⟨s.refs + 10, BF_COUNT, 0, countPayload 5000 225⟩] && t.ring.out = [⟨RG_COUNT_SET, RG_ALL, 0, flits2 5064 ++ flits2 5072⟩]) = true
    ∧ leaves (.boardCount 0 4 5000 100 0) (s.setFld (PT_STATUS 1) PT_STATUS_STATE 2) (fun t => t.flag RG_STATUS RG_STATUS_CSKIP && t.ring.out = []) = true
    ∧ leaves (.boardCount 2 4 5000 100 0) s (fun t => t.board.fwd = [] && t.board.rxSeq = 5) = true
    ∧ leaves (.boardCount 1 4 5000 100 0) (board 0) (fun t => t.board.fwd.length = 1 && t.ring.out = []) = true
    ∧ leaves (.boardCount 0 4 5000 100 0) { s with board := { s.board with resync := true, rxSeq := 3 } } (fun t => t.board.fwd = [] && t.board.ctl = []) = true := by
  decide +kernel

/-- R358: PING passes on; back at the master; not every host visited. -/
theorem wit_board_ping : let m := { board 0 with board := { Board.init with training := true } }
    leaves (.boardPing 0 0 1) (board 2) (fun t => t.board.fwd = [⟨(board 2).refs + 10, BF_PING, 0, 5⟩]) = true
    ∧ leaves (.boardPing 0 0 7) m (fun t => t.flag RG_STATUS RG_STATUS_BR_UP && t.board.own = [⟨m.refs + 1, BF_COUNT, 0, 0⟩] && !t.board.training) = true
    ∧ leaves (.boardPing 0 0 3) m (fun t => !(t.flag RG_STATUS RG_STATUS_BR_UP) && t.board.training) = true := by decide +kernel

/-- R361, R301: the last proposal of a boundary is in; an earlier one; for no group of this host. -/
theorem wit_board_prop : let s := (board 3).setReg (PG_GROUP 0) (setF (setF (setF 0 PG_GROUP_VALID 1) PG_GROUP_PID 1) PG_GROUP_HOSTS 9)
    let w := { s with gov := { s.gov with groups := [(0, { Group.idle with boundary := 200, waiting := true, props := [(3, (6, 200))] })] } }
    s.groupOf 1 = some 0 ∧ s.members 0 = [0, 3] ∧ s.hostId = 3
    ∧ leaves (.boardProp 0 0 1 9 4 200) w (fun t => !((t.group 0).waiting) && (t.group 0).next = 10 && t.fld (PG_GSTAT 0) PG_GSTAT_STRAGGLE = 4
        && t.board.fwd = [⟨w.refs + 10, BF_PROP, 0, propPayload 1 9 4 200⟩]) = true
    ∧ leaves (.boardProp 0 0 1 9 4 100) w (fun t => (t.group 0).waiting && Tbl.at (0, 0) (t.group 0).props 0 = (10, 100)) = true
    ∧ leaves (.boardProp 0 0 5 9 4 200) w (fun t => t.group 0 = w.group 0 && t.board.fwd.length = 1) = true
    ∧ leaves (.boardProp 3 0 1 9 4 200) w (fun t => t.board.fwd = []) = true := by decide +kernel

/-- R359: ACK; NAK (the frames from its SEQ again); the eighth; a bad CRC; a TYPE that is not known. -/
theorem wit_board_link : let f := fun (n : Nat) => (⟨BF_PING, n, 0, 1, 0⟩ : BoardFrame)
    let s := { board 2 with board := { Board.init with kept := [f 0, f 1, f 2] } }
    leaves (.boardAck 1) s (fun t => t.board.kept = [f 2]) = true ∧ leaves (.boardAck 5) s (fun t => t.board.kept.length = 3) = true
    ∧ leaves (.boardNak 1) s (fun t => t.board.out = [{ f 1 with tick := s.refs }, { f 2 with tick := s.refs }] && t.board.naks = 1 && t.fld RG_RETRY RG_RETRY_BOARD = 1) = true
    ∧ leaves (.boardNak 5) s (fun t => t.board.out = []) = true
    ∧ leaves (.boardNak 1) { s with board := { s.board with naks := 7 } } (fun t => t.board.down && t.flag RG_STATUS RG_STATUS_BR_DOWN) = true
    ∧ leaves (.boardFrameBad true 6) s (fun t => t.board.resync && t.board.rxSeq = 6 && t.board.ctl = [⟨false, 2, 6, 0⟩]) = true
    ∧ leaves (.boardFrameBad true 6) { s with board := { s.board with rxNaks := 7 } } (fun t => t.board.down) = true
    ∧ leaves (.boardFrameBad false 6) s (fun t => !t.board.resync && t.board.ctl = [⟨false, 1, 6, 0⟩] && t.fld RG_RETRY RG_RETRY_BOARD = 1) = true
    ∧ leaves (.boardFrameBad true 6) governed (fun t => t.board = governed.board) = true := by decide +kernel

/-- R358: ⌊(365 − 64 + 1) / 2⌋ = 151. -/
theorem wit_training : let s := fun (h : Nat) => { board h with board := { Board.init with training := true } }
    leaves (.echo false 0) (board 2) (fun t => t.board.ctl = [⟨false, 3, 0, 0⟩]) = true
    ∧ leaves (.echo true 365) (s 2) (fun t => t.fld RG_BR_LAT RG_BR_LAT_LAT_OUT = 151 && t.board.ctl = [⟨true, 4, 0, 151⟩] && t.board.out = []) = true
    ∧ leaves (.echo true 365) (s 0) (fun t => t.board.out = [⟨BF_PING, 0, 0, 1, (board 0).refs⟩]) = true
    ∧ leaves (.echo true 365) (board 2) (fun t => t.board.ctl = []) = true
    ∧ leaves (.lat 151) (board 2) (fun t => t.fld RG_BR_LAT RG_BR_LAT_LAT_IN = 151) = true
    ∧ leaves (.lat 151) governed (fun t => t.fld RG_BR_LAT RG_BR_LAT_LAT_IN = 0) = true
    ∧ leaves .trainingTimeout (s 2) (fun t => !t.board.training && t.flag RG_STATUS RG_STATUS_BR_DOWN && t.pins.mgmtMore) = true
    ∧ leaves .trainingTimeout (board 2) (fun t => !(t.flag RG_STATUS RG_STATUS_BR_DOWN)) = true := by decide +kernel

/-- R362: a target in reach; one too near; refused on a host that is not the master. -/
theorem wit_adjust : let v : Word := setF 0 RG_CNT_ADJ_DELTA 0xFFFFFFFF
    let m := (board 0).setReg RG_CNT_ADJ_TICK 100
    leaves (.rgCntAdjGo 7 v) m (fun t => t.flag RG_CNT_ADJ RG_CNT_ADJ_ARMED && t.board.adjAt = some 100 && !(t.flag RG_STATUS RG_STATUS_LATE)
        && t.ring.out = [⟨RG_COUNT_SET, RG_ALL, 0, flits2 100 ++ flits2 99⟩]) = true
    ∧ leaves (.rgCntAdjGo 7 v) { m with count := 90 } (fun t => t.flag RG_STATUS RG_STATUS_LATE && t.board.adjAt = some 154) = true
    ∧ leaves (.rgCntAdjGo 7 v) (board 2) (fun t => t.flag RG_STATUS RG_STATUS_ADJ_REFUSED && t.ring.out = []) = true
    ∧ leaves (.rgCntAdjGo 7 v) running (fun t => t.reg RG_CNT_ADJ = 0) = true := by decide +kernel


/-! ### Start-up -/

/-- A slice in a start-up step. -/
def starting (lead : Nat) (n : Nat) : Slice :=
  { ((running.setFld ID_STATUS ID_STATUS_READY 0).setFld NV_STATUS NV_STATUS_STEP n).setFld ID_SLICE ID_SLICE_LEAD lead with
    start := { Startup.init with aonReset := false, sliceReset := false, rails := true, powered := true } }

/-- R409, R364: ember reset, and its release with strap 9. -/
theorem test_aon_assert : leaves .aonResetAssert { governed with count := 77, frames := [(0, frame1)], fresh := 4 } (fun t =>
    t.regs = resetRegs && t.count = 0 && t.frames = [] && t.start.aonReset && t.fresh = 4) = true := by decide +kernel
theorem wit_aon_release : Slice.reset.start.aonReset = true ∧ Slice.reset.start.fuseOff = false
    ∧ leaves (.aonResetRelease 9) Slice.reset (fun t => t.id = 9 && !t.lead && t.fld NV_STATUS NV_STATUS_STEP = 1 && !t.start.aonReset) = true
    ∧ leaves (.aonResetRelease 0) Slice.reset (fun t => t.lead) = true ∧ leaves (.aonResetRelease 9) running (fun t => t.id = 0) = true := by decide +kernel

/-- R365, R380, R409: slice reset of a READY slice keeps the ember domain; a halted one stays in step 15; its release. -/
theorem wit_slice_reset : leaves .sliceResetAssert { running with frames := [(0, frame1)] } (fun t => t.fld NV_STATUS NV_STATUS_STEP = 2 && t.frames = [] && t.start.reentry
      && t.start.sliceReset && t.reg CO_NODEMAP = 0 && !t.ready) = true
    ∧ leaves .sliceResetAssert (starting 0 15) (fun t => t.fld NV_STATUS NV_STATUS_STEP = 15) = true
    ∧ leaves .sliceResetAssert { running with start := { running.start with sliceReset := true } } (fun t => t.ready) = true
    ∧ leaves (.sliceResetRelease 5) { running with start := { running.start with sliceReset := true } } (fun t => t.id = 5 && !t.start.sliceReset) = true
    ∧ leaves (.sliceResetRelease 5) running (fun t => t.id = 0) = true := by decide +kernel

/-- R377, R237, R403: at count 65,536 with latencies 3, 2, 6 and 7; before the 64 ticks; in another step. -/
theorem wit_alignment : let s := { starting 0 5 with count := 65536 }
    s.alignTick = 0 ∧ s.alignPeriod = 65536
    ∧ leaves (.crossingAlignment 0x76237623) s (fun t => t.fld DG_XING (xingLat 0) = 3 && t.flag DG_DET_STATUS (xingAligned 0) && t.flag DG_DET_STATUS (xingAsync 1)
        && t.fld DG_XING (xingLat 2) = 6 && t.flag DG_DET_STATUS (xingAsync 3) && t.rxHeld 3 .dat = 16 && t.rxHeld 3 .fwd = 2 && t.fld NV_STATUS NV_STATUS_STEP = 6) = true
    ∧ leaves (.crossingAlignment 0x76237623) { s with count := 65537 } (fun t => t.fld NV_STATUS NV_STATUS_STEP = 5) = true
    ∧ leaves (.crossingAlignment 0x76237623) { s with start := { s.start with step5At := 65500 } } (fun t => t.fld NV_STATUS NV_STATUS_STEP = 5) = true
    ∧ leaves (.xingMarkerGap ⟨2, false⟩) ((running.raise DG_DET_STATUS (xingAligned 2)).setFld DG_XING (xingLat 2) 6) (fun t => t.flag DG_DET_STATUS (xingAsync 2)
        && !(t.flag DG_DET_STATUS (xingAligned 2)) && t.fld DG_XING (xingLat 2) = 0) = true
    ∧ leaves (.xingMarkerGap ⟨2, false⟩) running (fun t => !(t.flag DG_DET_STATUS (xingAsync 2))) = true := by decide +kernel

/-- R378, R379: the lead loads the count; the flue opens at COUNT_START + 16; late; re-entered; the roster. -/
theorem wit_steps : let six := { starting 1 6 with count := 500, start := { (starting 1 6).start with aligned := true, alignedCount := 492, loaded := true } }
    leaves .countLoad six (fun t => t.ring.out = [⟨RG_COUNT_SET, RG_ALL, 0, flits2 (500 + 32) ++ flits2 0⟩]) = true
    ∧ leaves .countLoad { six with count := 499 } (fun t => t.ring.out = []) = true
    ∧ leaves .flueOpen six (fun t => t.start.flueOpen && t.fld NV_STATUS NV_STATUS_STEP = 7 && !t.ready) = true
    ∧ leaves .flueOpen { six with start := { six.start with rosterSeen := true } } (fun t => t.ready && t.flag NV_STATUS NV_STATUS_LATE_OPEN) = true
    ∧ leaves .flueOpen { six with start := { six.start with reentry := true } } (fun t => t.ready && t.fld NV_STATUS NV_STATUS_REENTRIES = 1
        && !(t.flag NV_STATUS NV_STATUS_LATE_OPEN)) = true
    ∧ leaves .flueOpen { six with count := 15 } (fun t => !t.start.flueOpen) = true
    ∧ leaves .rosterTake { starting 1 7 with count := 32 } (fun t => t.ring.out = [⟨RG_ROSTER_PKT, RG_ALL, 0, flits2 0⟩]) = true
    ∧ leaves .rosterTake { starting 1 7 with count := 31 } (fun t => t.ring.out = []) = true := by decide +kernel

/-- R384, R383. -/
theorem wit_steward : leaves .heartbeat (running.setFld NV_STEWARD NV_STEWARD_HEARTBEAT 0xFFFFFFFF) (fun t => t.fld NV_STEWARD NV_STEWARD_HEARTBEAT = 0) = true
    ∧ leaves .stewardHalt running (fun t => t.flag NV_STEWARD NV_STEWARD_HALT && t.pins.mgmtMore) = true
    ∧ leaves .heartbeat (running.raise NV_STEWARD NV_STEWARD_HALT) (fun t => t.fld NV_STEWARD NV_STEWARD_HEARTBEAT = 0) = true := by decide +kernel

/-- A well-formed bank header: SEQ, LENGTH 40, 8 slices. -/
def header (seq : Nat) : BitVec 256 := setF (setF (setF (setF (setF 0 IH_MAGIC 0x4D495644) IH_FORMAT 1) IH_SEQ seq) IH_LENGTH 40) IH_GROUP 8

/-- R368, R370, R373: bank B is newer, also across the wrap of SEQ; bank A alone; none; quad again. -/
theorem wit_nvm_wait : let s := starting 1 1
    wellFormedHdr (header 3) = true
    ∧ leaves (.nvmWaitExpiry true true (header 3) (header 4)) s (fun t => t.start.candidates = [(true, header 4), (false, header 3)]
        && t.flag NV_STATUS NV_STATUS_READ_QUAD) = true
    ∧ leaves (.nvmWaitExpiry true false (header 0xFFFFFFFE) (header 1)) s (fun t => t.start.candidates = [(true, header 1), (false, header 0xFFFFFFFE)]
        && !(t.flag NV_STATUS NV_STATUS_READ_QUAD)) = true
    ∧ leaves (.nvmWaitExpiry true false (header 5) (header 4)) s (fun t => t.start.candidates = [(false, header 5), (true, header 4)]) = true
    ∧ leaves (.nvmWaitExpiry true false (header 5) 0) s (fun t => t.start.candidates = [(false, header 5)]) = true
    ∧ leaves (.nvmWaitExpiry true false 0 0) s (fun t => t.flag NV_STATUS NV_STATUS_NO_IMAGE && t.fld NV_STATUS NV_STATUS_STEP = 15 && t.pins.cfgErr) = true
    ∧ leaves (.nvmWaitExpiry true true 0 0) s (fun t => t.start.single && t.fld NV_STATUS NV_STATUS_STEP = 1) = true
    ∧ leaves (.nvmWaitExpiry true true (header 3) (header 4)) running (fun t => t.start.candidates = []) = true := by decide +kernel

/-- The image of a header and END, with its CRC. -/
def bankImage : List Byte :=
  let b := leBytes 32 (header 3).toNat ++ leBytes 8 0xFF
  b ++ leBytes 4 (crc32 b).toNat

/-- R374: 44 bytes leave in two packets, then 8 ageing entries; a bad CRC with another bank to try, and with none. -/
theorem wit_stream : let s := fun (l : List (Bool × BitVec 256)) => { starting 1 1 with start := { (starting 1 1).start with candidates := l } }
    let wrong := bankImage.take 43 ++ [0]
    leaves (.imageStreamDone bankImage [] []) (s [(false, header 3)]) (fun t => t.start.staged && t.pins.cfgDone && t.fld NV_STATUS NV_STATUS_STEP = 2
        && t.fld NV_IMAGE NV_IMAGE_SEQ = 3 && t.fld ID_SLICE ID_SLICE_GROUP_SIZE = 8
        && (t.ring.out ++ t.ring.queue).map RingPkt.typ = [RG_IMG_DATA, RG_IMG_DATA] ++ List.replicate 8 RG_AGE_ENTRY) = true
    ∧ leaves (.imageStreamDone wrong [] []) (s [(true, header 3), (false, header 2)]) (fun t => t.flag NV_STATUS NV_STATUS_CRC_FAIL_B
        && t.start.candidates = [(false, header 2)] && !t.pins.cfgDone) = true
    ∧ leaves (.imageStreamDone wrong [] []) (s [(false, header 3)]) (fun t => t.flag NV_STATUS NV_STATUS_NO_IMAGE && t.fld NV_STATUS NV_STATUS_STEP = 15) = true
    ∧ leaves (.imageStreamDone bankImage [] []) running (fun t => !t.pins.cfgDone) = true := by decide +kernel

/-- R364, R375, R376: MODE AWAKE leaves the lead; a REPAIR record; an uncorrectable word. -/
theorem wit_power : let body := leBytes 8 (setF (setF (0 : Word) EC_SPARE_H1_VALID 1) EC_SPARE_H1_BANK 6).toNat ++ leBytes 8 (setF (setF (0 : Word) EC_RT_VALID 1) EC_RT_ROW 9).toNat
    leaves (.powerPresent 2 false) (starting 1 2) (fun t => t.fld NV_STATUS NV_STATUS_STEP = 4 && t.fld NV_STEWARD NV_STEWARD_CE = 2 && t.ring.out = [⟨RG_MODE, RG_ALL, 0, [1]⟩]) = true
    ∧ leaves (.powerPresent 0 false) { starting 0 2 with start := { (starting 0 2).start with records := [(RT_REPAIR, body)] } } (fun t => t.fld EC_SPARE EC_SPARE_H1_BANK = 6
        && t.flag (EC_RT 0) EC_RT_VALID && t.fld (EC_RT 0) EC_RT_ROW = 9 && t.fld (EC_RT 0) EC_RT_STATE = 1) = true
    ∧ leaves (.powerPresent 0 true) (starting 0 2) (fun t => t.flag NV_STATUS NV_STATUS_STAGE_ERR && t.fld NV_STATUS NV_STATUS_STEP = 15) = true
    ∧ leaves (.powerPresent 0 false) running (fun t => t.fld NV_STATUS NV_STATUS_STEP = 8) = true := by decide +kernel

/-- R329, R376: the fill; a defect (quarantined); an uncorrectable word of the store. -/
theorem wit_kindling : let s := { starting 1 4 with frames := [(0, frame1)], count := 8 }
    s.step' = 4
    ∧ (s.kindleBad (0, 7, 1, 2)).flip 0 7 1 = 2 ∧ ((s.kindleBad (0, 7, 1, 2)).rtFind 7).isSome = true
    ∧ leaves (.kindlingFillDone [] 1 true) s (fun t => t.flag NV_STATUS NV_STATUS_STAGE_ERR && t.frames = [] && t.fld NV_STEWARD NV_STEWARD_CE = 1) = true
    ∧ leaves (.kindlingFillDone [] 0 false) { running with frames := [(0, frame1)] } (fun t => t.frames.length = 1) = true := by decide +kernel

/-! ### Flash commands, the test port and readback -/

/-- R381: a READ; RANGE; PROTECTED in bank 0; BUSY; the end of the READ; not in the lead. -/
theorem wit_flash : let v : Word := setF 0 NV_CMD_LEN 16
    let far := governed.setFld NV_ADDR NV_ADDR_ADDR 0x300000
    let busy := { far.raise NV_CMD NV_CMD_BUSY with start := { far.start with nv := (1, 16) } }
    leaves (.nvRead 7 v) governed (fun t => t.flag NV_CMD NV_CMD_BUSY && t.start.nv = (1, 16)) = true
    ∧ leaves (.nvRead 7 0) governed (fun t => t.fld NV_CMD NV_CMD_RESULT = 4 && t.flag NV_CMD NV_CMD_DONE) = true
    ∧ leaves (.nvProgram 7 v) governed (fun t => t.fld NV_CMD NV_CMD_RESULT = 1 && !(t.flag NV_CMD NV_CMD_BUSY)) = true
    ∧ leaves (.nvErase4k 7 v) far (fun t => t.flag NV_CMD NV_CMD_BUSY && t.start.nv = (3, 16)) = true
    ∧ leaves (.nvRead 7 v) busy (fun t => t.flag NV_CMD NV_CMD_BUSY && t.start.nv = (1, 16)) = true
    ∧ leaves (.nvCmdDone .ok [1, 2]) busy (fun t => t.reg (NV_BUF 0) = 0x201 && t.flag NV_CMD NV_CMD_DONE && !(t.flag NV_CMD NV_CMD_BUSY)) = true
    ∧ leaves (.nvCmdDone .noSupport []) { busy with start := { busy.start with nv := (3, 16) } } (fun t => t.fld NV_CMD NV_CMD_RESULT = 3) = true
    ∧ leaves (.nvCmdDone .ok []) governed (fun t => !(t.flag NV_CMD NV_CMD_DONE)) = true
    ∧ leaves (.nvRead 7 v) running (fun t => t.reg NV_CMD = 0) = true := by decide +kernel
theorem wit_flash_record : let busy := { governed.raise NV_CMD NV_CMD_BUSY with start := { governed.start with nv := (3, 16) }, age := { governed.age with collecting := true } }
    leaves (.nvCmdDone .ok []) { busy with age := { busy.age with forced := true } } (fun t => t.age.programming && t.flag AG_REC_CTRL AG_REC_CTRL_BUSY) = true
    ∧ (let h := { busy.raise NV_STEWARD NV_STEWARD_HALT with age := { busy.age with forced := true } }
       leaves (.nvCmdDone .ok []) h (fun t => t.age = h.age && t.flag NV_CMD NV_CMD_DONE) = true)
    ∧ leaves (.nvCmdDone .ok []) busy (fun t => !t.age.programming && !t.age.collecting) = true := by decide +kernel

/-- R397, R56: word 0 of the data of frame 0 (5, with bit 2 wrong: 1); BAD_SEL; ASLEEP; SEALED; BUSY. -/
theorem wit_readback : let sel := fun (a b : Nat) => (wrong.setFld NV_STATUS NV_STATUS_STEP 8).setReg TD_ARR_SEL (setF (setF 0 TD_ARR_SEL_ARRAY a) TD_ARR_SEL_BANK b)
    let s := sel 0 0
    leaves (.tdArrStart 7 1) s (fun t => t.tdReq = some ⟨0, 0, 0, 7⟩ && t.flag TD_ARR_CMD TD_ARR_CMD_BUSY) = true
    ∧ (let u := ({ s with tdReq := some ⟨0, 0, 0, 7⟩ }).arbitrate 0
       u.reg TD_ARR_DATA = 1 ∧ u.tdAt = some (s.slotFc + 12) ∧ u.tdReq = none)
    ∧ leaves (.tdArrStart 7 1) (sel 6 0) (fun t => t.fld TD_ARR_CMD TD_ARR_CMD_RESULT = 3 && t.flag TD_ARR_CMD TD_ARR_CMD_DONE) = true
    ∧ leaves (.tdArrStart 7 1) (sel 0 9) (fun t => t.fld TD_ARR_CMD TD_ARR_CMD_RESULT = 3) = true
    ∧ leaves (.tdArrStart 7 1) { s with half0 := { s.half0 with power := .retention } } (fun t => t.fld TD_ARR_CMD TD_ARR_CMD_RESULT = 2) = true
    ∧ leaves (.tdArrStart 7 1) ((s.raise TD_ARR_CMD TD_ARR_CMD_BUSY)) (fun t => t.tdAt = none && t.flag TD_ARR_CMD TD_ARR_CMD_BUSY) = true := by decide +kernel
theorem wit_readback_sealed : let s := { ((part 2 0).setFld NV_STATUS NV_STATUS_STEP 8).setFld (PT_CTRL 1) PT_CTRL_SEAL 1 with frames := [(0, frame1)] }
    s.tdOwner 0 0 = some 1 ∧ s.sealed 1 = true
    ∧ leaves (.tdArrStart 7 1) s (fun t => t.fld TD_ARR_CMD TD_ARR_CMD_RESULT = 1 && t.reg TD_ARR_DATA = 0 && t.errLog != []) = true := by decide +kernel

/-- R395, R396, R412: a read and a write through the test port; locked; not reachable; no register; in ember reset. -/
theorem wit_regacc : let at8 := fun (o : Nat) => BitVec.ofNat 13 (o / 8)
    leaves (.regacc true (at8 ID_CTRL) 3) running (fun t => t.reg ID_CTRL = 3 && t.tap.res = 0 && t.tap.ir = IR_REGACC) = true
    ∧ leaves (.regacc false (at8 ID_NODE) 0) running (fun t => t.tap.data = running.reg ID_NODE && t.tap.res = 0) = true
    ∧ leaves (.regacc false (at8 ID_NODE) 0) (running.raise TD_CTRL TD_CTRL_TAP_LOCK) (fun t => t.tap.data = 0 && t.tap.res = 2) = true
    ∧ leaves (.regacc false (at8 ID_NODE) 0) (starting 0 5) (fun t => t.tap.res = 3) = true
    ∧ leaves (.regacc false (at8 ID_REV) 0) (starting 0 5) (fun t => t.tap.res = 0 && t.tap.data = 0x0A470D7500000300) = true
    ∧ leaves (.regacc false (at8 0x3FF8) 0) running (fun t => t.tap.res = 0 && t.tap.data = 0) = true
    ∧ leaves (.regacc false (at8 ID_NODE) 0) Slice.reset (fun t => t.tap.ir = Slice.reset.tap.ir) = true
    ∧ leaves (.regacc true (at8 ID_CTRL) 3) { running with start := { running.start with fuseOff := true } } (fun t => t.reg ID_CTRL = 0 && t.tap.dr = 0) = true := by
  decide +kernel

/-- R394, R412: the data registers. -/
theorem wit_tap : leaves .idcode running (fun t => t.tap.ir = 1 && t.tap.dr = 0x30D752BB) = true
    ∧ leaves .status (running.setFld NV_STATUS NV_STATUS_STEP 8) (fun t => t.tap.dr = 0x18) = true
    ∧ leaves (.bypass true) running (fun t => t.tap.ir = 0xF && t.tap.dr = 1) = true
    ∧ leaves .tapReset { running with tap := ⟨9, 3, 0, 7⟩ } (fun t => t.tap = ⟨IR_IDCODE, 0, 0, 0x30D752BB⟩) = true
    ∧ leaves .idcode Slice.reset (fun t => t.tap.dr = 0) = true := by decide +kernel

/-- R411: the pulse ends; the gap ends with one more event waiting, and with none. -/
theorem wit_mgmt : let s := fun (p : Pins) => { running with pins := p }
    leaves .slIrqMgmtPulse (s { Pins.init with mgmt := true }) (fun t => !t.pins.mgmt && t.pins.mgmtGap && t.pins.mgmtCount = 4) = true
    ∧ leaves .slIrqMgmtPulse (s { Pins.init with mgmtGap := true, mgmtMore := true }) (fun t => !t.pins.mgmtGap && !t.pins.mgmtMore && t.pins.mgmtCount = 1) = true
    ∧ leaves .slIrqMgmtPulse (s { Pins.init with mgmtGap := true }) (fun t => !t.pins.mgmtGap && t.pins.mgmtCount = 0) = true
    ∧ leaves .slIrqMgmtPulse (s { Pins.init with mgmt := true, mgmtCount := 2 }) (fun t => t.pins.mgmt && t.pins.mgmtCount = 2) = true := by decide +kernel

/-! ### Time -/

/-- The slice after one fc with no command. -/
def ticked (s : Slice) (p : Slice → Bool) : Bool :=
  match step ⟨s, []⟩ with
  | .next t => p t.slice
  | _ => false

/-- R233, R355: an edge counts; a COUNT_SET of that count; one of a later count; between edges. -/
theorem wit_tick : let edge := { running with frac := running.edgeAt, count := 9 }
    ticked edge (fun t => t.count = 10 && t.refs = 1 && t.fc = 1) = true
    ∧ ticked { edge with ring := { edge.ring with timed := [.countSet 10 500] } } (fun t => t.count = 500 && t.ring.timed = []) = true
    ∧ ticked { edge with ring := { edge.ring with timed := [.countSet 11 500] } } (fun t => t.count = 10 && t.ring.timed.length = 1) = true
    ∧ ticked { running with count := 9 } (fun t => t.count = 9 && t.fc = 1) = true
    ∧ ticked { edge with start := { edge.start with aonReset := true } } (fun t => t.count = 9) = true
    ∧ ticked { running with count := 9, ring := { running.ring with timed := [.countSet 8 500] } } (fun t => t.count = 500 && t.ring.timed = []) = true := by
  decide +kernel

/-- R359: a frame of another host leaves at its tick; the host's own one 7 ticks after a forwarded one waits, and 8 ticks after it leaves. -/
theorem wit_board_edge : let s := { board 2 with frac := running.edgeAt, refs := 20 }
    let f : BoardDue := ⟨21, BF_PING, 0, 5⟩
    ticked { s with board := { s.board with fwd := [f] } } (fun t => t.board.out = [⟨BF_PING, 0, 0, 5, 21⟩] && t.board.fwd = [] && t.board.fwdAt = some 21) = true
    ∧ ticked { s with board := { s.board with own := [f], fwdAt := some 14 } } (fun t => t.board.out = [] && t.board.own = [f]) = true
    ∧ ticked { s with board := { s.board with own := [f], fwdAt := some 13 } } (fun t => t.board.out.length = 1 && t.board.own = [] && t.board.ownAt = some 21) = true := by
  decide +kernel

/-- R190's example: both heads are offered in one fc; the one on input 0 is granted, and the other counts as pending. -/
theorem test_order_decision_example : let r := fun (p : Port) (x : BitVec 10) => (⟨OP_FETCH_OP, { reqA 0 1 with port := p, txn := x }, 0, false, false, 0⟩ : Req)
    let s := { holds 0 0 5 with inputs := [r 1 6, r 0 5] }
    ticked s (fun t => t.fld (SY_ODC 0) SY_ODC_COUNT = 1 && t.inputs.map (fun x => x.a.txn) = [6] && t.egress.map (fun o => (o.port, o.due)) = [(0, 24)]
      && (t.bank (bankKey (lineSet 0x20))).ptr = 1) = true := by decide +kernel

/-- R403, R400: a message leaves under credit; with none it waits, and so does one that is not due. -/
theorem wit_egress : let o : Out := running.outRsp 1 0 (msg 1 7 0x1000 0 0 0) RS_COMP 0
    ticked { running with egress := [o] } (fun t => t.egress = [] && t.sent.map Sent.port = [1] && t.txHeld 1 .rsp = 7) = true
    ∧ ticked { running with egress := [o], txCred := [] } (fun t => t.egress = [o] && t.sent = []) = true
    ∧ ticked { running with egress := [{ o with due := 1 }] } (fun t => t.egress.length = 1 && t.sent = []) = true
    ∧ ticked { running with egress := [o], start := { running.start with rails := false } } (fun t => t.sent = []) = true := by decide +kernel

/-! ### Codes -/

/-- R325 to R327. -/
theorem test_code : decodeM 0x123 0 = .clean 0x123 ∧ decodeM 0x123 (1 <<< 71) = .fixed 0x123 71 ∧ decodeM 0x123 (1 <<< 3 ||| 1 <<< 70) = .bad := by decide +kernel

/-- R87: the candidates of the line of zeros; of a line of equal words. -/
theorem wit_encodings : encCandidates ⟨true, true, true, true, true, true⟩ 0 ≠ [] ∧ chooseEnc ⟨false, false, false, false, false, false⟩ 5 = none := by decide +kernel

/-! ### What every step keeps -/

theorem wit_canonical : State.reset.slice.canonical ∧ running.canonical ∧ { running with frames := [(0, frame1)] }.canonical
    ∧ (match step ⟨running, [.idcode]⟩ with
       | .next _ => true
       | _ => false) = true := by decide +kernel

/-! ### Ill-formed terms -/

/-- One term for each check of Instr.wf, which refuses it; beside it one that it takes. -/
theorem wf_requests : (Instr.rdS (msg 0 7 0x1001 0 0 0)).wf = false ∧ (Instr.rdS (msg 0 7 0x1000 0 0 1)).wf = false ∧ (Instr.rdS (msg 0 7 0x1000 0 0 0)).wf = true
    ∧ (Instr.accAddS (msg 0 7 0x1000 0 0 (1 <<< 512))).wf = false ∧ (Instr.swap (msg 0 7 0x1000 0 0 (1 <<< 128))).wf = false
    ∧ (Instr.pinCopy (msg 0 7 0 0 0 (1 <<< 64))).wf = false ∧ (Instr.pinWr (msg 0 7 0 0 0 (1 <<< 1024))).wf = false
    ∧ (Instr.cfgWr (msg 0 7 0x20 0 0 (1 <<< 64)) true).wf = false ∧ (Instr.undefinedReq 0x00 (msg 0 7 0 0 0 0)).wf = false
    ∧ (Instr.undefinedReq 0x07 (msg 0 7 0 0 0 0)).wf = true := by decide +kernel
theorem wf_answers : (Instr.comp (msg 0 7 0 0 0 1)).wf = false ∧ (Instr.memData (msg 0 7 0 0 0 (1 <<< 1024))).wf = false
    ∧ (Instr.unmatched .req 0 (msg 0 7 0 0 0 0)).wf = false ∧ (Instr.unmatched .dat 0x20 (msg 0 7 0 0 0 (1 <<< 128))).wf = false
    ∧ (Instr.misrouted .fwd 5 (msg 0 7 0 0 0 (1 <<< 1024))).wf = false ∧ (Instr.misrouted .fwd 1 (msg 0 7 0 0 0 1)).wf = false
    ∧ (Instr.data (msg 0 7 0 0 0 5)).wf = true := by decide +kernel
theorem wf_bytes : (Instr.registerWrite 7 12 0).wf = false ∧ (Instr.bcastWr 12 0).wf = false ∧ (Instr.telemetryFrame (List.replicate 77 0)).wf = false
    ∧ (Instr.imgData 0 (List.replicate 29 0)).wf = false ∧ (Instr.imageStreamDone [] (List.replicate 4097 0) []).wf = false
    ∧ (Instr.imageStreamDone [] [] (List.replicate 4097 0)).wf = false ∧ (Instr.nvCmdDone .ok (List.replicate 257 0)).wf = false
    ∧ (Instr.nvCmdDone .ok (List.replicate 256 0)).wf = true ∧ Instr.ping.wf = true := by decide +kernel

end Sys2Proof.Tests
end

section
/-! SUPPORT. Register accesses of another size or alignment (spec 00_scope.md R9): what the error log reads and changes, what the class and the
node of an answer depend on, and the outcome of an access that the register arbiter grants as it arrives (R31). -/

namespace Sys2Proof.Machine

/-! ### What an answer takes from the registers (R38, R41, R118, R274) -/

theorem firstBelow_congr {n : Nat} {p q : Nat → Bool} (h : ∀ i, i < n → p i = q i) : firstBelow n p = firstBelow n q := by
  unfold firstBelow
  exact List.find?_congr (fun i hi => h i (List.mem_range.1 hi))

theorem Slice.fld_congr {s t : Slice} {a : Nat} (h : t.reg a = s.reg a) (f : Fld) : t.fld a f = s.fld a f := by
  unfold Slice.fld; rw [h]

theorem Slice.node_congr {s t : Slice} (h : t.reg ID_NODE = s.reg ID_NODE) (p : Port) : t.node p = s.node p := by
  unfold Slice.node; rw [Slice.fld_congr h]

theorem Slice.coreOf_congr {s t : Slice} (h : t.reg CO_NODEMAP = s.reg CO_NODEMAP) (n : Nat) : t.coreOf n = s.coreOf n := by
  unfold Slice.coreOf Slice.coreCount; simp only [Slice.fld_congr h]

/-- The master class of a node depends on the core map and the eight class-map entries alone (R118, R274). -/
theorem Slice.classOf_congr {s t : Slice} (hcore : t.reg CO_NODEMAP = s.reg CO_NODEMAP)
    (hmap : ∀ i, i < 8 → t.reg (BW_CLASSMAP i) = s.reg (BW_CLASSMAP i)) (n : Nat) : t.classOf n = s.classOf n := by
  have hfind : firstBelow 8 (fun i => t.flag (BW_CLASSMAP i) BW_CLASSMAP_VALID
        && decide (t.fld (BW_CLASSMAP i) BW_CLASSMAP_NODE_LO ≤ n) && decide (n ≤ t.fld (BW_CLASSMAP i) BW_CLASSMAP_NODE_HI))
      = firstBelow 8 (fun i => s.flag (BW_CLASSMAP i) BW_CLASSMAP_VALID
        && decide (s.fld (BW_CLASSMAP i) BW_CLASSMAP_NODE_LO ≤ n) && decide (n ≤ s.fld (BW_CLASSMAP i) BW_CLASSMAP_NODE_HI)) :=
    firstBelow_congr (fun i hi => by simp only [Slice.flag, Slice.fld_congr (hmap i hi)])
  unfold Slice.classOf
  rw [hfind, Slice.coreOf_congr hcore]
  split
  · next i hi => rw [Slice.fld_congr (hmap i (firstBelow_some hi).1)]
  · rfl

/-! ### The error log (R336) -/

theorem Slice.reg_raise_of_ne (s : Slice) (a : Nat) (f : Fld) (i : Nat) (h : i ≠ a) : (s.raise a f).reg i = s.reg i :=
  s.reg_setFld_of_ne a f 1 i h

theorem Slice.reg_ite_raise_of_ne (s : Slice) (c : Prop) [Decidable c] (a : Nat) (f : Fld) (i : Nat) (h : i ≠ a) :
    (if c then s.raise a f else s).reg i = s.reg i := by
  split
  · exact s.reg_raise_of_ne a f i h
  · rfl

/-- An entry of the error log leaves every register but the status registers of the log. -/
theorem Slice.reg_logErr_of_not_mem (s : Slice) (t : Nat) (log1 : Word) (pid : Nat) (a : Nat) (h : a ∉ logRegs) :
    (s.logErr t log1 pid).reg a = s.reg a := by
  obtain ⟨hst, hls⟩ : a ≠ EC_STATUS ∧ a ≠ EC_LOG_STATUS := by simpa [logRegs] using h
  unfold Slice.logErr
  split
  · rfl
  · dsimp only
    rw [← s.reg_ite_raise_of_ne (isViolType t = true) EC_STATUS EC_STATUS_VIOL a hst]
    generalize (if isViolType t = true then s.raise EC_STATUS EC_STATUS_VIOL else s) = u
    split
    · rfl
    · rw [Slice.reg_setFld_of_ne _ _ _ _ _ hls, Slice.reg_setFld_of_ne _ _ _ _ _ hls]
      exact u.reg_ite_raise_of_ne _ EC_LOG_STATUS EC_LOG_STATUS_OVF a hls

theorem classmap_not_mem_logRegs {i : Nat} (h : i < 8) : BW_CLASSMAP i ∉ logRegs := by
  simp only [logRegs, BW_CLASSMAP, EC_STATUS, EC_LOG_STATUS, List.mem_cons, List.not_mem_nil, or_false]
  omega

/-- Two slices that an entry of the error log sees alike: the registers, the log and the global count agree. -/
structure SameLog (s u : Slice) : Prop where
  regs : u.regs = s.regs
  errLog : u.errLog = s.errLog
  count : u.count = s.count

namespace SameLog

variable {s u : Slice} (h : SameLog s u)
include h

theorem reg (a : Nat) : u.reg a = s.reg a := by unfold Slice.reg; rw [h.regs]
theorem fld (a : Nat) (f : Fld) : u.fld a f = s.fld a f := Slice.fld_congr (h.reg a) f
theorem flag (a : Nat) (f : Fld) : u.flag a f = s.flag a f := by unfold Slice.flag; rw [h.fld]

theorem setFld (a : Nat) (f : Fld) (v : Nat) : SameLog (s.setFld a f v) (u.setFld a f v) := by
  refine ⟨?_, h.errLog, h.count⟩
  show Tbl.put 0 u.regs a (setF (u.reg a) f v) = Tbl.put 0 s.regs a (setF (s.reg a) f v)
  rw [h.regs, h.reg]

theorem raiseIf (c : Prop) [Decidable c] (a : Nat) (f : Fld) :
    SameLog (if c then s.raise a f else s) (if c then u.raise a f else u) := by
  split
  · obtain ⟨hr, he, hc⟩ := h.setFld a f 1
    exact ⟨hr, he, hc⟩
  · exact h

theorem setLog {l m : Tbl LogEntry} (hm : m = l) : SameLog { s with errLog := l } { u with errLog := m } := ⟨h.regs, hm, h.count⟩

/-- What the log takes, and the registers it sets, are the same in both. -/
theorem logErr (t : Nat) (log1 : Word) (pid : Nat) : SameLog (s.logErr t log1 pid) (u.logErr t log1 pid) := by
  unfold Slice.logErr
  rw [h.flag]
  split
  · exact h
  · dsimp only
    have hv := h.raiseIf (isViolType t = true) EC_STATUS EC_STATUS_VIOL
    generalize (if isViolType t = true then s.raise EC_STATUS EC_STATUS_VIOL else s) = v at hv ⊢
    generalize (if isViolType t = true then u.raise EC_STATUS EC_STATUS_VIOL else u) = w at hv ⊢
    simp only [hv.fld, hv.errLog]
    split
    · exact hv.setLog rfl
    · have ho := hv.raiseIf ((Tbl.at ⟨0, 0, 0⟩ v.errLog (v.fld EC_LOG_STATUS EC_LOG_STATUS_HEAD)).log2.getLsbD 63 = true)
        EC_LOG_STATUS EC_LOG_STATUS_OVF
      generalize (if (Tbl.at ⟨0, 0, 0⟩ v.errLog (v.fld EC_LOG_STATUS EC_LOG_STATUS_HEAD)).log2.getLsbD 63 = true
        then v.raise EC_LOG_STATUS EC_LOG_STATUS_OVF else v) = x at ho ⊢
      generalize (if (Tbl.at ⟨0, 0, 0⟩ v.errLog (v.fld EC_LOG_STATUS EC_LOG_STATUS_HEAD)).log2.getLsbD 63 = true
        then w.raise EC_LOG_STATUS EC_LOG_STATUS_OVF else w) = y at ho ⊢
      refine ((ho.setLog ?_).setFld _ _ _).setFld _ _ _
      rw [ho.errLog, ho.count]

end SameLog

/-! ### What every command ends with -/

theorem Slice.regsBut_trans {s t u : Slice} {l : List Nat} (h : s.regsBut t l) (g : t.regsBut u l) : s.regsBut u l :=
  fun a ha => (g a ha).trans (h a ha)

theorem Slice.regsBut_of_regs {s t : Slice} (h : t.regs = s.regs) (l : List Nat) : s.regsBut t l := by
  intro a _
  unfold Slice.reg; rw [h]

/-- Clearing a field takes its bits out of the word. -/
theorem setF_zero (w : Word) (f : Fld) : setF w f 0 = w &&& ~~~(fldMask f) := by
  unfold setF fldMask
  simp

/-- Clearing OFF_HELD of a half leaves every bit that does not follow the lost lines (R313). -/
theorem setF_heldField_and (h : Nat) (w : Word) :
    setF w (heldField h) 0 &&& ~~~(followBits AG_PSTATE) = w &&& ~~~(followBits AG_PSTATE) := by
  have hin : ~~~(fldMask (heldField h)) &&& ~~~(followBits AG_PSTATE) = ~~~(followBits AG_PSTATE) := by
    unfold heldField
    split <;> decide
  rw [setF_zero, BitVec.and_assoc, hin]

theorem Slice.settleHeld_regsBut (s : Slice) (h : Nat) : s.regsBut (s.settleHeld h) [] := by
  unfold Slice.settleHeld
  split
  · intro a _
    by_cases ha : a = AG_PSTATE
    · subst ha
      rw [Slice.clearF, Slice.reg_setFld_self, setF_heldField_and]
    · rw [Slice.clearF, Slice.reg_setFld_of_ne _ _ _ _ _ ha]
  · exact Slice.regsBut_of_regs rfl []

/-- Settling leaves every register, OFF_HELD of AG_PSTATE aside (R313). -/
theorem Slice.settle_regsBut (s : Slice) : s.regsBut s.settle [] :=
  Slice.regsBut_trans (s.settleHeld_regsBut 0) ((s.settleHeld 0).settleHeld_regsBut 1)

/-- Settling leaves what stands at egress, and the error log. -/
theorem Slice.settle_egress_errLog (s : Slice) : s.settle.egress = s.egress ∧ s.settle.errLog = s.errLog := by
  obtain ⟨u, hu, he⟩ := s.settle_frame
  rw [he]
  show u.egress = s.egress ∧ u.errLog = s.errLog
  rw [hu.eq]
  exact ⟨rfl, rfl⟩

/-! ### The outcome of a register access granted as it arrives (R9, R31, R32) -/

/-- A message that holds its credit acts (R400, R403). -/
theorem actMsg_of_credit {c : Cls} {a : Arr} (f : Slice → Slice) {s : State} (hc : s.slice.clamped = false) (h : 0 < s.slice.rxHeld a.port c) :
    actMsg c a f s = act (fun t => f (t.spendRx a.port c)) s := by
  obtain ⟨hc', _⟩ | ⟨_, h0, _⟩ | ⟨_, _, he⟩ := actMsg_cases c a f s
  · rw [hc] at hc'; cases hc'
  · omega
  · exact he

/-- The slice in which an access granted on arrival is served: its message has spent its credit, and the arbiter has taken the slot. -/
def Slice.regServing (s : Slice) (q : List Instr) (a : Arr) : Slice :=
  ((s.coming q).spendRx a.port .req).regGrant (inputOf 0 a.port)

theorem Slice.regServing_sameLog (s : Slice) (q : List Instr) (a : Arr) : SameLog s (s.regServing q a) := ⟨rfl, rfl, rfl⟩

theorem cfgBad_eq_true {a : Arr} {full : Bool} (h : full = false ∨ a.addr.toNat % 8 ≠ 0) : cfgBad a full = true := by
  simpa [cfgBad] using h

/-- A write of another size or alignment is recorded and answered with COMP; it writes nothing (R9). -/
theorem Slice.cfgServe_wr_bad (s : Slice) {a : Arr} {full : Bool} (h : cfgBad a full = true) (g : Nat) :
    s.cfgServe OP_CFG_WR a full g = (s.noteCfgBad a).sendRsp (outPort 0 a.port) (g + 17) a RS_COMP 0 := by
  rw [Slice.cfgServe, if_neg (by decide), Slice.cfgWrite, if_pos h, Slice.cfgComp]

/-- A read of another size or alignment is recorded and answered with zero (R9). -/
theorem Slice.cfgServe_rd_bad (s : Slice) {a : Arr} {full : Bool} (h : cfgBad a full = true) (g : Nat) :
    s.cfgServe OP_CFG_RD a full g = (s.noteCfgBad a).sendDat (outPort 0 a.port) (g + 21) a DT_CFG_DATA 0 0 := by
  have hz : (0 : Word).setWidth 1152 = (0 : Payload) := by
    simp only [BitVec.ofNat_eq_ofNat, BitVec.setWidth_zero]
  rw [Slice.cfgServe, if_pos rfl, Slice.cfgRead]
  exact (if_pos h).trans (by rw [Slice.cfgData, hz])

/-- The check stage admits an access of PID 0 to the slice's own window (R25, R51, R129). -/
theorem Slice.cfgCheck_of_own {s : Slice} (op : BitVec 6) {a : Arr} {off : Nat} (hm : s.mine a.dst = true) (hp : s.ptState 0 = 2) (h0 : a.pid = 0)
    (hat : s.cfgAt a.addr.toNat = .own off) : s.cfgCheck op a = none := by
  unfold Slice.cfgCheck
  simp [hm, hat, h0, hp]

/-- No access to the slice's own window goes to the ring (R353). -/
theorem Slice.cfgCast_of_own {s : Slice} (op : BitVec 6) {a : Arr} (full : Bool) {off : Nat} (hat : s.cfgAt a.addr.toNat = .own off) :
    s.cfgCast op a full = none := by
  unfold Slice.cfgCast
  simp [hat]

/-- With the counters off, an admitted access that finds the arbiter idle is served in the slot of its fc (R31, R386). -/
theorem Slice.cfgArrive_of_idle {s : Slice} (op : BitVec 6) {a : Arr} (full : Bool) {off : Nat} (hpc : s.flag PC_CTRL PC_CTRL_EN = false)
    (hm : s.mine a.dst = true) (hp : s.ptState 0 = 2) (h0 : a.pid = 0) (hat : s.cfgAt a.addr.toNat = .own off)
    (hport : a.port.val / 2 = 0) (hi : s.regIdle = true) :
    s.cfgArrive op a full = ((s.regGrant (inputOf 0 a.port)).cfgServe op a full s.slotFc).returnRx a.port .req := by
  have hin : (if op = OP_CFG_WR then s.ingress .req op a else s) = s := by
    rw [Slice.ingress, s.pcEv_off _ _ _ hpc, ite_self]
  unfold Slice.cfgArrive
  rw [hin]
  simp [Slice.cfgCheck_of_own op hm hp h0 hat, Slice.cfgCast_of_own op full hat, hport, hi]

theorem exec_cfgRd (a : Arr) (full : Bool) (s : State) : exec (.cfgRd a full) s = actMsg .req a (fun t => t.cfgArrive OP_CFG_RD a full) s := rfl
theorem exec_cfgWr (a : Arr) (full : Bool) (s : State) : exec (.cfgWr a full) s = actMsg .req a (fun t => t.cfgArrive OP_CFG_WR a full) s := rfl

/-- A register access that opens is served, its credit goes back, and the slice settles. -/
theorem actMsg_cfgArrive_of_regOpens {s : Slice} {q : List Instr} {a : Arr} {off : Nat} (h : s.regOpens q a off)
    (hpc : s.flag PC_CTRL PC_CTRL_EN = false) (op : BitVec 6) (full : Bool) :
    actMsg .req a (fun t => t.cfgArrive op a full) ⟨s, q⟩
      = .next ⟨(((s.regServing q a).cfgServe op a full s.slotFc).returnRx a.port .req).settle, q⟩ := by
  obtain ⟨⟨⟨hcl, hrx⟩, hm, hp, h0, hat⟩, hport, hi⟩ := h
  have harr : ((s.coming q).spendRx a.port .req).cfgArrive op a full
      = ((s.regServing q a).cfgServe op a full s.slotFc).returnRx a.port .req :=
    Slice.cfgArrive_of_idle op full hpc hm hp h0 hat hport hi
  rw [actMsg_of_credit _ hcl hrx, act_eq, ← harr]
  rfl

/-- An access of another size or alignment that has been recorded and answered. The log's registers give neither the class nor the node of an answer,
so its message is the one that the slice would have formed before; and the registers and the log show no more of the access than its record (R9). -/
theorem Slice.noteCfgBad_answer {s u : Slice} (hl : SameLog s u) (hf : u.fresh = s.fresh) (he : u.egress = s.egress) {a : Arr} (h0 : a.pid = 0)
    (p : Port) (due : Nat) (payload : Bool) (m : Msg) :
    let t := (((u.noteCfgBad a).emit p due ((u.noteCfgBad a).classOf a.src.toNat) payload m).returnRx a.port .req).settle
    let n := s.logErr 0x08 (log1Addr a.addr.toNat a.src.toNat) 0
    t.egress = s.egress ++ [⟨p, due, s.fresh, s.classOf a.src.toNat, payload, { m with src := s.node p }, none⟩]
      ∧ n.regsBut t [] ∧ t.errLog = n.errLog := by
  have hn : SameLog (s.logErr 0x08 (log1Addr a.addr.toNat a.src.toNat) 0) (u.noteCfgBad a) := by
    have := hl.logErr 0x08 (log1Addr a.addr.toNat a.src.toNat) 0
    rwa [Slice.noteCfgBad, h0]
  have hreg : ∀ i, i ∉ logRegs → (u.noteCfgBad a).reg i = s.reg i := fun i hi =>
    (hn.reg i).trans (s.reg_logErr_of_not_mem _ _ _ i hi)
  have hclass : (u.noteCfgBad a).classOf a.src.toNat = s.classOf a.src.toNat :=
    Slice.classOf_congr (hreg _ (by decide)) (fun i hi => hreg _ (classmap_not_mem_logRegs hi)) _
  have hnode : (u.noteCfgBad a).node p = s.node p := Slice.node_congr (hreg _ (by decide)) p
  have hsent : (u.noteCfgBad a).egress = s.egress ∧ (u.noteCfgBad a).fresh = s.fresh := by
    rw [Slice.noteCfgBad, (u.logErr_logStep _ _ _).eq]
    exact ⟨he, hf⟩
  obtain ⟨hegress, hfresh⟩ := hsent
  intro t n
  obtain ⟨hte, htl⟩ := Slice.settle_egress_errLog
    (((u.noteCfgBad a).emit p due ((u.noteCfgBad a).classOf a.src.toNat) payload m).returnRx a.port .req)
  refine ⟨hte.trans ?_, Slice.regsBut_trans (Slice.regsBut_of_regs hn.regs []) (Slice.settle_regsBut _), htl.trans hn.errLog⟩
  rw [Slice.returnRx_egress, Slice.emit_egress, hegress, hfresh, hclass, hnode]

/-- Settles O7: the access opens, so it is served in the slot of its fc; being of another size or alignment it is only recorded and answered. -/
theorem badSizeAnswered : Obligations.BadSizeAnswered := by
  unfold Obligations.BadSizeAnswered
  intro s q a full off hopen hbad hpc
  have ⟨⟨_, _, _, h0, _⟩, _⟩ := hopen
  have hb := cfgBad_eq_true hbad
  have hl := s.regServing_sameLog q a
  constructor
  · refine ⟨_, (exec_cfgWr a full ⟨s, q⟩).trans (actMsg_cfgArrive_of_regOpens hopen hpc OP_CFG_WR full), ?_⟩
    rw [Slice.cfgServe_wr_bad _ hb]
    exact Slice.noteCfgBad_answer hl rfl rfl h0 _ _ _ _
  · refine ⟨_, (exec_cfgRd a full ⟨s, q⟩).trans (actMsg_cfgArrive_of_regOpens hopen hpc OP_CFG_RD full), ?_⟩
    rw [Slice.cfgServe_rd_bad _ hb]
    exact Slice.noteCfgBad_answer hl rfl rfl h0 _ _ _ _

end Sys2Proof.Machine
end

section
/-! SUPPORT. The zero phase of a release over a row that holds a lost line (spec 02_partitions.md R60, 14_error_protection.md R334, R335): what
zeroing a frame does to the retire table. -/

namespace Sys2Proof.Machine

theorem Slice.reg_bump_of_ne (s : Slice) {a : Nat} (f : Fld) (n : Nat) {i : Nat} (h : i ≠ a) : (s.bump a f n).reg i = s.reg i :=
  s.reg_setReg_of_ne a _ i h

/-- What the end of a lost line changes: the frame leaves the list of lost frames, and LOST of its entry of the retire table, where that is set,
clears (R335). -/
theorem Slice.unlost_cases (s : Slice) (key : Nat) : ∃ l,
    (s.unlost key = { s with lostKeys := l } ∧ ∀ i, s.rtFind key = some i → s.flag (EC_RT i) EC_RT_LOST = false)
      ∨ ∃ i, s.rtFind key = some i ∧ s.unlost key = ({ s with lostKeys := l } : Slice).clearF (EC_RT i) EC_RT_LOST := by
  have hu : ∃ l, (if s.lostKeys.contains key = true then { s with lostKeys := s.lostKeys.filter (fun k => k != key) } else s)
      = { s with lostKeys := l } := by
    split <;> exact ⟨_, rfl⟩
  obtain ⟨l, hl⟩ := hu
  refine ⟨l, ?_⟩
  have hfind : ({ s with lostKeys := l } : Slice).rtFind key = s.rtFind key := rfl
  have hflag : ∀ i, ({ s with lostKeys := l } : Slice).flag (EC_RT i) EC_RT_LOST = s.flag (EC_RT i) EC_RT_LOST := fun _ => rfl
  unfold Slice.unlost
  dsimp only
  rw [hl, hfind]
  cases hi : s.rtFind key with
  | none => exact .inl ⟨rfl, fun i h => by cases h⟩
  | some i =>
    dsimp only
    rw [hflag]
    by_cases hlost : s.flag (EC_RT i) EC_RT_LOST = true
    · exact .inr ⟨i, rfl, if_pos hlost⟩
    · refine .inl ⟨if_neg hlost, fun j hj => ?_⟩
      cases hj
      simpa using hlost

/-- A frame that holds no lost line any more is not marked LOST in the retire table (R335). -/
theorem Slice.flag_lost_unlost {s : Slice} {key i : Nat} (h : s.rtFind key = some i) : (s.unlost key).flag (EC_RT i) EC_RT_LOST = false := by
  obtain ⟨l, ⟨he, hclear⟩ | ⟨j, hj, he⟩⟩ := s.unlost_cases key
  · rw [he]
    exact hclear i h
  · obtain rfl : j = i := Option.some.inj (hj.symm.trans h)
    rw [he]
    exact Slice.flag_clearF_self _ _ _ (by decide)

/-- Of the registers, a lost line that goes changes the retire table alone. -/
theorem Slice.reg_unlost_of_ne (s : Slice) (key : Nat) {a : Nat} (ha : ∀ i, i < 64 → a ≠ EC_RT i) : (s.unlost key).reg a = s.reg a := by
  obtain ⟨l, ⟨he, _⟩ | ⟨i, hi, he⟩⟩ := s.unlost_cases key
  · rw [he]
    rfl
  · rw [he]
    exact Slice.reg_setFld_of_ne _ _ _ _ _ (ha i (firstBelow_some hi).1)

theorem Slice.flips_unlost (s : Slice) (key : Nat) : (s.unlost key).flips = s.flips := by
  obtain ⟨l, ⟨he, _⟩ | ⟨i, _, he⟩⟩ := s.unlost_cases key <;> rw [he]
  rfl

/-- With no error in the arrays and none armed, zeroing a frame changes no register but what its lost line set (R339). -/
theorem Slice.reg_zeroFrame {s : Slice} (h : s.calm) (key a : Nat) : (s.zeroFrame key).reg a = (s.unlost key).reg a := by
  obtain ⟨_, hflips, harm⟩ := h
  have hctrl : (s.unlost key).reg EC_FLIP_CTRL = s.reg EC_FLIP_CTRL :=
    s.reg_unlost_of_ne key (fun i _ => by simp only [EC_FLIP_CTRL, EC_RT]; omega)
  have harm' : (s.unlost key).flag EC_FLIP_CTRL EC_FLIP_CTRL_ARMED = false := by
    rw [Slice.flag, Slice.fld_congr hctrl]
    exact harm
  rw [Slice.zeroFrame, Slice.putFrame_eq _ ((s.flips_unlost key).trans hflips) harm']
  simp only [Slice.reg]

/-- R334, R335: zeroing a frame discards its lost line, so its entry of the retire table is marked LOST no more. -/
theorem Slice.flag_lost_zeroFrame {s : Slice} (h : s.calm) {key i : Nat} (hi : s.rtFind key = some i) :
    (s.zeroFrame key).flag (EC_RT i) EC_RT_LOST = false := by
  rw [Slice.flag, Slice.fld_congr (Slice.reg_zeroFrame h key _)]
  exact Slice.flag_lost_unlost hi

/-- A visit of the zero walk zeroes its row, and moves the walk on (R60). -/
theorem Slice.walkVisit_zero (s : Slice) {w : Walk} {p : Pid} (h : w.kind = .zero p) (bk g : Nat) :
    s.walkVisit w bk g = (s.zeroRow p.toNat (rowSet bk (w.at bk / 16))).modWalk w.id
      (fun x => { x with pos := Tbl.put 0 x.pos bk (x.at bk + 16) }) := by
  unfold Slice.walkVisit
  simp only [h]

@[simp] theorem Slice.modWalk_reg (s : Slice) (id : Nat) (f : Walk → Walk) (a : Nat) : (s.modWalk id f).reg a = s.reg a := rfl

/-- A register outside the list of a frame condition holds what it held, whole but for AG_PSTATE. -/
theorem Slice.regsBut_reg {s t : Slice} {l : List Nat} (h : s.regsBut t l) {a : Nat} (hl : a ∉ l) (ha : a ≠ AG_PSTATE) : t.reg a = s.reg a := by
  have hf : followBits a = 0 := if_neg ha
  simpa only [hf, BitVec.ofNat_eq_ofNat, BitVec.not_zero, BitVec.and_allOnes] using h a hl

/-- PID 1 in phase ZERO of its release: its walk has still to visit row 0 of every bank, where frame 0 holds a line of PID 1, dirty and lost, that
entry 0 of the retire table names (R332). -/
def lostLineSweep : Slice :=
  { Slice.reset with
    regs := [(PT_STATUS 1, setF (setF (0 : Word) PT_STATUS_STATE 3) PT_STATUS_PHASE 2), (EC_RT 0, setF (rtWord 0 0) EC_RT_LOST 1)],
    frames := [(0, ⟨rawW0 1 0 15 15 false, 0, 5⟩)], walks := [⟨0, .zero 1, [], 0⟩], fresh := 1 }

theorem calm_lostLineSweep : lostLineSweep.calm := by decide +kernel

/-- The zero walk finds one frame to write in the row: the one with the lost line. -/
theorem zeroRow_lostLineSweep :
    lostLineSweep.zeroRow 1 0 = (lostLineSweep.zeroFrame 0).bump (PT_SWEEP_REC 1) PT_SWEEP_REC_FRAMES 1 := by
  have hways : lostLineSweep.zeroWays 1 0 = [0] := by decide +kernel
  have hkey : lostLineSweep.fkey 0 0 = 0 := by decide +kernel
  rw [Slice.zeroRow, hways, List.foldl_cons, List.foldl_nil, hkey]

/-- The visit of the row clears LOST of entry 0 of the retire table. -/
theorem lost_cleared_walkVisit_lostLineSweep (g : Nat) :
    (lostLineSweep.walkVisit ⟨0, .zero 1, [], 0⟩ 0 g).flag (EC_RT 0) EC_RT_LOST = false := by
  have hfind : lostLineSweep.rtFind 0 = some 0 := by decide +kernel
  have hreg : (lostLineSweep.walkVisit ⟨0, .zero 1, [], 0⟩ 0 g).reg (EC_RT 0) = (lostLineSweep.zeroFrame 0).reg (EC_RT 0) := by
    rw [Slice.walkVisit_zero _ rfl, Slice.modWalk_reg]
    have hrow : rowSet 0 (Walk.at ⟨0, .zero 1, [], 0⟩ 0 / 16) = 0 := by decide
    have hpid : (1 : Pid).toNat = 1 := by decide
    rw [hrow, hpid, zeroRow_lostLineSweep]
    exact Slice.reg_bump_of_ne _ _ _ (by decide)
  rw [Slice.flag, Slice.fld_congr hreg]
  exact Slice.flag_lost_zeroFrame calm_lostLineSweep hfind

/-- Refutes O13: the sweep zeroes a lost line too (R334), and LOST of its entry of the retire table clears with it (R335), where the second clause
lets the visit of a row change no register but PT_SWEEP_REC. -/
theorem not_sweep : ¬ Obligations.Sweep := by
  unfold Obligations.Sweep
  rintro ⟨_, hvisit, _⟩
  obtain ⟨_, _, _, hregs, _⟩ := hvisit lostLineSweep 1 ⟨0, .zero 1, [], 0⟩ 0 0 calm_lostLineSweep rfl (by decide) (by decide)
  have hbefore : lostLineSweep.flag (EC_RT 0) EC_RT_LOST = true := by decide +kernel
  have hafter := lost_cleared_walkVisit_lostLineSweep 0
  have hsame := Slice.regsBut_reg hregs (a := EC_RT 0) (by decide) (by decide)
  rw [Slice.flag, Slice.fld_congr hsame, ← Slice.flag, hbefore] at hafter
  cases hafter

end Sys2Proof.Machine
end

section
/-! SUPPORT. Answers and forwards that the home does not expect (spec 05_coherence_home.md R133, 01_slice_anatomy.md R39): what a coherence
violation records, and that the message which causes it changes nothing else. -/

namespace Sys2Proof.Machine

/-! ### What a violation writes (R133, R336) -/

/-- A field takes the low bits of a value that is too large for it (R5). -/
theorem setF_mod {n : Nat} (w : BitVec n) (f : Fld) (v : Nat) : setF w f (v % 2 ^ f.len) = setF w f v := by
  have hv : BitVec.ofNat f.len (v % 2 ^ f.len) = BitVec.ofNat f.len v := BitVec.eq_of_toNat_eq (by simp)
  rw [setF, hv, setF]

/-- What the log takes of an event depends on its enable, its position and count, its entries and the global count alone (R336). -/
theorem Slice.errLog_logErr_congr {s u : Slice} (hctrl : u.reg EC_CTRL = s.reg EC_CTRL) (hstatus : u.reg EC_LOG_STATUS = s.reg EC_LOG_STATUS)
    (hlog : u.errLog = s.errLog) (hcount : u.count = s.count) (t : Nat) (log1 : Word) (pid : Nat) :
    (u.logErr t log1 pid).errLog = (s.logErr t log1 pid).errLog := by
  have hflag : u.flag EC_CTRL EC_CTRL_LOG_VIOL = s.flag EC_CTRL EC_CTRL_LOG_VIOL := by rw [Slice.flag, Slice.fld_congr hctrl, ← Slice.flag]
  have hviol : ∀ (v : Slice) (f : Fld), (if isViolType t = true then v.raise EC_STATUS EC_STATUS_VIOL else v).fld EC_LOG_STATUS f
      = v.fld EC_LOG_STATUS f :=
    fun v f => Slice.fld_congr (v.reg_ite_raise_of_ne _ EC_STATUS EC_STATUS_VIOL EC_LOG_STATUS (by decide)) f
  unfold Slice.logErr
  rw [hflag]
  split
  · exact hlog
  · simp only [hviol, Slice.fld_congr hstatus, apply_ite Slice.errLog, apply_ite Slice.count, Slice.raise_errLog, Slice.raise_count,
      Slice.setFld_errLog, ite_self, hlog, hcount]

/-- A violation is recorded in the log as type 0x0D. -/
theorem Slice.errLog_noteViol (s : Slice) (code src addr pid : Nat) :
    (s.noteViol code src addr pid).errLog = (s.logErr 0x0D (log1Addr addr src) pid).errLog := by
  have hbump : ((s.bump CO_VIOL_CNT CO_VIOL_CNT_COUNT 1).logErr 0x0D (log1Addr addr src) pid).errLog
      = (s.logErr 0x0D (log1Addr addr src) pid).errLog :=
    Slice.errLog_logErr_congr (s.reg_bump_of_ne _ _ (by decide)) (s.reg_bump_of_ne _ _ (by decide)) rfl rfl _ _ _
  rw [← hbump]
  unfold Slice.noteViol
  dsimp only
  split <;> rfl

/-- Of the registers, a violation changes the counter, the capture and those of the log alone. -/
theorem Slice.reg_noteViol_of_not_mem (s : Slice) (code src addr pid : Nat) {i : Nat} (h : i ∉ [CO_VIOL_CNT, CO_VIOL] ++ logRegs) :
    (s.noteViol code src addr pid).reg i = s.reg i := by
  obtain ⟨hown, hlog⟩ := not_or.1 (mt List.mem_append.2 h)
  obtain ⟨hcnt, hcap⟩ : i ≠ CO_VIOL_CNT ∧ i ≠ CO_VIOL := by simpa using hown
  have hbase := (Slice.reg_logErr_of_not_mem (s.bump CO_VIOL_CNT CO_VIOL_CNT_COUNT 1) 0x0D (log1Addr addr src) pid i hlog).trans
    (s.reg_bump_of_ne _ _ hcnt)
  unfold Slice.noteViol
  dsimp only
  split
  · exact hbase
  · exact (Slice.reg_setReg_of_ne _ _ _ _ hcap).trans hbase

/-- A violation counts one, up to the greatest value of the counter. -/
theorem Slice.fld_count_noteViol (s : Slice) (code src addr pid : Nat) :
    (s.noteViol code src addr pid).fld CO_VIOL_CNT CO_VIOL_CNT_COUNT
      = min (2 ^ CO_VIOL_CNT_COUNT.len - 1) (s.fld CO_VIOL_CNT CO_VIOL_CNT_COUNT + 1) := by
  have hcount : ((s.bump CO_VIOL_CNT CO_VIOL_CNT_COUNT 1).logErr 0x0D (log1Addr addr src) pid).fld CO_VIOL_CNT CO_VIOL_CNT_COUNT
      = min (2 ^ CO_VIOL_CNT_COUNT.len - 1) (s.fld CO_VIOL_CNT CO_VIOL_CNT_COUNT + 1) := by
    rw [Slice.fld_congr (Slice.reg_logErr_of_not_mem _ _ _ _ _ (by decide))]
    exact (Slice.fld_setReg_self s _ _ _).trans (getF_setF_of_lt _ _ _ (by decide) (Nat.lt_of_le_of_lt (satAdd_le _ _ _) (by decide)))
  rw [← hcount]
  unfold Slice.noteViol
  dsimp only
  split
  · rfl
  · exact Slice.fld_setReg_of_ne _ _ _ _ _ (by decide)

/-- The word that captures a violation (R133). -/
def violWord (code src addr : Nat) : Word :=
  setF (setF (setF (setF (0 : Word) CO_VIOL_VALID 1) CO_VIOL_CODE code) CO_VIOL_SRC src) CO_VIOL_ADDR addr

/-- The fields of the captured word read back what was captured. -/
theorem getF_violWord {code src addr : Nat} (hcode : code < 2 ^ 3) (hsrc : src < 2 ^ 11) :
    getF (violWord code src addr) CO_VIOL_VALID = 1 ∧ getF (violWord code src addr) CO_VIOL_CODE = code
      ∧ getF (violWord code src addr) CO_VIOL_SRC = src ∧ getF (violWord code src addr) CO_VIOL_ADDR = addr % 2 ^ 48 := by
  refine ⟨?_, ?_, ?_, getF_setF_self _ _ _ (by decide)⟩
  · rw [violWord, getF_setF_of_disjoint _ _ _ _ (by decide), getF_setF_of_disjoint _ _ _ _ (by decide), getF_setF_of_disjoint _ _ _ _ (by decide)]
    exact getF_setF_of_lt _ _ _ (by decide) (by decide)
  · rw [violWord, getF_setF_of_disjoint _ _ _ _ (by decide), getF_setF_of_disjoint _ _ _ _ (by decide)]
    exact getF_setF_of_lt _ _ _ (by decide) hcode
  · rw [violWord, getF_setF_of_disjoint _ _ _ _ (by decide)]
    exact getF_setF_of_lt _ _ _ (by decide) hsrc

/-- With no violation captured since the last clear, this one is. -/
theorem Slice.reg_viol_noteViol {s : Slice} (h : s.flag CO_VIOL CO_VIOL_VALID = false) (code src addr pid : Nat) :
    (s.noteViol code src addr pid).reg CO_VIOL = violWord code src addr := by
  have hflag : ((s.bump CO_VIOL_CNT CO_VIOL_CNT_COUNT 1).logErr 0x0D (log1Addr addr src) pid).flag CO_VIOL CO_VIOL_VALID = false := by
    rw [Slice.flag, Slice.fld_congr (Slice.reg_logErr_of_not_mem _ _ _ _ _ (by decide)), Slice.fld_congr (s.reg_bump_of_ne _ _ (by decide))]
    exact h
  unfold Slice.noteViol
  dsimp only
  rw [hflag]
  exact Slice.reg_setReg_self _ _ _

/-- Both the log and the capture hold the low 48 bits of a violation's address. -/
theorem Slice.noteViol_addr_mod (s : Slice) (code src addr pid : Nat) :
    s.noteViol code src (addr % 2 ^ 48) pid = s.noteViol code src addr pid := by
  have hlog : log1Addr (addr % 2 ^ 48) src = log1Addr addr src := congrArg (fun w => setF w ⟨48, 11⟩ src) (setF_mod 0 ⟨0, 48⟩ addr)
  have hcap : ∀ w : Word, setF w CO_VIOL_ADDR (addr % 2 ^ 48) = setF w CO_VIOL_ADDR addr := fun w => setF_mod w CO_VIOL_ADDR addr
  simp only [Slice.noteViol, hlog, hcap]

/-! ### What a sunk message leaves unchanged (R20, R126) -/

/-- Nothing but registers, pins, the error log, the credits, the port of answers and the arrivals of this fc has changed. -/
def Slice.logFrame (s t : Slice) : Prop :=
  t = { s with regs := t.regs, pins := t.pins, now := t.now, errLog := t.errLog, rxCred := t.rxCred, ansPort := t.ansPort, ahead := t.ahead }

theorem Slice.logFrame_trans {s t u : Slice} (h : s.logFrame t) (g : t.logFrame u) : s.logFrame u := by
  unfold Slice.logFrame at *
  rw [h] at g
  exact g

theorem LogStep.logFrame {s t : Slice} (h : LogStep s t) : s.logFrame t := by
  obtain ⟨heq, _⟩ := h
  rw [heq]
  rfl

theorem LogStep.rxCred {s t : Slice} (h : LogStep s t) : t.rxCred = s.rxCred := by rw [h.eq]

theorem Slice.settle_logFrame (s : Slice) : s.logFrame s.settle := by
  obtain ⟨u, hu, he⟩ := s.settle_frame
  refine Slice.logFrame_trans hu.log.logFrame ?_
  rw [he]
  rfl

theorem Slice.settle_rxCred (s : Slice) : s.settle.rxCred = s.rxCred := by
  obtain ⟨u, hu, he⟩ := s.settle_frame
  rw [he]
  exact hu.log.rxCred

theorem Slice.settle_ansPort (s : Slice) : s.settle.ansPort = s.ansPort := by
  obtain ⟨u, hu, he⟩ := s.settle_frame
  rw [he]
  show u.ansPort = s.ansPort
  rw [hu.eq]

/-- The slice in which an answer or a forward acts: its credit has been spent and has gone back. -/
def Slice.sinking (s : Slice) (q : List Instr) (a : Arr) (c : Cls) : Slice := ((s.coming q).spendRx a.port c).returnRx a.port c

/-- An answer or a forward whose sender holds its credit is sunk (R400, R403). -/
theorem actSunk_of_takes {s : Slice} {a : Arr} {c : Cls} (h : s.takes a.port c) (f : Slice → Slice) (q : List Instr) :
    actSunk c a f ⟨s, q⟩ = .next ⟨(f (s.sinking q a c)).settle, q⟩ := by
  obtain ⟨hclamp, hcred⟩ := h
  rw [actSunk, actMsg_of_credit _ hclamp hcred, act_eq]
  rfl

/-- The slice with the port on which what a meaning forms may leave (R22). -/
def Slice.onPort (s : Slice) (p : Option Port) : Slice := { s with ansPort := p }

theorem Slice.onPort_self (s : Slice) : s.onPort s.ansPort = s := rfl

theorem Slice.onPort_logFrame (s : Slice) (p : Option Port) : s.logFrame (s.onPort p) := rfl

/-- A message has only been recorded: the credits are as they were, and nothing but registers, pins, the error log and the port of answers has
changed. -/
def Slice.onlyRecorded (s t : Slice) : Prop :=
  s.sameCredits t ∧ t = { s with regs := t.regs, pins := t.pins, now := t.now, errLog := t.errLog, rxCred := t.rxCred, ansPort := t.ansPort, ahead := [] }

theorem Slice.eq_of_logFrame {s t : Slice} (h : s.logFrame t) (ha : t.ahead = []) :
    t = { s with regs := t.regs, pins := t.pins, now := t.now, errLog := t.errLog, rxCred := t.rxCred, ansPort := t.ansPort, ahead := [] } := by
  rw [Slice.logFrame, ha] at h
  exact h

/-- A message has been taken in and has done nothing yet: the log and the registers are the same, and the credit has gone back. -/
structure Slice.Sunk (s u : Slice) : Prop where
  log : SameLog s u
  credits : s.sameCredits u
  frame : s.logFrame u

theorem Slice.sunk_sinking {s : Slice} (q : List Instr) {a : Arr} {c : Cls} (h : s.takes a.port c) : s.Sunk (s.sinking q a c) :=
  ⟨⟨rfl, rfl, rfl⟩, Slice.rxHeld_spend_return (s.coming q) a.port c h.2, rfl⟩

theorem Slice.Sunk.onPort {s u : Slice} (h : s.Sunk u) (p : Option Port) : s.Sunk (u.onPort p) :=
  ⟨⟨h.log.regs, h.log.errLog, h.log.count⟩, h.credits, Slice.logFrame_trans h.frame (u.onPort_logFrame p)⟩

/-- What is recorded of a sunk message leaves everything else as it was. -/
theorem Slice.Sunk.onlyRecorded {s u v : Slice} (h : s.Sunk u) (hv : LogStep u v) (p : Option Port) : s.onlyRecorded (v.onPort p).settle := by
  constructor
  · intro j d
    have hcred : (v.onPort p).settle.rxCred = u.rxCred := (Slice.settle_rxCred _).trans hv.rxCred
    rw [← h.credits j d, Slice.rxHeld, hcred, ← Slice.rxHeld]
  · have hstep := Slice.logFrame_trans (Slice.logFrame_trans h.frame hv.logFrame) (v.onPort_logFrame p)
    exact Slice.eq_of_logFrame (Slice.logFrame_trans hstep (Slice.settle_logFrame _)) (Slice.settle_ahead _)

/-! ### The violation of a sunk message (R133) -/

/-- A violation by a message is logged, counted and captured, and changes nothing else (R133). -/
def Slice.violated (s : Slice) (a : Arr) (code addr : Nat) (t : Slice) : Prop :=
  t.errLog = (s.logErr 0x0D (log1Addr addr a.src.toNat) a.pid.toNat).errLog
    ∧ t.fld CO_VIOL_CNT CO_VIOL_CNT_COUNT = min (2 ^ CO_VIOL_CNT_COUNT.len - 1) (s.fld CO_VIOL_CNT CO_VIOL_CNT_COUNT + 1)
    ∧ (s.flag CO_VIOL CO_VIOL_VALID = false → t.fld CO_VIOL CO_VIOL_VALID = 1 ∧ t.fld CO_VIOL CO_VIOL_CODE = code
        ∧ t.fld CO_VIOL CO_VIOL_SRC = a.src.toNat ∧ t.fld CO_VIOL CO_VIOL_ADDR = addr)
    ∧ s.regsBut t ([CO_VIOL_CNT, CO_VIOL] ++ logRegs) ∧ s.onlyRecorded t

/-- The violation that a sunk message notes. -/
theorem Slice.Sunk.violated {s u : Slice} (h : s.Sunk u) (a : Arr) {code addr : Nat} (hcode : code < 2 ^ 3) (haddr : addr < 2 ^ 48) (p : Option Port) :
    s.violated a code addr ((u.noteViol code a.src.toNat addr a.pid.toNat).onPort p).settle := by
  have hlog := h.log
  have hreg : ∀ i, i ≠ AG_PSTATE → ((u.noteViol code a.src.toNat addr a.pid.toNat).onPort p).settle.reg i
      = (u.noteViol code a.src.toNat addr a.pid.toNat).reg i := fun i hi => Slice.settle_reg _ i hi
  refine ⟨?_, ?_, fun hfree => ?_, fun i hi => ?_, h.onlyRecorded (u.noteViol_logStep _ _ _ _) p⟩
  · calc ((u.noteViol code a.src.toNat addr a.pid.toNat).onPort p).settle.errLog
        = (u.noteViol code a.src.toNat addr a.pid.toNat).errLog := (Slice.settle_egress_errLog _).2
      _ = (u.logErr 0x0D (log1Addr addr a.src.toNat) a.pid.toNat).errLog := u.errLog_noteViol _ _ _ _
      _ = (s.logErr 0x0D (log1Addr addr a.src.toNat) a.pid.toNat).errLog := (hlog.logErr _ _ _).errLog
  · rw [Slice.fld_congr (hreg CO_VIOL_CNT (by decide)), u.fld_count_noteViol, hlog.fld]
  · rw [← hlog.flag] at hfree
    obtain ⟨hvalid, hkind, hsrc, hline⟩ := getF_violWord (addr := addr) hcode a.src.isLt
    have hcap := (hreg CO_VIOL (by decide)).trans (Slice.reg_viol_noteViol hfree _ _ _ _)
    simp only [Slice.fld, hcap]
    exact ⟨hvalid, hkind, hsrc, hline.trans (Nat.mod_eq_of_lt haddr)⟩
  · rw [Slice.settle_regsBut _ i List.not_mem_nil, ← hlog.reg]
    exact congrArg (· &&& ~~~(followBits i)) (u.reg_noteViol_of_not_mem _ _ _ _ hi)

/-- A FWD to one of the slice's nodes is a violation (R133). -/
theorem Slice.fwdIn_of_mine {s : Slice} (op : BitVec 6) {a : Arr} (hpc : s.flag PC_CTRL PC_CTRL_EN = false) (hm : s.mine a.dst = true) :
    s.fwdIn op a = s.noteViol 0 a.src.toNat a.addr.toNat a.pid.toNat := by
  unfold Slice.fwdIn
  rw [Slice.ingress, s.pcEv_off _ _ _ hpc, ite_self]
  exact if_pos hm

/-- A FWD to one of the slice's nodes is discarded: it is noted with its address, and nothing else changes (R133). -/
theorem exec_fwd_violated {s : Slice} {q : List Instr} {a : Arr} (op : BitVec 6) (h : s.takes a.port .fwd) (hpc : s.flag PC_CTRL PC_CTRL_EN = false)
    (hm : s.mine a.dst = true) : ∃ t, exec (.unmatched .fwd op a) ⟨s, q⟩ = .next ⟨t, q⟩ ∧ s.violated a 0 a.addr.toNat t := by
  have hfwd : (s.sinking q a .fwd).fwdIn op a = (s.sinking q a .fwd).noteViol 0 a.src.toNat a.addr.toNat a.pid.toNat :=
    Slice.fwdIn_of_mine op hpc hm
  refine ⟨_, actSunk_of_takes h (fun t => t.fwdIn op a) q, ?_⟩
  rw [hfwd, ← Slice.onPort_self (Slice.noteViol _ _ _ _ _)]
  exact (Slice.sunk_sinking q h).violated a (by decide) a.addr.isLt _

/-! ### Where an answer goes (R25, R131, R137) -/

/-- The slice in which the meaning of an answer acts: the answer has been sunk, and what the meaning sends leaves by its port. -/
def Slice.answering (s : Slice) (q : List Instr) (a : Arr) (c : Cls) : Slice := (s.sinking q a c).onPort (some a.port)

theorem Slice.sunk_answering {s : Slice} (q : List Instr) {a : Arr} {c : Cls} (h : s.takes a.port c) : s.Sunk (s.answering q a c) :=
  (Slice.sunk_sinking q h).onPort (some a.port)

/-- An answer to one of the slice's nodes goes to its meaning (R25). -/
theorem Slice.sunk_of_mine {s : Slice} (op : BitVec 6) (data : Bool) {a : Arr} (f : Slice → Slice) (hpc : s.flag PC_CTRL PC_CTRL_EN = false)
    (hm : s.mine a.dst = true) : s.sunk op data a f = (f (s.onPort (some a.port))).onPort none := by
  unfold Slice.sunk
  rw [Slice.ingress, s.pcEv_off _ _ _ hpc, ite_self]
  exact if_pos hm

/-- An answer whose sender holds its credit acts (R25, R400, R403). -/
theorem actSunk_answer {s : Slice} {a : Arr} {c : Cls} (h : s.takes a.port c) (hpc : s.flag PC_CTRL PC_CTRL_EN = false) (hm : s.mine a.dst = true)
    (op : BitVec 6) (data : Bool) (f : Slice → Slice) (q : List Instr) :
    actSunk c a (fun t => t.sunk op data a f) ⟨s, q⟩ = .next ⟨((f (s.answering q a c)).onPort none).settle, q⟩ := by
  have hsunk : (s.sinking q a c).sunk op data a f = (f (s.answering q a c)).onPort none := Slice.sunk_of_mine op data f hpc hm
  rw [actSunk_of_takes h, hsunk]

/-- A TXN of an entry that is not free names it (R132). -/
theorem Slice.hteByTxn_of_busy {s : Slice} {t : Nat} (ht : t < 256) (h : (s.hte (t / 16) (t % 16)).st ≠ .free) :
    s.hteByTxn t = some (t / 16, t % 16) := by
  rw [Slice.hteByTxn, if_neg (by omega), if_neg h]

/-! ### The answers that an HTE does not expect in its state (R133, R137) -/

/-- An entry with no invalidation or recall outstanding waits for neither INV_ACK nor SNP_DATA of one. -/
theorem awaitsInv_eq_false {e : Hte} (h : (e.st ≠ .wInv ∧ e.st ≠ .wRecall) ∨ e.pend = 0) :
    ((decide (e.st = .wInv) || decide (e.st = .wRecall)) && e.pend != 0) = false := by
  obtain ⟨hInv, hRecall⟩ | hpend := h
  · simp [hInv, hRecall]
  · simp [hpend]

/-- An entry with no forward outstanding waits for no answer of a forwardee. -/
theorem awaitsFwd_eq_false {e : Hte} (h : e.st ≠ .wFwd ∨ e.gotAns = true) : (decide (e.st = .wFwd) && !e.gotAns) = false := by
  obtain hFwd | hgot := h
  · simp [hFwd]
  · simp [hgot]

section Unexpected

variable {s : Slice} {a : Arr} {bk i : Nat} {e : Hte} (h : s.hteByTxn a.txn.toNat = some (bk, i)) (he : s.hte bk i = e)
include h he

theorem Slice.invAck_unexpected (hinv : (e.st ≠ .wInv ∧ e.st ≠ .wRecall) ∨ e.pend = 0) :
    s.invAck a = s.unexpected bk i a := by
  simp [Slice.invAck, h, he, awaitsInv_eq_false hinv]

theorem Slice.fwdAck_unexpected (hfwd : e.st ≠ .wFwd ∨ e.gotAns = true) : s.fwdAck a = s.unexpected bk i a := by
  simp [Slice.fwdAck, h, he, awaitsFwd_eq_false hfwd]

theorem Slice.nackGone_unexpected (hfwd : e.st ≠ .wFwd ∨ e.gotAns = true) : s.nackGone a = s.unexpected bk i a := by
  simp [Slice.nackGone, h, he, awaitsFwd_eq_false hfwd]

theorem Slice.pushAck_unexpected (hpush : e.st ≠ .wPush) : s.pushAck a = s.unexpected bk i a := by
  simp only [Slice.pushAck, h, he]
  exact if_neg hpush

theorem Slice.pushDecline_unexpected (hpush : e.st ≠ .wPush) : s.pushDecline a = s.unexpected bk i a := by
  simp only [Slice.pushDecline, h, he]
  exact if_neg hpush

theorem Slice.snpData_unexpected (hinv : (e.st ≠ .wInv ∧ e.st ≠ .wRecall) ∨ e.pend = 0)
    (hfwd : e.st ≠ .wFwd ∨ e.gotAns = true) : s.snpData a = s.unexpected bk i a := by
  simp [Slice.snpData, h, he, awaitsInv_eq_false hinv, awaitsFwd_eq_false hfwd]

end Unexpected

/-- An answer that its HTE does not expect is a violation, captured with the line of the HTE (R133). -/
theorem exec_unexpected {s : Slice} {q : List Instr} {a : Arr} {c : Instr} {k : Cls} {op : BitVec 6} {data : Bool} {f : Slice → Slice} {bk i : Nat}
    (hexec : exec c ⟨s, q⟩ = actSunk k a (fun t => t.sunk op data a f) ⟨s, q⟩) (h : s.takes a.port k)
    (hpc : s.flag PC_CTRL PC_CTRL_EN = false) (hm : s.mine a.dst = true) (hf : f (s.answering q a k) = (s.answering q a k).unexpected bk i a) :
    ∃ t, exec c ⟨s, q⟩ = .next ⟨t, q⟩ ∧ s.violated a 1 ((s.hte bk i).line * 128 % 2 ^ 48) t := by
  refine ⟨_, hexec.trans (actSunk_answer h hpc hm op data f q), ?_⟩
  rw [hf, Slice.unexpected, ← Slice.noteViol_addr_mod]
  exact (Slice.sunk_answering q h).violated a (by decide) (Nat.mod_lt _ (by decide)) none

/-! ### Answers of no transaction (R39) -/

/-- An opcode of a refusal or an error is that of no other answer (R128). -/
theorem Slice.rspIn_of_isErrorRsp {op : BitVec 6} (h : isErrorRsp op = true) (s : Slice) (a : Arr) : s.rspIn op a = s.errorIn a := by
  have hother : op ≠ RS_COMP ∧ op ≠ RS_COMP_ACK ∧ op ≠ RS_FWD_ACK ∧ op ≠ RS_INV_ACK ∧ op ≠ RS_NACK_GONE ∧ op ≠ RS_PUSH_ACK
      ∧ op ≠ RS_PUSH_DECLINE ∧ op ≠ RS_FO_CREDIT ∧ op ≠ RS_MEM_ACK := by
    revert op
    decide
  obtain ⟨h1, h2, h3, h4, h5, h6, h7, h8, h9⟩ := hother
  rw [Slice.rspIn, if_neg h1, if_neg h2, if_neg h3, if_neg h4, if_neg h5, if_neg h6, if_neg h7, if_neg h8, if_neg h9, if_pos h]

/-- An error answer whose TXN names neither an HTE nor a transaction is unmatched (R39). -/
theorem Slice.errorIn_unmatched {s : Slice} {a : Arr} (hhte : s.hteByTxn a.txn.toNat = none) (htxn : Tbl.at TxnUse.none s.txns a.txn.toNat = TxnUse.none) :
    s.errorIn a = s.noteUnmatched a := by
  simp only [Slice.errorIn, htxn, Slice.stray, hhte]

/-- An answer that is only logged changes nothing else (R39). -/
theorem Slice.Sunk.noteUnmatched {s u : Slice} (h : s.Sunk u) (a : Arr) (p : Option Port) :
    ((u.noteUnmatched a).onPort p).settle.errLog = (s.logErr 0x0D (log1Addr 0 a.src.toNat) a.pid.toNat).errLog
      ∧ s.regsBut ((u.noteUnmatched a).onPort p).settle logRegs ∧ s.onlyRecorded ((u.noteUnmatched a).onPort p).settle := by
  refine ⟨(Slice.settle_egress_errLog _).2.trans (h.log.logErr _ _ _).errLog, fun i hi => ?_, h.onlyRecorded (u.logErr_logStep _ _ _) p⟩
  rw [Slice.settle_regsBut _ i List.not_mem_nil, ← h.log.reg]
  exact congrArg (· &&& ~~~(followBits i)) (u.reg_logErr_of_not_mem _ _ _ _ hi)

/-- An error answer that matches nothing is logged; nothing else changes, and no port of answers is left (R39). -/
theorem exec_error_unmatched {s : Slice} {q : List Instr} {a : Arr} {op : BitVec 6} (h : s.takes a.port .rsp)
    (hpc : s.flag PC_CTRL PC_CTRL_EN = false) (hm : s.mine a.dst = true) (hhte : s.hteByTxn a.txn.toNat = none) (herr : isErrorRsp op = true)
    (htxn : Tbl.at TxnUse.none s.txns a.txn.toNat = TxnUse.none) :
    ∃ t, exec (.unmatched .rsp op a) ⟨s, q⟩ = .next ⟨t, q⟩ ∧ t.errLog = (s.logErr 0x0D (log1Addr 0 a.src.toNat) a.pid.toNat).errLog
      ∧ s.regsBut t logRegs ∧ s.onlyRecorded t ∧ t.ansPort = none := by
  have hunmatched : (s.answering q a .rsp).rspIn op a = (s.answering q a .rsp).noteUnmatched a :=
    (Slice.rspIn_of_isErrorRsp herr _ a).trans (Slice.errorIn_unmatched hhte htxn)
  obtain ⟨hlog, hregs, hrest⟩ := (Slice.sunk_answering q h).noteUnmatched a none
  refine ⟨_, actSunk_answer h hpc hm op false (fun u => u.rspIn op a) q, ?_⟩
  rw [hunmatched]
  exact ⟨hlog, hregs, hrest, Slice.settle_ansPort _⟩

/-- Settles O21: a FWD and an answer that its HTE does not expect are sunk and noted as a violation, an error answer of no transaction as unmatched;
neither note changes an HTE. -/
theorem unexpectedMessages : Obligations.UnexpectedMessages := by
  unfold Obligations.UnexpectedMessages
  intro s q a hm hpc noted
  refine ⟨fun op htakes => exec_fwd_violated op htakes hpc hm, fun c k htakes htxn hbusy hkind => ?_, fun op htakes hhte herr htxn => ?_⟩
  · have hbyTxn : (s.answering q a k).hteByTxn a.txn.toNat = some (a.txn.toNat / 16, a.txn.toNat % 16) := Slice.hteByTxn_of_busy htxn hbusy
    have hhte : (s.answering q a k).hte (a.txn.toNat / 16) (a.txn.toNat % 16) = s.hte (a.txn.toNat / 16) (a.txn.toNat % 16) := rfl
    obtain ⟨rfl, rfl, hinv⟩ | ⟨rfl, rfl | rfl, hfwd⟩ | ⟨rfl, rfl | rfl, hpush⟩ | ⟨rfl, rfl, hinv, hfwd⟩ := hkind
    · exact exec_unexpected rfl htakes hpc hm (Slice.invAck_unexpected hbyTxn hhte hinv)
    · exact exec_unexpected rfl htakes hpc hm (Slice.fwdAck_unexpected hbyTxn hhte hfwd)
    · exact exec_unexpected rfl htakes hpc hm (Slice.nackGone_unexpected hbyTxn hhte hfwd)
    · exact exec_unexpected rfl htakes hpc hm (Slice.pushAck_unexpected hbyTxn hhte hpush)
    · exact exec_unexpected rfl htakes hpc hm (Slice.pushDecline_unexpected hbyTxn hhte hpush)
    · exact exec_unexpected rfl htakes hpc hm (Slice.snpData_unexpected hbyTxn hhte hinv hfwd)
  · obtain ⟨t, hexec, hlog, hregs, ⟨hcred, hrest⟩, hport⟩ := exec_error_unmatched htakes hpc hm hhte herr htxn
    rw [hport] at hrest
    exact ⟨t, hexec, hlog, hregs, hcred, hrest⟩

end Sys2Proof.Machine
end

section
/-! SUPPORT. Sync requests to a line whose frame is lost (spec 14_error_protection.md R334, R342; 08_sync_objects.md R202): the request is granted the
slot in which it is first offered, the tag stage finds the lost line, and the answer is DATA_ERR. -/

namespace Sys2Proof.Machine

/-! ### The grant of a request that no other candidate meets (R29, R32) -/

/-- A free slot is the first one from itself on. -/
theorem Bank.firstRun_of_slotFree {b : Bank} {g : Nat} (h : b.slotFree g = true) : b.firstRun g 1 = g := by
  rw [Bank.firstRun, if_pos]
  simpa [Bank.runFree] using h

/-- With the counters off a grant from a slot that is free is the grant of that slot; it changes its bank, the activity and the count of grants alone, and
no bank's HTEs. -/
theorem Slice.grant_of_slotFree {s : Slice} (hpc : s.flag PC_CTRL PC_CTRL_EN = false) {bk g : Nat} (hslot : (s.bank bk).slotFree g = true) (code : Nat)
    (i : Option Nat) (pid : Nat) (o : Occ) :
    ∃ u, s.grant bk g 1 code i pid o = (g, u) ∧ (∀ k, (u.bank k).htes = (s.bank k).htes)
      ∧ ∃ banks act, u = { s with banks := banks, gov := { s.gov with activity := act }, grantsTotal := s.grantsTotal + 1 } := by
  obtain ⟨_, _, _, htaken, _, _⟩ := s.bankNow_frame bk
  have hfirst : (s.grant bk g 1 code i pid o).1 = g := by
    rw [Slice.grant_fst]
    refine Bank.firstRun_of_slotFree ?_
    rwa [Bank.slotFree, htaken, ← Bank.slotFree]
  obtain ⟨act, b, u, hu, hgrant, _, hhtes, _⟩ := s.grant_pre bk g 1 code i pid o
  have hoff : u.flag PC_CTRL PC_CTRL_EN = false := by rw [hu]; exact hpc
  rw [u.pcEv_off _ _ _ hoff, u.pcEv_off _ _ _ hoff] at hgrant
  refine ⟨u, Prod.ext hfirst hgrant, fun k => ?_, _, act, hu⟩
  rw [hu, Slice.bank, Tbl.at_put]
  split
  · next hk => rw [hk, hhtes]
  · rfl

/-- Where no other candidate can take the slot of the present fc, that slot is free. -/
theorem Slice.slotFree_of_uncontended {s : Slice} {bk : Nat} (h : s.uncontended bk = true) : (s.bank bk).slotFree s.slotFc = true := by
  cases hslot : (s.bank bk).slotFree s.slotFc with
  | true => rfl
  | false => simp [Slice.uncontended, hslot] at h

/-- A candidate for an awake half with no flush walk leaves the half as it is (R313, R314). -/
theorem Slice.touchHalf_of_awake {s : Slice} {h : Nat} (ha : s.awake h = true) (hf : s.flag AG_PSTATE (flushField h) = false) : s.touchHalf h = s := by
  simp [Slice.touchHalf, ha, hf]

/-- A request that the check stage admits on its own half, with nothing that withholds it and no other candidate of its bank, is offered at once
(R28, R51, R126). -/
theorem Slice.arriveReq_of_uncontended {s : Slice} {op : BitVec 6} {a : Arr} {lp : Nat} {fo : Bool} (hpc : s.flag PC_CTRL PC_CTRL_EN = false)
    (hcheck : s.check op a = .accepts lp fo) (hanchor : op ≠ OP_ACC_ANCHOR) (hmulti : isMulti op a = false) (hcross : crossing op a = 0)
    (hawake : s.awake (reqHalf op a) = true) (hflush : s.flag AG_PSTATE (flushField (reqHalf op a)) = false)
    (hfree : s.uncontended (firstBank op a) = true) (hblocked : s.blocked ⟨op, a, lp, fo, false, s.fc⟩ = false) :
    s.arriveReq op a
      = (s.offer ⟨op, a, lp, fo, false, s.fc⟩ (Req.input ⟨op, a, lp, fo, false, s.fc⟩)).returnRx a.port .req := by
  have hin : (if hasPayload op = true then s.ingress .req op a else s) = s := by
    rw [Slice.ingress, s.pcEv_off _ _ _ hpc, ite_self]
  have hfree' : s.uncontended (bankKey (reqSet op a)) = true := hfree
  unfold Slice.arriveReq
  simp only [hin, hcheck, hanchor, if_false]
  unfold Slice.accepts
  simp [hcross, hmulti, Slice.touchHalf_of_awake hawake hflush, hfree', hblocked]

/-! ### The tag stage of a sync request to a lost line (R334) -/

/-- A sync request is a frame operation under no descriptor, and none of the requests that the arbiter or the answers treat apart (R198). -/
theorem isSy_excludes {op : BitVec 6} (h : isSy op = true) :
    isFrameOp op = true ∧ isAcc op = false ∧ usesDesc op = false ∧ op ≠ OP_LINE_OP ∧ op ≠ OP_ACC_ANCHOR ∧ op ≠ OP_PIN_FILL ∧ op ≠ OP_PIN_COPY
      ∧ op ≠ OP_PIN_DROP := by
  revert op
  decide

theorem spanFrames_of_isSy {op : BitVec 6} (h : isSy op = true) (a : Arr) : spanFrames op a = 1 := by
  obtain ⟨_, hacc, _⟩ := isSy_excludes h
  simp [spanFrames, hacc]

theorem isMulti_of_isSy {op : BitVec 6} (h : isSy op = true) (a : Arr) : isMulti op a = false := by
  obtain ⟨_, _, _, _, _, hfill, hcopy, hdrop⟩ := isSy_excludes h
  simp [-BitVec.ofNat_eq_ofNat, isMulti, hfill, hcopy, hdrop]

/-- The tag stage of a request to a line that has no transaction, in a frame that is lost, finds the lost line. -/
theorem Slice.tag_of_lost {s : Slice} {lp line key : Nat} (hhte : s.hteOf line = none) (hloc : s.locate lp line = .frame key)
    (hlost : s.frameLost key = true) (own : Option Nat) : s.tag lp line own = .lost (.frame key) := by
  simp [Slice.tag, hhte, hloc, Slice.isLost, hlost]

theorem Slice.opLine_of_lost {s : Slice} {r : Req} {line key : Nat} (hhte : s.hteOf line = none) (hloc : s.locate r.lp line = .frame key)
    (hlost : s.frameLost key = true) (bk : Nat) (own : Option Nat) : s.opLine r bk line own = .lost (.frame key) := by
  have harr : s.arrivedFor r bk line own = none := by simp [Slice.arrivedFor, hhte]
  simp [Slice.opLine, harr, Slice.tag_of_lost hhte hloc hlost]

/-- With no error in the arrays a read of words finds none. -/
theorem Slice.noteReads_of_noFlips {s : Slice} (h : s.flips = []) (arr idx src : Nat) (p : Nat → Bool) : s.noteReads arr idx src p = s := by
  simp [Slice.noteReads, Slice.flipWords, h]

/-- A sync request to a lost line is performed as its answer alone: DATA_ERR, when the data would have left (R334). -/
theorem Slice.serveOpPhys_of_lost {s : Slice} {r : Req} {g key : Nat} (hop : isSy r.op = true) (hsteward : r.steward = false) (hflips : s.flips = [])
    (hhte : s.hteOf (lineNo r.a.addr.toNat) = none) (hloc : s.locate r.lp (lineNo r.a.addr.toNat) = .frame key) (hlost : s.frameLost key = true) :
    s.serveOpPhys r (Gr.new g) = s.sendRsp r.port (g + 21) r.a RS_DATA_ERR 0 := by
  obtain ⟨_, hacc, hdesc, hline, _⟩ := isSy_excludes hop
  have hfirst := Slice.opLine_of_lost hhte hloc hlost (bankKey (lineSet (lineNo r.a.addr.toNat))) none
  simp [-BitVec.ofNat_eq_ofNat, Slice.serveOpPhys, Gr.new, spanFrames_of_isSy hop, hfirst, hdesc, hacc, hline, hsteward, Slice.locRead,
    Slice.noteReads_of_noFlips hflips, Slice.failRead, Slice.answer, Slice.doneOwn]

/-- The same, with the tag words read and the slots of an eviction counted around it (R35, R332). -/
theorem Slice.serve_of_lost {s : Slice} {r : Req} {g key : Nat} (hop : isSy r.op = true) (hpin : r.a.pin = false) (hsteward : r.steward = false)
    (hflips : s.flips = []) (hhte : s.hteOf (lineNo r.a.addr.toNat) = none) (hloc : s.locate r.lp (lineNo r.a.addr.toNat) = .frame key)
    (hlost : s.frameLost key = true) : s.serve r (Gr.new g) = s.sendRsp r.port (g + 21) r.a RS_DATA_ERR 0 := by
  obtain ⟨hframe, _⟩ := isSy_excludes hop
  have htags : ∀ l : List Nat, l.foldl (fun t n => t.tagRead r.lp n) s = s := by
    intro l
    induction l with
    | nil => rfl
    | cons n l ih => rwa [List.foldl_cons, Slice.tagRead, if_pos hflips]
  have hbad : ∀ n, s.tagBad r.lp n = false := fun n => by simp [Slice.tagBad, hflips]
  have hperform : s.perform r (Gr.new g) = s.sendRsp r.port (g + 21) r.a RS_DATA_ERR 0 := by
    rw [Slice.perform, if_pos hframe, Slice.serveOp, if_neg (by simp [hpin]), Slice.serveOpPhys_of_lost hop hsteward hflips hhte hloc hlost]
  simp [Slice.serve, htags, hbad, hperform, Slice.evictSlot, Slice.sendRsp_eq]

/-! ### The outcome (R334) -/

theorem Slice.noteTags_egress (s t : Slice) (bk g n pid : Nat) : (s.noteTags t bk g n pid).egress = t.egress := by
  unfold Slice.noteTags
  split <;> rfl

/-- A sync request that is offered to a lost line is answered DATA_ERR, 21 fc after the grant. -/
theorem Slice.offer_egress_of_lost {s : Slice} {r : Req} {key : Nat} (hop : isSy r.op = true) (hpin : r.a.pin = false) (hsteward : r.steward = false)
    (hpc : s.flag PC_CTRL PC_CTRL_EN = false) (hflips : s.flips = []) (hslot : (s.bank (bankKey (reqSet r.op r.a))).slotFree s.slotFc = true)
    (hhte : s.hteOf (lineNo r.a.addr.toNat) = none) (hloc : s.locate r.lp (lineNo r.a.addr.toNat) = .frame key) (hlost : s.frameLost key = true)
    (input : Option Nat) : (s.offer r input).egress = s.egress ++ [s.outRsp r.port (s.slotFc + 21) r.a RS_DATA_ERR 0] := by
  obtain ⟨u, hgrant, hhtes, _, _, hu⟩ := Slice.grant_of_slotFree hpc hslot 1 input r.lp r.occ
  have hserve : u.serve r (Gr.new s.slotFc) = u.sendRsp r.port (s.slotFc + 21) r.a RS_DATA_ERR 0 :=
    Slice.serve_of_lost hop hpin hsteward (by rwa [hu]) (by rwa [Slice.hteOf, hhtes, ← Slice.hteOf]) (by rwa [hu]) (by rwa [hu])
  unfold Slice.offer
  simp only [hgrant, apply_ite Slice.egress, Slice.noteTags_egress, ite_self]
  rw [hserve, Slice.sendRsp_eq, hu]
  rfl

/-- R334: a sync request that opens, to a lost line that is in place otherwise, is answered with DATA_ERR instead of the object or its status. -/
theorem exec_sync_of_lost {s : Slice} {q : List Instr} {c : Instr} {op : BitVec 6} {a : Arr} {lp : Nat} {fo : Bool} {key : Nat → Nat}
    (hexec : exec c ⟨s, q⟩ = actReq op a ⟨s, q⟩) (hop : isSy op = true) (hopens : s.opens q op a lp fo) (hplace : s.inPlace op a lp key)
    (hpin : a.pin = false) (hlost : s.frameLost (key 0) = true) :
    ∃ t, exec c ⟨s, q⟩ = .next ⟨t, q⟩ ∧ t.egress = s.egress ++ [s.outRsp (ansPort op a) (s.slotFc + 21) a RS_DATA_ERR 0] := by
  obtain ⟨⟨⟨hclamp, hcred⟩, ⟨hpc, hflips, _⟩, hcheck, hawake, hflush, hblocked⟩, hcross, hfree⟩ := hopens
  obtain ⟨_, _, _, _, hanchor, _⟩ := isSy_excludes hop
  obtain ⟨_, hframes⟩ := hplace
  have hfirst := hframes 0 (by rw [spanFrames_of_isSy hop]; exact Nat.one_pos)
  rw [if_neg (by simp [hpin])] at hfirst
  obtain ⟨hloc, hhte, _⟩ := hfirst
  have harrive := Slice.arriveReq_of_uncontended (s := (s.coming q).spendRx a.port .req) hpc hcheck hanchor (isMulti_of_isSy hop a) hcross hawake
    hflush hfree hblocked
  have hoffer := Slice.offer_egress_of_lost (s := (s.coming q).spendRx a.port .req) (r := ⟨op, a, lp, fo, false, s.fc⟩) hop hpin rfl hpc hflips
    (Slice.slotFree_of_uncontended hfree) hhte hloc hlost (Req.input ⟨op, a, lp, fo, false, s.fc⟩)
  obtain ⟨hsettle, _⟩ := Slice.settle_egress_errLog (((s.coming q).spendRx a.port .req).arriveReq op a)
  refine ⟨(((s.coming q).spendRx a.port .req).arriveReq op a).settle, ?_, ?_⟩
  · rw [hexec, actReq, actMsg_of_credit _ hclamp hcred, act_eq]
    rfl
  · exact (hsettle.trans ((congrArg Slice.egress harrive).trans (Slice.returnRx_egress _ _ _))).trans hoffer

/-! ### The counterexample -/

/-- Bank 4 of H0 is mapped onto the spare, whose row 0 holds line 0x20 of PID 0 in way 0, raw and dirty; the line was lost when the copy reached it, and stays
lost, and no entry of the retire table names the spare's frame (R342). -/
def lostOnSpare : Slice :=
  { Slice.reset with
    start := { Startup.init with aonReset := false, sliceReset := false, rails := true }
    rxCred := [(0, 8)]
    regs := [(PT_STATUS 0, 2), (EC_SPARE, setF (setF (0 : Word) EC_SPARE_H0_VALID 1) EC_SPARE_H0_BANK 4)]
    frames := [(frameKeyOf 0 8 0 0, ⟨rawW0 0 0x20 15 15 false, 0, 5⟩)]
    lostKeys := [frameKeyOf 0 8 0 0] }

/-- An SY_READ of object 0 of line 0x20, by node 7 under PID 0. -/
def readOfLost : Arr :=
  { port := 0, src := 7, dst := 0, pid := 0, txn := 5, dclass := false, hint := 0, ext0 := 0, addr := 0x1000, ext1 := 0, pl := 0 }

theorem alone_lostOnSpare : lostOnSpare.alone [] := ⟨rfl, fun _ => rfl, rfl⟩

theorem opens_lostOnSpare : lostOnSpare.opens [] OP_SY_READ readOfLost 0 false := by decide +kernel

theorem inPlace_lostOnSpare : lostOnSpare.inPlace OP_SY_READ readOfLost 0 (fun _ => frameKeyOf 0 8 0 0) := by
  refine ⟨by decide +kernel, fun j hj => ?_⟩
  obtain rfl : j = 0 := by
    rw [spanFrames_of_isSy (by decide)] at hj
    omega
  decide +kernel

/-- Refutes O34: a lost line answers DATA_ERR to SY_READ too (R334), where the second clause has the object's 16 bytes leave; that no entry of the retire
table names the line's frame does not keep it from being lost, for the spare's frames are marked apart from the table (R342). -/
theorem not_syncObjects : ¬ Obligations.SyncObjects := by
  unfold Obligations.SyncObjects
  intro h
  obtain ⟨_, hread, _⟩ := h lostOnSpare [] readOfLost 0 false (fun _ => frameKeyOf 0 8 0 0) alone_lostOnSpare
  obtain ⟨t, hstated, hobject, _⟩ := hread opens_lostOnSpare inPlace_lostOnSpare
  obtain ⟨u, hexec, herror⟩ := exec_sync_of_lost (c := .syRead readOfLost) rfl (by decide) opens_lostOnSpare inPlace_lostOnSpare (by decide)
    (by decide +kernel)
  obtain rfl : u = t := by
    rw [hexec] at hstated
    injection hstated with hstate
    exact congrArg State.slice hstate
  rw [herror] at hobject
  have hout := List.append_cancel_left hobject
  simp [Slice.outRsp, Slice.outDat] at hout

end Sys2Proof.Machine
end
